-- ==== Sys2Proof/Word.lean ====
section
/-! DEFINITION. The word types of the KC-384 and the smallest vocabulary every other file uses. -/

namespace Sys2Proof

/-- A 64-bit scalar register or special register (R8, R14). -/
abbrev Word := BitVec 64

/-- A byte of memory. -/
abbrev Byte := BitVec 8

/-- The three kinds of core (R17, R40): A and E are the two cores of a tile, V a vault core. -/
inductive CoreKind where
  | a
  | e
  | v
  deriving DecidableEq, Repr

end Sys2Proof
end

