-- ==== Sys2Proof/Machine/Bits.lean ====
section
/-! DEFINITION. Bit fields, sign extension and byte order (R2, R5, R23). -/

namespace Sys2Proof.Machine

/-- x[hi:lo] of a number. -/
def bits (x hi lo : Nat) : Nat := x / 2 ^ lo % 2 ^ (hi + 1 - lo)

/-- x[n] of a number. -/
def bitAt (x n : Nat) : Bool := x / 2 ^ n % 2 == 1

/-- The low n bits of x read as a two's-complement number. -/
def sextInt (x n : Nat) : Int :=
  let y := x % 2 ^ n
  if n ≠ 0 ∧ 2 ^ (n - 1) ≤ y then (y : Int) - (2 : Int) ^ n else (y : Int)

/-- An integer modulo 2^n. -/
def wrapN (x : Int) (n : Nat) : Nat := (x % (2 : Int) ^ n).toNat

/-- sext(x, 64) of the low n bits of x. -/
def sext64 (x n : Nat) : Word := BitVec.ofNat 64 (wrapN (sextInt x n) 64)

/-- The n little-endian bytes of a number (R23). -/
def toBytes (x : Nat) : Nat → List Byte
  | 0 => []
  | n + 1 => BitVec.ofNat 8 x :: toBytes (x / 256) n

/-- The number whose little-endian bytes these are (R23). -/
def ofBytes : List Byte → Nat
  | [] => 0
  | b :: bs => b.toNat + 256 * ofBytes bs

/-- The first n elements of a list, filled up with d. -/
def takeD {α : Type} (d : α) : Nat → List α → List α
  | 0, _ => []
  | n + 1, [] => d :: takeD d n []
  | n + 1, x :: xs => x :: takeD d n xs

/-- Replace element n of a list, when there is one. -/
def setAt {α : Type} (l : List α) (n : Nat) (x : α) : List α := l.set n x

/-- [0, 1, …, n − 1]. -/
def upTo (n : Nat) : List Nat := List.range n

/-- The lowest number below n that p holds of, from i on. -/
def firstFrom (p : Nat → Bool) : Nat → Nat → Option Nat
  | _, 0 => none
  | i, n + 1 => if p i then some i else firstFrom p (i + 1) n

/-- The sum of f(i) × 2^(w × i) over a list of numbers. -/
def packBits (f : Nat → Nat) (w : Nat) (l : List Nat) : Nat := l.foldl (fun a i => a + f i * 2 ^ (w * i)) 0

/-- The number of one bits among the low n bits of x. -/
def popCount (x : Nat) : Nat → Nat
  | 0 => 0
  | n + 1 => x % 2 + popCount (x / 2) n

end Sys2Proof.Machine
end

