-- ==== Sys2Proof/Syntax.lean ====
section
/-! DEFINITION. The instructions, commands and machine events of the opcode table, one constructor of Instr per row. -/

namespace Sys2Proof

/-- A scalar register number s0 to s63 (R8). -/
abbrev Reg := Fin 64
/-- A scalar register named by a five-bit vector field, s0 to s31 (R53). -/
abbrev SReg := Fin 32
/-- A vector register number v0 to v31 (R37). -/
abbrev VReg := Fin 32
/-- A predicate register number p0 to p7 (R53). -/
abbrev PReg := Fin 8

/-- The V-format element types (R36); code 7 is no type. -/
inductive VTy where
  | f32
  | f16
  | bf16
  | i32
  | i16
  | i8
  | ui8
  deriving DecidableEq, Repr

/-- The code of an element type (R36). -/
def VTy.code : VTy → Nat
  | .f32 => 0
  | .f16 => 1
  | .bf16 => 2
  | .i32 => 3
  | .i16 => 4
  | .i8 => 5
  | .ui8 => 6

/-- A slot of a command word: a literal or a register (R57). -/
inductive Slot (n : Nat) where
  | lit (v : BitVec n)
  | reg (r : Reg)
  deriving DecidableEq, Repr

/-- The fields of a command word behind its class and opcode (R56). -/
structure CmdWord where
  tl    : Fin 4
  flags : BitVec 6
  s0    : Slot 48
  s1    : Slot 48
  s2    : Slot 48
  s3    : Slot 48
  s4    : Slot 32
  deriving DecidableEq, Repr

/-- The engine classes of R60. -/
inductive EngClass where
  | push
  | matrix
  | collective
  | health
  deriving DecidableEq, Repr

/-- What a step can run: every row of the opcode table is one constructor.
The first 240 rows are the instruction words, the next ones command words and parts of instructions, the rest the machine's own events and what reaches it from outside. -/
inductive Instr where
  /-- R65: ADD. Writes d = a + b modulo 2^64. -/
  | add (d : Reg) (a : Reg) (b : Reg) (t : Bool) (u : Bool)
  /-- R65: SUB. Writes d = a − b modulo 2^64. -/
  | sub (d : Reg) (a : Reg) (b : Reg) (t : Bool) (u : Bool)
  /-- R65: AND. Writes d = a AND b. -/
  | and (d : Reg) (a : Reg) (b : Reg) (t : Bool) (u : Bool)
  /-- R65: OR. Writes d = a OR b. -/
  | or (d : Reg) (a : Reg) (b : Reg) (t : Bool) (u : Bool)
  /-- R65: XOR. Writes d = a XOR b. -/
  | xor (d : Reg) (a : Reg) (b : Reg) (t : Bool) (u : Bool)
  /-- R65: ANDN. Writes d = a AND NOT b. -/
  | andn (d : Reg) (a : Reg) (b : Reg) (t : Bool) (u : Bool)
  /-- R65: ORN. Writes d = a OR NOT b. -/
  | orn (d : Reg) (a : Reg) (b : Reg) (t : Bool) (u : Bool)
  /-- R65: SHL. Shifts a left by b[5:0], with zeros shifted in. -/
  | shl (d : Reg) (a : Reg) (b : Reg) (t : Bool) (u : Bool)
  /-- R65: SHR. Shifts a right logically by b[5:0]. -/
  | shr (d : Reg) (a : Reg) (b : Reg) (t : Bool) (u : Bool)
  /-- R65: SRA. Shifts a right arithmetically by b[5:0]. -/
  | sra (d : Reg) (a : Reg) (b : Reg) (t : Bool) (u : Bool)
  /-- R65: ROL. Rotates a left by b[5:0]. -/
  | rol (d : Reg) (a : Reg) (b : Reg) (t : Bool) (u : Bool)
  /-- R65: ROR. Rotates a right by b[5:0]. -/
  | ror (d : Reg) (a : Reg) (b : Reg) (t : Bool) (u : Bool)
  /-- R65: MUL. Writes the low 64 bits of a × b. -/
  | mul (d : Reg) (a : Reg) (b : Reg) (t : Bool) (u : Bool)
  /-- R65: MULH. Writes the high 64 bits of the signed product of a and b. -/
  | mulh (d : Reg) (a : Reg) (b : Reg) (t : Bool) (u : Bool)
  /-- R65: MULHU. Writes the high 64 bits of the unsigned product of a and b. -/
  | mulhu (d : Reg) (a : Reg) (b : Reg) (t : Bool) (u : Bool)
  /-- R65: MULHSU. Writes the high 64 bits of signed a times unsigned b. -/
  | mulhsu (d : Reg) (a : Reg) (b : Reg) (t : Bool) (u : Bool)
  /-- R66: DIV. Signed division truncating toward zero, with the fixed results for a zero divisor and for overflow. -/
  | div (d : Reg) (a : Reg) (b : Reg) (t : Bool) (u : Bool)
  /-- R66: DIVU. Unsigned division; a zero divisor gives all ones. -/
  | divu (d : Reg) (a : Reg) (b : Reg) (t : Bool) (u : Bool)
  /-- R66: REM. Signed remainder with the sign of the dividend. -/
  | rem (d : Reg) (a : Reg) (b : Reg) (t : Bool) (u : Bool)
  /-- R66: REMU. Unsigned remainder; a zero divisor gives a. -/
  | remu (d : Reg) (a : Reg) (b : Reg) (t : Bool) (u : Bool)
  /-- R65: MIN. Writes the signed lesser of a and b. -/
  | min (d : Reg) (a : Reg) (b : Reg) (t : Bool) (u : Bool)
  /-- R65: MAX. Writes the signed greater of a and b. -/
  | max (d : Reg) (a : Reg) (b : Reg) (t : Bool) (u : Bool)
  /-- R65: MINU. Writes the unsigned lesser of a and b. -/
  | minu (d : Reg) (a : Reg) (b : Reg) (t : Bool) (u : Bool)
  /-- R65: MAXU. Writes the unsigned greater of a and b. -/
  | maxu (d : Reg) (a : Reg) (b : Reg) (t : Bool) (u : Bool)
  /-- R65: SLT. Writes 1 when a < b signed, otherwise 0. -/
  | slt (d : Reg) (a : Reg) (b : Reg) (t : Bool) (u : Bool)
  /-- R65: SLTU. Writes 1 when a < b unsigned, otherwise 0. -/
  | sltu (d : Reg) (a : Reg) (b : Reg) (t : Bool) (u : Bool)
  /-- R65: SEQ. Writes 1 when a equals b, otherwise 0. -/
  | seq (d : Reg) (a : Reg) (b : Reg) (t : Bool) (u : Bool)
  /-- R65: SNE. Writes 1 when a differs from b, otherwise 0. -/
  | sne (d : Reg) (a : Reg) (b : Reg) (t : Bool) (u : Bool)
  /-- R65: CLZ. Counts the leading zero bits of a. -/
  | clz (d : Reg) (a : Reg) (t : Bool)
  /-- R65: CTZ. Counts the trailing zero bits of a. -/
  | ctz (d : Reg) (a : Reg) (t : Bool)
  /-- R65: POPC. Counts the one bits of a. -/
  | popc (d : Reg) (a : Reg) (t : Bool)
  /-- R65: BSWAP. Reverses the byte order of a. -/
  | bswap (d : Reg) (a : Reg) (t : Bool)
  /-- R65: BREV. Reverses the bit order of a. -/
  | brev (d : Reg) (a : Reg) (t : Bool)
  /-- R65: SEL. Writes a when the old d is non-zero, otherwise b. -/
  | sel (d : Reg) (a : Reg) (b : Reg) (t : Bool) (u : Bool)
  /-- R65: SEXT_B. Sign-extends a[7:0] to 64 bits. -/
  | sextB (d : Reg) (a : Reg) (t : Bool)
  /-- R65: SEXT_H. Sign-extends a[15:0] to 64 bits. -/
  | sextH (d : Reg) (a : Reg) (t : Bool)
  /-- R65: SEXT_W. Sign-extends a[31:0] to 64 bits. -/
  | sextW (d : Reg) (a : Reg) (t : Bool)
  /-- R65: ZEXT_B. Zero-extends a[7:0] to 64 bits. -/
  | zextB (d : Reg) (a : Reg) (t : Bool)
  /-- R65: ZEXT_H. Zero-extends a[15:0] to 64 bits. -/
  | zextH (d : Reg) (a : Reg) (t : Bool)
  /-- R65: ZEXT_W. Zero-extends a[31:0] to 64 bits. -/
  | zextW (d : Reg) (a : Reg) (t : Bool)
  /-- R67: MIX. Computes the mix hash of a and b. -/
  | mix (d : Reg) (a : Reg) (b : Reg) (t : Bool) (u : Bool)
  /-- R68: ADDI. Adds a sign-extended immediate to a. -/
  | addi (d : Reg) (a : Reg) (t : Bool) (i : BitVec 13)
  /-- R68: ANDI. ANDs a with a sign-extended immediate. -/
  | andi (d : Reg) (a : Reg) (t : Bool) (i : BitVec 13)
  /-- R68: ORI. ORs a with a sign-extended immediate. -/
  | ori (d : Reg) (a : Reg) (t : Bool) (i : BitVec 13)
  /-- R68: XORI. XORs a with a sign-extended immediate. -/
  | xori (d : Reg) (a : Reg) (t : Bool) (i : BitVec 13)
  /-- R68: SLTI. Compares a with the immediate, signed. -/
  | slti (d : Reg) (a : Reg) (t : Bool) (i : BitVec 13)
  /-- R68: SLTIU. Compares a with the sign-extended immediate, unsigned. -/
  | sltiu (d : Reg) (a : Reg) (t : Bool) (i : BitVec 13)
  /-- R69: SHLI. Shifts a left by an immediate amount. -/
  | shli (d : Reg) (a : Reg) (t : Bool) (n : Fin 64)
  /-- R69: SHRI. Shifts a right logically by an immediate amount. -/
  | shri (d : Reg) (a : Reg) (t : Bool) (n : Fin 64)
  /-- R69: SRAI. Shifts a right arithmetically by an immediate amount. -/
  | srai (d : Reg) (a : Reg) (t : Bool) (n : Fin 64)
  /-- R69: ROLI. Rotates a left by an immediate amount. -/
  | roli (d : Reg) (a : Reg) (t : Bool) (n : Fin 64)
  /-- R70: LUI. Writes the sign-extended immediate shifted left by 12. -/
  | lui (d : Reg) (i : BitVec 20)
  /-- R70: ADDPC. Writes its own address plus the immediate shifted left by 12. -/
  | addpc (d : Reg) (i : BitVec 20)
  /-- R71: BFX. Extracts a zero-extended bit field of a. -/
  | bfx (d : Reg) (a : Reg) (t : Bool) (l : Fin 64) (w : Fin 64)
  /-- R71: BFI. Inserts the low bits of a into a field of d. -/
  | bfi (d : Reg) (a : Reg) (t : Bool) (l : Fin 64) (w : Fin 64)
  /-- R73: LD_B. Loads a byte, sign-extended. -/
  | ldB (d : Reg) (a : Reg) (t : Bool) (o : BitVec 10)
  /-- R73: LD_BU. Loads a byte, zero-extended. -/
  | ldBu (d : Reg) (a : Reg) (t : Bool) (o : BitVec 10)
  /-- R73: LD_H. Loads 2 bytes, sign-extended. -/
  | ldH (d : Reg) (a : Reg) (t : Bool) (o : BitVec 10)
  /-- R73: LD_HU. Loads 2 bytes, zero-extended. -/
  | ldHu (d : Reg) (a : Reg) (t : Bool) (o : BitVec 10)
  /-- R73: LD_W. Loads 4 bytes, sign-extended. -/
  | ldW (d : Reg) (a : Reg) (t : Bool) (o : BitVec 10)
  /-- R73: LD_WU. Loads 4 bytes, zero-extended. -/
  | ldWu (d : Reg) (a : Reg) (t : Bool) (o : BitVec 10)
  /-- R73: LD_D. Loads 8 bytes. -/
  | ldD (d : Reg) (a : Reg) (t : Bool) (o : BitVec 10)
  /-- R74: ST_B. Stores the low byte of the data register. -/
  | stB (d : Reg) (a : Reg) (t : Bool) (o : BitVec 10)
  /-- R74: ST_H. Stores the low 2 bytes of the data register. -/
  | stH (d : Reg) (a : Reg) (t : Bool) (o : BitVec 10)
  /-- R74: ST_W. Stores the low 4 bytes of the data register. -/
  | stW (d : Reg) (a : Reg) (t : Bool) (o : BitVec 10)
  /-- R74: ST_D. Stores the 8 bytes of the data register. -/
  | stD (d : Reg) (a : Reg) (t : Bool) (o : BitVec 10)
  /-- R233: ST_NT_B. Non-temporal byte store through the combining buffer. -/
  | stNtB (d : Reg) (a : Reg) (t : Bool) (o : BitVec 10)
  /-- R233: ST_NT_H. Non-temporal 2-byte store through the combining buffer. -/
  | stNtH (d : Reg) (a : Reg) (t : Bool) (o : BitVec 10)
  /-- R233: ST_NT_W. Non-temporal 4-byte store through the combining buffer. -/
  | stNtW (d : Reg) (a : Reg) (t : Bool) (o : BitVec 10)
  /-- R233: ST_NT_D. Non-temporal 8-byte store through the combining buffer. -/
  | stNtD (d : Reg) (a : Reg) (t : Bool) (o : BitVec 10)
  /-- R77: LDQ_W. Loads 4 bytes and pushes them into the queue to the partner E-core. -/
  | ldqW (a : Reg) (t : Bool) (o : BitVec 10)
  /-- R77: LDQ_D. Loads 8 bytes and pushes them into the queue to the partner E-core. -/
  | ldqD (a : Reg) (t : Bool) (o : BitVec 10)
  /-- R78: STQ_W. Pops the partner queue and stores 4 bytes. -/
  | stqW (a : Reg) (t : Bool) (o : BitVec 10)
  /-- R78: STQ_D. Pops the partner queue and stores 8 bytes. -/
  | stqD (a : Reg) (t : Bool) (o : BitVec 10)
  /-- R79: BR_EQ. Branches when sa equals sb. -/
  | brEq (a : Reg) (b : Reg) (o : BitVec 11)
  /-- R79: BR_NE. Branches when sa differs from sb. -/
  | brNe (a : Reg) (b : Reg) (o : BitVec 11)
  /-- R79: BR_LT. Branches when sa < sb, signed. -/
  | brLt (a : Reg) (b : Reg) (o : BitVec 11)
  /-- R79: BR_GE. Branches when sa ≥ sb, signed. -/
  | brGe (a : Reg) (b : Reg) (o : BitVec 11)
  /-- R79: BR_LTU. Branches when sa < sb, unsigned. -/
  | brLtu (a : Reg) (b : Reg) (o : BitVec 11)
  /-- R79: BR_GEU. Branches when sa ≥ sb, unsigned. -/
  | brGeu (a : Reg) (b : Reg) (o : BitVec 11)
  /-- R79: BR_BS. Branches when bit n of sa is 1. -/
  | brBs (a : Reg) (n : Fin 64) (o : BitVec 11)
  /-- R79: BR_BC. Branches when bit n of sa is 0. -/
  | brBc (a : Reg) (n : Fin 64) (o : BitVec 11)
  /-- R80: JAL. Writes the link and jumps by a word offset. -/
  | jal (d : Reg) (o : BitVec 20)
  /-- R81: JALR. Writes the link and jumps to sa + imm. -/
  | jalr (d : Reg) (a : Reg) (t : Bool) (i : BitVec 13)
  /-- R83: LOOP. Pushes a hardware loop frame with its count taken from a register. -/
  | loopR (a : Reg) (t : Bool) (e : Fin 8192)
  /-- R83: LOOPI. Pushes a hardware loop frame with an immediate count. -/
  | loopi (c : Fin 16384) (e : Fin 4096)
  /-- R199: REP_REGISTER_FORM. Captures a body and replays it in the repetition buffer, with its count taken from a register. -/
  | repR (c : Reg) (l : Fin 16) (sx : Fin 16) (m : Fin 8) (w : Fin 4) (t : Bool)
  /-- R199: REP_IMMEDIATE_FORM. Captures a body and replays it in the repetition buffer, with an immediate count. -/
  | repI (n : Fin 64) (l : Fin 16) (sx : Fin 16) (m : Fin 8) (w : Fin 4)
  /-- R109: FADD. FP32 addition, rounded under fmode. -/
  | fadd (d : Reg) (a : Reg) (b : Reg) (t : Bool) (u : Bool)
  /-- R109: FSUB. FP32 subtraction. -/
  | fsub (d : Reg) (a : Reg) (b : Reg) (t : Bool) (u : Bool)
  /-- R109: FMUL. FP32 multiplication. -/
  | fmul (d : Reg) (a : Reg) (b : Reg) (t : Bool) (u : Bool)
  /-- R109: FDIV. FP32 division, correctly rounded. -/
  | fdiv (d : Reg) (a : Reg) (b : Reg) (t : Bool) (u : Bool)
  /-- R109: FSQRT. FP32 square root, correctly rounded. -/
  | fsqrt (d : Reg) (a : Reg) (t : Bool)
  /-- R110: FMA. Fused a × b + d with one rounding. -/
  | fma (d : Reg) (a : Reg) (b : Reg) (t : Bool) (u : Bool)
  /-- R110: FMS. Fused a × b − d with one rounding. -/
  | fms (d : Reg) (a : Reg) (b : Reg) (t : Bool) (u : Bool)
  /-- R111: FMIN. FP32 minimum, with its own NaN rules. -/
  | fmin (d : Reg) (a : Reg) (b : Reg) (t : Bool) (u : Bool)
  /-- R111: FMAX. FP32 maximum, with its own NaN rules. -/
  | fmax (d : Reg) (a : Reg) (b : Reg) (t : Bool) (u : Bool)
  /-- R112: FNEG. Inverts the sign of a non-NaN FP32 value. -/
  | fneg (d : Reg) (a : Reg) (t : Bool)
  /-- R112: FABS. Clears the sign of a non-NaN FP32 value. -/
  | fabs (d : Reg) (a : Reg) (t : Bool)
  /-- R113: FCLASS. Writes a one-hot class mask of an FP32 value. -/
  | fclass (d : Reg) (a : Reg) (t : Bool)
  /-- R114: FCMP_EQ. Writes 1 when a equals b as FP32. -/
  | fcmpEq (d : Reg) (a : Reg) (b : Reg) (t : Bool) (u : Bool)
  /-- R114: FCMP_LT. Writes 1 when a < b as FP32. -/
  | fcmpLt (d : Reg) (a : Reg) (b : Reg) (t : Bool) (u : Bool)
  /-- R114: FCMP_LE. Writes 1 when a ≤ b as FP32. -/
  | fcmpLe (d : Reg) (a : Reg) (b : Reg) (t : Bool) (u : Bool)
  /-- R115: FCVT_F32_I64. Converts INT64 to FP32. -/
  | fcvtF32I64 (d : Reg) (a : Reg) (t : Bool)
  /-- R115: FCVT_I64_F32. Converts FP32 to INT64 under fmode. -/
  | fcvtI64F32 (d : Reg) (a : Reg) (t : Bool)
  /-- R115: FCVT_F32_F16. Widens FP16 to FP32 exactly. -/
  | fcvtF32F16 (d : Reg) (a : Reg) (t : Bool)
  /-- R115: FCVT_F16_F32. Narrows FP32 to FP16. -/
  | fcvtF16F32 (d : Reg) (a : Reg) (t : Bool)
  /-- R115: FCVT_F32_BF16. Widens BF16 to FP32 exactly. -/
  | fcvtF32Bf16 (d : Reg) (a : Reg) (t : Bool)
  /-- R115: FCVT_BF16_F32. Narrows FP32 to BF16. -/
  | fcvtBf16F32 (d : Reg) (a : Reg) (t : Bool)
  /-- R115: FCVT_F32_TF8. Widens TF8 to FP32. -/
  | fcvtF32Tf8 (d : Reg) (a : Reg) (t : Bool)
  /-- R115: FCVT_TF8_F32. Narrows FP32 to TF8 with RNE. -/
  | fcvtTf8F32 (d : Reg) (a : Reg) (t : Bool)
  /-- R137: SEND. Sends a message to an endpoint, making d empty-pending until the status returns. -/
  | send (d : Reg) (a : Reg) (b : Reg) (t : Bool) (u : Bool)
  /-- R138: SPAWN. Sends a task packet to the home vault core of a data address. -/
  | spawn (d : Reg) (a : Reg) (b : Reg) (t : Bool) (u : Bool)
  /-- R139: FILL. Sends a value to fill a register of a named thread. -/
  | fill (d : Reg) (a : Reg) (b : Reg) (t : Bool) (u : Bool)
  /-- R140: TRIG. Applies a decrement to a local counter without a message. -/
  | trig (a : Reg) (b : Reg) (t : Bool) (u : Bool)
  /-- R126: CTR_SET. Loads a trigger counter from a descriptor once its started activations have ended. -/
  | ctrSet (a : Reg) (b : Reg) (t : Bool) (u : Bool)
  /-- R127: CTR_RD. Reads a counter's state. -/
  | ctrRd (d : Reg) (a : Reg) (t : Bool)
  /-- R128: CTR_MASK. Sets a counter's mask bit. -/
  | ctrMask (a : Reg) (t : Bool)
  /-- R128: CTR_UNMASK. Clears a counter's mask bit. -/
  | ctrUnmask (a : Reg) (t : Bool)
  /-- R121: SELF. Writes the thread's position in its cluster. -/
  | selfId (d : Reg)
  /-- R122: LIVE. Replaces one 18-bit segment of the live mask. -/
  | live (k : Fin 4) (m : BitVec 18)
  /-- R151: GJOIN. Joins a group and returns a status. -/
  | gjoin (d : Reg) (a : Reg) (t : Bool)
  /-- R151: GLEAVE. Leaves a group and returns a status. -/
  | gleave (d : Reg) (a : Reg) (t : Bool)
  /-- R153: GBAR. Arrives in the group's current generation and parks until it is released. -/
  | gbar (a : Reg) (t : Bool)
  /-- R153: GARR. Arrives in a generation and returns its number without waiting. -/
  | garr (d : Reg) (a : Reg) (t : Bool)
  /-- R153: GWAIT. Parks until a given generation is released. -/
  | gwait (a : Reg) (b : Reg) (t : Bool) (u : Bool)
  /-- R154: GSIZE. Returns the group's member count. -/
  | gsize (d : Reg) (a : Reg) (t : Bool)
  /-- R154: GRANK. Returns the rank of the thread or of its cube. -/
  | grank (d : Reg) (a : Reg) (t : Bool)
  /-- R156: GSTG. Reads the group's straggler record. -/
  | gstg (d : Reg) (a : Reg) (b : Reg) (t : Bool) (u : Bool)
  /-- R87: FE_CLR. Makes a register empty-idle, keeping its value. -/
  | feClr (d : Reg)
  /-- R87: FE_SET. Makes an empty-idle register full with its kept value. -/
  | feSet (d : Reg)
  /-- R88: FE_TEST. Reports a register's full/empty state and poison mark. -/
  | feTest (d : Reg) (a : Reg)
  /-- R163: PQ_PUT. Places a parcel at the tail of the tile's queue. -/
  | pqPut (a : Reg) (b : Reg) (t : Bool) (u : Bool)
  /-- R164: PQ_TAKE. Takes the oldest QUEUED parcel that the tile meets, parks, or returns zeros. -/
  | pqTake (d : Reg)
  /-- R165: PQ_DONE. Completes a TAKEN parcel. -/
  | pqDone (a : Reg) (t : Bool)
  /-- R166: PQ_CNT. Returns the counts of the tile's queue. -/
  | pqCnt (d : Reg)
  /-- R463: PQ_STEAL. Asks a flagged cube for stealable parcels. -/
  | pqSteal (d : Reg) (a : Reg)
  /-- R237: FENCE_ACQ. Acquire fence at a scope. -/
  | fenceAcq (sx : Fin 4)
  /-- R237: FENCE_REL. Release fence at a scope. -/
  | fenceRel (sx : Fin 4)
  /-- R237: FENCE_AR. Acquire and release fence at a scope. -/
  | fenceAr (sx : Fin 4)
  /-- R235: DRAIN. Waits until the context's combining-buffer lines are written out and performed at a scope. -/
  | drain (sx : Fin 4)
  /-- R275: SEM_SIG. Adds n to a tile semaphore and serves its waiting order. -/
  | semSig (a : Reg) (t : Bool) (k : Fin 16)
  /-- R276: SEM_WAIT. Joins a semaphore's waiting order and parks until it can subtract n. -/
  | semWait (a : Reg) (t : Bool) (k : Fin 16)
  /-- R270: TL_RD. Reads a timeline's issued-value or done-value. -/
  | tlRd (d : Reg) (e : Bool) (k : Fin 4)
  /-- R271: TL_WAIT. Parks until a timeline's done-value reaches n. -/
  | tlWait (a : Reg) (t : Bool) (k : Fin 4)
  /-- R272: TL_WAIT_REL. Parks until at most m commands on the timeline are open. -/
  | tlWaitRel (a : Reg) (t : Bool) (k : Fin 4)
  /-- R239: AMO_ADD. Atomic add. -/
  | amoAdd (d : Reg) (a : Reg) (r : Fin 4) (c : Fin 4) (w : Fin 4) (t : Bool)
  /-- R239: AMO_AND. Atomic AND. -/
  | amoAnd (d : Reg) (a : Reg) (r : Fin 4) (c : Fin 4) (w : Fin 4) (t : Bool)
  /-- R239: AMO_OR. Atomic OR. -/
  | amoOr (d : Reg) (a : Reg) (r : Fin 4) (c : Fin 4) (w : Fin 4) (t : Bool)
  /-- R239: AMO_XOR. Atomic XOR. -/
  | amoXor (d : Reg) (a : Reg) (r : Fin 4) (c : Fin 4) (w : Fin 4) (t : Bool)
  /-- R239: AMO_MIN. Atomic signed minimum. -/
  | amoMin (d : Reg) (a : Reg) (r : Fin 4) (c : Fin 4) (w : Fin 4) (t : Bool)
  /-- R239: AMO_MAX. Atomic signed maximum. -/
  | amoMax (d : Reg) (a : Reg) (r : Fin 4) (c : Fin 4) (w : Fin 4) (t : Bool)
  /-- R239: AMO_MINU. Atomic unsigned minimum. -/
  | amoMinu (d : Reg) (a : Reg) (r : Fin 4) (c : Fin 4) (w : Fin 4) (t : Bool)
  /-- R239: AMO_MAXU. Atomic unsigned maximum. -/
  | amoMaxu (d : Reg) (a : Reg) (r : Fin 4) (c : Fin 4) (w : Fin 4) (t : Bool)
  /-- R239: AMO_SWAP. Atomic swap. -/
  | amoSwap (d : Reg) (a : Reg) (r : Fin 4) (c : Fin 4) (w : Fin 4) (t : Bool)
  /-- R239: AMO_CAS. Atomic compare-and-swap on consecutive registers. -/
  | amoCas (d : Reg) (a : Reg) (r : Fin 4) (c : Fin 4) (w : Fin 4) (t : Bool)
  /-- R239: AMO_FADD. Atomic FP32 add with RNE. -/
  | amoFadd (d : Reg) (a : Reg) (r : Fin 4) (c : Fin 4) (t : Bool)
  /-- R242: CWB. Writes back a line's dirty sectors. -/
  | cwb (a : Reg) (t : Bool)
  /-- R242: CINV. Invalidates a line of the tile cache. -/
  | cinv (a : Reg) (t : Bool)
  /-- R243: CINV_I. Invalidates a line in the instruction caches. -/
  | cinvI (a : Reg) (t : Bool)
  /-- R242: CFLUSH. Writes back and then invalidates a line. -/
  | cflush (a : Reg) (t : Bool)
  /-- R213: RESIZE. Holds the tile store and repartitions its ways between cache and scratch. -/
  | resize (n : Fin 16)
  /-- R190: VADD_INT. Vector integer add, wrapping. -/
  | vaddInt (v : VReg) (a : VReg) (b : VReg) (y : VTy) (p : PReg)
  /-- R190: VSUB_INT. Vector integer subtract. -/
  | vsubInt (v : VReg) (a : VReg) (b : VReg) (y : VTy) (p : PReg)
  /-- R190: VMUL_INT. Vector integer multiply, low bits. -/
  | vmulInt (v : VReg) (a : VReg) (b : VReg) (y : VTy) (p : PReg)
  /-- R190: VMIN_INT. Vector integer minimum. -/
  | vminInt (v : VReg) (a : VReg) (b : VReg) (y : VTy) (p : PReg)
  /-- R190: VMAX_INT. Vector integer maximum. -/
  | vmaxInt (v : VReg) (a : VReg) (b : VReg) (y : VTy) (p : PReg)
  /-- R190: VABS_INT. Vector integer absolute value. -/
  | vabsInt (v : VReg) (a : VReg) (y : VTy) (p : PReg)
  /-- R190: VNEG_INT. Vector integer negation. -/
  | vnegInt (v : VReg) (a : VReg) (y : VTy) (p : PReg)
  /-- R190: VDOT. Accumulates INT8 four-way dot products into INT32 lanes. -/
  | vdot (v : VReg) (a : VReg) (b : VReg) (p : PReg)
  /-- R191: VADD_FP. Vector floating-point add. -/
  | vaddFp (v : VReg) (a : VReg) (b : VReg) (y : VTy) (p : PReg)
  /-- R191: VSUB_FP. Vector floating-point subtract. -/
  | vsubFp (v : VReg) (a : VReg) (b : VReg) (y : VTy) (p : PReg)
  /-- R191: VMUL_FP. Vector floating-point multiply. -/
  | vmulFp (v : VReg) (a : VReg) (b : VReg) (y : VTy) (p : PReg)
  /-- R191: VFMA. Vector fused a × b + vd. -/
  | vfma (v : VReg) (a : VReg) (b : VReg) (y : VTy) (p : PReg)
  /-- R191: VFMS. Vector fused a × b − vd. -/
  | vfms (v : VReg) (a : VReg) (b : VReg) (y : VTy) (p : PReg)
  /-- R191: VFNMA. Vector fused −(a × b) + vd. -/
  | vfnma (v : VReg) (a : VReg) (b : VReg) (y : VTy) (p : PReg)
  /-- R191: VDIV. Vector floating-point divide. -/
  | vdiv (v : VReg) (a : VReg) (b : VReg) (y : VTy) (p : PReg)
  /-- R191: VSQRT. Vector floating-point square root. -/
  | vsqrt (v : VReg) (a : VReg) (y : VTy) (p : PReg)
  /-- R191: VMIN_FP. Vector floating-point minimum. -/
  | vminFp (v : VReg) (a : VReg) (b : VReg) (y : VTy) (p : PReg)
  /-- R191: VMAX_FP. Vector floating-point maximum. -/
  | vmaxFp (v : VReg) (a : VReg) (b : VReg) (y : VTy) (p : PReg)
  /-- R191: VABS_FP. Vector floating-point absolute value. -/
  | vabsFp (v : VReg) (a : VReg) (y : VTy) (p : PReg)
  /-- R191: VNEG_FP. Vector floating-point negation. -/
  | vnegFp (v : VReg) (a : VReg) (y : VTy) (p : PReg)
  /-- R191: VCLASS. Vector floating-point classification. -/
  | vclass (v : VReg) (a : VReg) (y : VTy) (p : PReg)
  /-- R192: VAND. Vector AND. -/
  | vand (v : VReg) (a : VReg) (b : VReg) (y : VTy) (p : PReg)
  /-- R192: VOR. Vector OR. -/
  | vor (v : VReg) (a : VReg) (b : VReg) (y : VTy) (p : PReg)
  /-- R192: VXOR. Vector XOR. -/
  | vxor (v : VReg) (a : VReg) (b : VReg) (y : VTy) (p : PReg)
  /-- R192: VANDN. Vector AND NOT. -/
  | vandn (v : VReg) (a : VReg) (b : VReg) (y : VTy) (p : PReg)
  /-- R192: VSHL. Vector shift left. -/
  | vshl (v : VReg) (a : VReg) (b : VReg) (y : VTy) (p : PReg)
  /-- R192: VSHR. Vector logical shift right. -/
  | vshr (v : VReg) (a : VReg) (b : VReg) (y : VTy) (p : PReg)
  /-- R192: VSRA. Vector arithmetic shift right. -/
  | vsra (v : VReg) (a : VReg) (b : VReg) (y : VTy) (p : PReg)
  /-- R193: VCMP_EQ. Writes a predicate of lanewise equality. -/
  | vcmpEq (q : PReg) (a : VReg) (b : VReg) (y : VTy) (p : PReg)
  /-- R193: VCMP_NE. Writes a predicate of lanewise inequality. -/
  | vcmpNe (q : PReg) (a : VReg) (b : VReg) (y : VTy) (p : PReg)
  /-- R193: VCMP_LT. Writes a predicate of lanewise less-than. -/
  | vcmpLt (q : PReg) (a : VReg) (b : VReg) (y : VTy) (p : PReg)
  /-- R193: VCMP_LE. Writes a predicate of lanewise less-or-equal. -/
  | vcmpLe (q : PReg) (a : VReg) (b : VReg) (y : VTy) (p : PReg)
  /-- R193: VCMP_GT. Writes a predicate of lanewise greater-than. -/
  | vcmpGt (q : PReg) (a : VReg) (b : VReg) (y : VTy) (p : PReg)
  /-- R193: VCMP_GE. Writes a predicate of lanewise greater-or-equal. -/
  | vcmpGe (q : PReg) (a : VReg) (b : VReg) (y : VTy) (p : PReg)
  /-- R193: VSEL. Selects elements from two vectors by a predicate. -/
  | vsel (v : VReg) (a : VReg) (b : VReg) (y : VTy) (p : PReg)
  /-- R194: VPERM. Permutes elements by indices. -/
  | vperm (v : VReg) (a : VReg) (b : VReg) (y : VTy) (p : PReg)
  /-- R194: VSLIDE. Slides elements by an amount. -/
  | vslide (v : VReg) (a : VReg) (b : VReg) (y : VTy) (p : PReg)
  /-- R194: VZIP. Interleaves the lower halves of two vectors. -/
  | vzip (v : VReg) (a : VReg) (b : VReg) (y : VTy) (p : PReg)
  /-- R194: VUNZIP. Gathers the even elements of two vectors. -/
  | vunzip (v : VReg) (a : VReg) (b : VReg) (y : VTy) (p : PReg)
  /-- R195: VREDSUM. Sums a vector along a fixed tree into a scalar register. -/
  | vredsum (d : SReg) (a : VReg) (y : VTy) (p : PReg)
  /-- R195: VREDMAX. Reduces a vector by maximum into a scalar register. -/
  | vredmax (d : SReg) (a : VReg) (y : VTy) (p : PReg)
  /-- R195: VREDMIN. Reduces a vector by minimum into a scalar register. -/
  | vredmin (d : SReg) (a : VReg) (y : VTy) (p : PReg)
  /-- R196: VCVT. Converts vector elements between types. -/
  | vcvt (v : VReg) (a : VReg) (y : VTy) (p : PReg) (sx : VTy)
  /-- R197: PAND. Predicate AND. -/
  | pand (q : PReg) (r : PReg) (sx : PReg) (y : VTy) (p : PReg)
  /-- R197: POR. Predicate OR. -/
  | por (q : PReg) (r : PReg) (sx : PReg) (y : VTy) (p : PReg)
  /-- R197: PXOR. Predicate XOR. -/
  | pxor (q : PReg) (r : PReg) (sx : PReg) (y : VTy) (p : PReg)
  /-- R197: PNOT. Predicate NOT. -/
  | pnot (q : PReg) (r : PReg) (y : VTy) (p : PReg)
  /-- R197: PCNT. Counts the active set bits of a predicate into a scalar. -/
  | pcnt (d : SReg) (r : PReg) (y : VTy) (p : PReg)
  /-- R197: PFIRST. Finds the lowest active set bit of a predicate. -/
  | pfirst (d : SReg) (r : PReg) (y : VTy) (p : PReg)
  /-- R197: PSET. Sets every active predicate bit. -/
  | pset (q : PReg) (y : VTy) (p : PReg)
  /-- R231: VLDP. Loads 128 bytes into the partner E-core's vector register. -/
  | vldp (v : VReg) (a : Reg) (t : Bool) (o : BitVec 10)
  /-- R231: VSTP. Stores the partner's vector register. -/
  | vstp (v : VReg) (a : Reg) (t : Bool) (o : BitVec 10)
  /-- R231: VSTP_NT. Stores the partner's vector register through the combining buffer. -/
  | vstpNt (v : VReg) (a : Reg) (t : Bool) (o : BitVec 10)
  /-- R232: VLDPX. Indexed gather into the partner's vector register. -/
  | vldpx (v : VReg) (a : Reg) (t : Bool) (x : VReg) (e : Fin 4)
  /-- R232: VSTPX. Indexed scatter from the partner's vector register. -/
  | vstpx (v : VReg) (a : Reg) (t : Bool) (x : VReg) (e : Fin 4)
  /-- R198: VBCAST. Broadcasts a scalar into the active elements. -/
  | vbcast (v : VReg) (sx : SReg) (y : VTy) (p : PReg)
  /-- R198: VEXT. Extracts one element into a scalar register. -/
  | vext (d : SReg) (a : VReg) (sx : SReg) (y : VTy)
  /-- R198: VINS. Inserts a scalar into one element. -/
  | vins (v : VReg) (sx : SReg) (i : SReg) (y : VTy) (p : PReg)
  /-- R296: MSHAPE. Reads the array's shape, owner and sticky status. -/
  | mshape (d : Reg)
  /-- R319: MMAP_RD. Reads a fault-map entry, a defect entry or the summary. -/
  | mmapRd (d : Reg) (a : Reg) (t : Bool)
  /-- R337: CIST. Copies an argument block and queues a cistern invocation. -/
  | cist (d : Reg) (a : Reg) (b : Reg) (t : Bool) (u : Bool)
  /-- R350: CERR_RD. Reads, and optionally clears, a bank's BERR. -/
  | cerrRd (d : Reg) (a : Reg) (t : Bool)
  /-- R353: CIST_LD. Loads micro-words or entry-table elements into every cistern of the vault. -/
  | cistLd (a : Reg) (b : Reg) (t : Bool) (u : Bool)
  /-- R89: SYS. Traps SYS into the supervisor with a code. -/
  | sys (c : Fin 1024)
  /-- R89: BRK. Traps BRK into the supervisor with a code. -/
  | brk (c : Fin 1024)
  /-- R90: RDSR. Reads a special register. -/
  | rdsr (d : Reg) (n : Fin 1024)
  /-- R91: WRSR. Writes a special register after its number and value checks. -/
  | wrsr (a : Reg) (t : Bool) (n : Fin 1024)
  /-- R367: TLB_INV. Removes translations of the tenant across the cube. -/
  | tlbInv (a : Reg) (t : Bool)
  /-- R379: CTX_KILL. Terminates a named thread. -/
  | ctxKill (d : Reg) (a : Reg) (t : Bool)
  /-- R386: SIG. Compares the signature checker with a check value and resets it. -/
  | sig (i : BitVec 16)
  /-- R397: CKPT. Arrives in a cut generation of a group to take a checkpoint. -/
  | ckpt (d : Reg) (a : Reg)
  /-- R283: CP_PUSH. Pushes a copy command to the push engine. -/
  | cpPush (c : CmdWord)
  /-- R284: CP_PUSH_ADD. Pushes a copy that combines FP32 additions at the destination. -/
  | cpPushAdd (c : CmdWord)
  /-- R286: CP_FILL. Pushes a pattern-fill command. -/
  | cpFill (c : CmdWord)
  /-- R289: CP_X24. Pushes an expansion of 2:4 sparse data to dense. -/
  | cpX24 (c : CmdWord)
  /-- R288: CP_C24. Pushes a compaction of dense data to 2:4 sparse form. -/
  | cpC24 (c : CmdWord)
  /-- R309: MMA. Pushes a block-scaled bit-plane matrix multiply-accumulate. -/
  | mma (c : CmdWord)
  /-- R312: MMB. Pushes a binary popcount matrix accumulation. -/
  | mmb (c : CmdWord)
  /-- R313: MZERO. Pushes a clear of an accumulator bank. -/
  | mzero (c : CmdWord)
  /-- R314: MLD. Pushes a load of accumulator elements from scratch. -/
  | mld (c : CmdWord)
  /-- R315: MST. Pushes a converting store of accumulator elements to scratch. -/
  | mst (c : CmdWord)
  /-- R439: COL_RED. Pushes an in-network reduction across a multi-cube group. -/
  | colRed (c : CmdWord)
  /-- R440: COL_RS. Pushes an in-network reduce-scatter. -/
  | colRs (c : CmdWord)
  /-- R441: COL_MC. Pushes a multicast from the root rank. -/
  | colMc (c : CmdWord)
  /-- R324: MTEST. Pushes a self-test of all physical cells. -/
  | mtest (c : CmdWord)
  /-- R326: MREMAP. Pushes the application of the candidate fault map. -/
  | mremap (c : CmdWord)
  /-- R119: END. Ends the thread after its producers and timelines drain, and frees its context. -/
  | endThread
  /-- R120: YIELD. Moves the context to the tail of its round-robin order. -/
  | yield
  /-- R188: CPSYNC. Parks until all of the context's coprocessor dispatches have completed. -/
  | cpsync
  /-- R229: HOME. Returns a moth to its home core. -/
  | home
  /-- R294: MOWN. Takes ownership of the tile's matrix array, or parks. -/
  | mown
  /-- R295: MFREE. Releases the matrix array after the context's matrix commands complete. -/
  | mfree
  /-- R362: RTE. Returns from a trap, or ends a steward event. -/
  | rte
  /-- R357: CHAIN_WRITE. A write to chain configures a context's up/dn links and discards the queue contents. -/
  | chainWrite
  /-- R410: ERROR_INJECTION. A write to einj with go = 1 inverts two data bits of a DRAM half, leaving its old check bits. -/
  | errorInjection
  /-- R9: PRODUCER_COMPLETION. A long-latency producer (remote load, atomic, status, group result, cistern result) completes into its register and wakes parked contexts. -/
  | producerCompletion
  /-- R129: MESSAGE_ARRIVAL. A message, spawn or decrement reaches a counter and is stored, counted or refused. -/
  | messageArrival
  /-- R131: ACTIVATION_START. The core starts a pending activation in a free user context. -/
  | activationStart
  /-- R144: SPILL. The core spills an eligible parked thread to a slot for a waiting activation. -/
  | spill
  /-- R147: RELOAD. A ready spilled thread is reloaded into a free context. -/
  | reload
  /-- R139: FILL_ARRIVAL. A fill reaches the named thread's register. -/
  | fillArrival
  /-- R134: DIRECTORY_LOOKUP. The authoritative directory resolves an endpoint after a cache miss. -/
  | directoryLookup
  /-- R135: STUB_FORWARD. A forwarding stub forwards a packet and sends a moved notice. -/
  | stubForward
  /-- R135: MOVED_NOTICE. A source core replaces its directory-cache entry for a moved name. -/
  | movedNotice
  /-- R135: STUB_EXPIRY. A forwarding stub is freed 100 µs after it was taken. -/
  | stubExpiry
  /-- R168: DIFFUSION_PERIOD. Every 256 cycles, paired tiles of a cluster exchange parcels. -/
  | diffusionPeriod
  /-- R162: PARCEL_ARRIVAL. A MOVING parcel arrives and is appended QUEUED to the receiving queue. -/
  | parcelArrival
  /-- R169: LAUNCH_MESSAGE. A message to the tenant's launch endpoint delivers an LPB for validation. -/
  | launchMessage
  /-- R171: PREREQUISITES_MET. A waiting launch's prerequisites complete, sending it to PLACING, COMPLETING or FAILED. -/
  | prerequisitesMet
  /-- R159: ADMISSION_SCAN. An admission engine scans candidate origins and reserves tiles. -/
  | admissionScan
  /-- R159: RESERVATION_BACKOFF_EXPIRY. After a conflict's back-off ends, the engine tries the next candidate. -/
  | reservationBackoffExpiry
  /-- R160: HEAD_OF_LINE. A launch waiting 1 ms for placement takes the head-of-line guard. -/
  | headOfLine
  /-- R172: CLUSTER_COMMIT. Once all tiles are reserved and scrubbed, the cluster commits and the launch's threads and parcels are created. -/
  | clusterCommit
  /-- R173: BACKLOG_FEED. The launch unit feeds a backlog parcel to a tile with a FREE slot. -/
  | backlogFeed
  /-- R175: LAUNCH_COMPLETION. A finished launch performs its release, signals dependants, writes its record and releases its cluster. -/
  | launchCompletion
  /-- R182: VECTOR_START. The vector unit starts a queued vector instruction whose writers have completed. -/
  | vectorStart
  /-- R183: VECTOR_COMPLETION. A vector instruction completes, writes its results and ORs its flags. -/
  | vectorCompletion
  /-- R202: REP_PASS. The repetition buffer hands on one pass of a body instruction. -/
  | repPass
  /-- R363: LATE_FAULT_DELIVERY. The oldest pending late fault is delivered at an instruction boundary. -/
  | lateFaultDelivery
  /-- R224: PAGE_WALK. A page walker completes a walk and installs or faults the result. -/
  | pageWalk
  /-- R226: RELOCATION_ARRIVAL. A relocation packet reaches a vault core's inbox, which accepts or refuses it. -/
  | relocationArrival
  /-- R227: RELOCATION_REFUSAL. The home context receives a refusal and performs the access locally. -/
  | relocationRefusal
  /-- R226: MOTH_LOAD. An inbox thread is loaded into a granted vault-core context and performs its access. -/
  | mothLoad
  /-- R228: MOTH_RETURN. A returning moth is loaded into its held home context, which acquires and executes. -/
  | mothReturn
  /-- R234: COMBINING_WRITE_OUT. A combining-buffer line is written out after 4,096 cycles without a write. -/
  | combiningWriteOut
  /-- R394: WRITE_PLACEMENT. A write is placed at its home vault, with journaling and guard holding. -/
  | writePlacement
  /-- R260: GUARD_WAIT_TIMEOUT. A writer that waits 1 ms on a held line traps, faults or is refused. -/
  | guardWaitTimeout
  /-- R402: JOURNAL_STALL_TIMEOUT. A 1 ms record stall aborts the largest draining checkpoint interval. -/
  | journalStallTimeout
  /-- R290: PUSH_START. The push engine starts a command and makes its start checks. -/
  | pushStart
  /-- R269: PUSH_COMPLETION. A push command completes, signals, and advances its timeline. -/
  | pushCompletion
  /-- R306: MATRIX_COMMAND_START. The matrix engine starts the head command once its wait and start conditions hold. -/
  | matrixCommandStart
  /-- R306: MATRIX_COMMAND_COMPLETION. A matrix command completes in queue order and signals. -/
  | matrixCommandCompletion
  /-- R323: HEALTH_COMMAND_START. A health command starts once earlier matrix commands in push order have completed. -/
  | healthCommandStart
  /-- R324: MTEST_COMPLETION. mtest writes the defect list and the candidate map. -/
  | mtestCompletion
  /-- R326: MREMAP_COMPLETION. mremap copies the accumulators and applies the candidate map. -/
  | mremapCompletion
  /-- R342: CISTERN_INVOCATION_START. A queued invocation starts once its cisterns are idle, and is checked. -/
  | cisternInvocationStart
  /-- R343: CISTERN_INVOCATION_COMPLETION. An invocation ends, delivering d and freeing or keeping its ring entry. -/
  | cisternInvocationCompletion
  /-- R405: SEQ_RESET. A cistern sequencer idle for 1 ms is reset and its invocations end WATCHDOG. -/
  | seqReset
  /-- R406: VAULT_RESET. A DRAM scheduler idle for 100 µs resets the vault controller. -/
  | vaultReset
  /-- R406: MESH_REQUEST_RESEND. A sender resends a mesh request unacknowledged after 25 µs. -/
  | meshRequestResend
  /-- R389: CONTAINMENT. A consumed uncorrectable error fences, stops, kills and releases a cluster rectangle. -/
  | containment
  /-- R398: CHECKPOINT_CUT. The vaults make cut k once the cut generation's conditions hold, and the members are released. -/
  | checkpointCut
  /-- R400: CHECKPOINT_DRAIN. A vault's drain of checkpoint k finishes, and the manifest is written. -/
  | checkpointDrain
  /-- R404: RESTORE. Firmware restores checkpoint k from manifests and chunks. -/
  | restore
  /-- R381: TILE_SCRUB. Firmware scrubs a tile and sets its scrubbed flag. -/
  | tileScrub
  /-- R368: STEWARD_EVENT. An idle steward takes the head event and enters the firmware or tenant handler. -/
  | stewardEvent
  /-- R369: MESSAGE. A steward command delivered to the tenant handler as SUPERVISOR-MESSAGE. -/
  | message
  /-- R372: PREEMPT. Firmware stops, drains and saves a victim thread and frees its context. -/
  | preempt
  /-- R372: PREEMPT_GIVE_UP. After 100 µs without a free frame pair, the pre-emption gives up with result 1. -/
  | preemptGiveUp
  /-- R377: RESUME. Makes a held thread ready on a target core and reloads it. -/
  | resume
  /-- R369: TIMER. Sets or cancels the tenant's compare time on the core. -/
  | timer
  /-- R370: TIMER_EXPIRY. time reaches the compare and a TIMER event is raised. -/
  | timerExpiry
  /-- R369: WATCHDOG. Sets or disables the tenant's issue watchdog limit. -/
  | watchdog
  /-- R370: WATCHDOG_EXPIRY. A user context that has not issued for the limit raises WATCHDOG. -/
  | watchdogExpiry
  /-- R369: GROUP_CREATE. Creates a group, single- or multi-cube, for the tenant. -/
  | groupCreate
  /-- R369: GROUP_DISSOLVE. Dissolves a group and readies its parked members. -/
  | groupDissolve
  /-- R369: COUNTER_CLAIM. Grants an ungranted counter to the tenant. -/
  | counterClaim
  /-- R369: COUNTER_RELEASE. Masks, empties and ungrants a counter. -/
  | counterRelease
  /-- R369: PARCEL_DROP. Removes a launch's starved parcels and ends it FAULTED. -/
  | parcelDrop
  /-- R375: VECTOR_STATE_SAVE. A pre-empted victim's vector bank is lazily written to its record and cleared. -/
  | vectorStateSave
  /-- R432: GROUP_LIVE. A multi-cube group goes live when all members match, and replies are sent. -/
  | groupLive
  /-- R432: GROUP_CREATE_TIMEOUT. A multi-cube group not live within 10 ms is discarded. -/
  | groupCreateTimeout
  /-- R434: CUBE_ARRIVAL. A cube's arrival travels up the group tree and combines at nodes. -/
  | cubeArrival
  /-- R434: CUBE_RELEASE. A release travels down the tree, writes the straggler instance and releases the local members. -/
  | cubeRelease
  /-- R438: COLLECTIVE_NODE. A tree node combines its children's segments and forwards the result. -/
  | collectiveNode
  /-- R439: COLLECTIVE_COMPLETION. A member's collective command completes and writes its record. -/
  | collectiveCompletion
  /-- R443: COLLECTIVE_TIMEOUT. A collective instance not complete 10 ms after its start faults TIMEOUT. -/
  | collectiveTimeout
  /-- R427: REMOTE_REQUEST. A request routed by the map is served at its home or answered MOVED. -/
  | remoteRequest
  /-- R427: MOVED. A MOVED answer makes the sender's interface resend to the home given. -/
  | moved
  /-- R419: RETRANSMISSION. An unacknowledged packet is retransmitted when its timer expires. -/
  | retransmission
  /-- R419: TRIMMED_PACKET. A receiver answers a trimmed packet with a negative acknowledgement, and the sender resends. -/
  | trimmedPacket
  /-- R419: PEER_UNREACHABLE. A PDC without acknowledgement progress for 2 ms declares its peer unreachable. -/
  | peerUnreachable
  /-- R423: PEER_LOST. A cube learns that a peer is lost and fails the traffic to it. -/
  | peerLost
  /-- R418: PDC_FREE. A PDC is freed after 1 ms without unacknowledged packets. -/
  | pdcFree
  /-- R415: LINK_TRAINING_TIMEOUT. A port whose peer does not train within 100 ms stays down. -/
  | linkTrainingTimeout
  /-- R416: LINK_DOWN. After 16 failed replays in a row, a link is declared down and traffic reroutes. -/
  | linkDown
  /-- R431: TIME_EXCHANGE. Every 1 ms, ports exchange timestamped time packets and clocks are disciplined. -/
  | timeExchange
  /-- R428: MAP_WRITE. The management host requests a stripe-map change, and firmware distributes the next descriptor. -/
  | mapWrite
  /-- R428: MAP_PREPARED. All cubes have installed the next descriptor, and the region enters MOVING. -/
  | mapPrepared
  /-- R429: STRIPE_SWITCH. A stripe is frozen, copied to its new home and switched. -/
  | stripeSwitch
  /-- R428: MAP_COMMIT. The region commits the next descriptor and G advances. -/
  | mapCommit
  /-- R428: CUBE_REMOVAL. 100 µs after the last commit, routing stops using a draining cube. -/
  | cubeRemoval
  /-- R447: APERTURE_READ. A host CXL.mem read through the aperture, translated by the tenant's tables. -/
  | apertureRead
  /-- R447: APERTURE_WRITE. A host CXL.mem write through the aperture. -/
  | apertureWrite
  /-- R446: UNBACKED_ACCESS. A host access to the unbacked range returns poison or is discarded, and HERR rises. -/
  | unbackedAccess
  /-- R450: LAUNCH_WINDOW_WRITE. A full-line write to a launch window slot is accepted or refused as a task packet. -/
  | launchWindowWrite
  /-- R453: CONTROL_REGISTER_WRITE. A host write to a control-page register with no behaviour of its own. -/
  | controlRegisterWrite
  /-- R452: WREFMAP. Writing 1s clears refused-slot bits. -/
  | wrefmap
  /-- R452: EVCAUSE. Writing 1s clears event-cause bits. -/
  | evcause
  /-- R458: CANCEL. A write with go = 1 starts a domain-wide cancellation of a job. -/
  | cancel
  /-- R452: RSTCTL. A write with go = 1 starts the restore of this cube's share. -/
  | rstctl
  /-- R459: CANCEL_PACKET. A cube sets its cancel filter and kills the job's threads, launches, commands and parcels. -/
  | cancelPacket
  /-- R458: CANCEL_ACK. The coordinator counts an acknowledgement, and at zero completes the cancellation. -/
  | cancelAck
  /-- R460: CANCEL_DONE. A cube receives the notice that a cancellation is done. -/
  | cancelDone
  /-- R460: FILTER_ENTRY_EXPIRY. A cancel-filter entry is freed once its hold conditions are met. -/
  | filterEntryExpiry
  /-- R464: STEAL_REQUEST. A victim answers a steal request and lends parcels. -/
  | stealRequest
  /-- R463: STEAL_ANSWER. The thief places borrowed parcels and writes the status. -/
  | stealAnswer
  /-- R466: DONE_REPORT. The owner completes a lent parcel when a DONE report matches the current lend. -/
  | doneReport
  /-- R466: RETURN_REPORT. The owner requeues a lent parcel when a RETURN report matches the current lend. -/
  | returnReport
  /-- R465: LEASE_EXPIRY. At the owner, an expired LENT parcel returns to QUEUED. -/
  | leaseExpiry
  /-- R465: BORROWED_EXPIRY. At the thief, an expired QUEUED borrowed parcel is dropped. -/
  | borrowedExpiry
  /-- R456: TENANT_CREATE. Creates a tenant on this cube. -/
  | tenantCreate
  /-- R382: TENANT_RESET. Resets a tenant on the cube. -/
  | tenantReset
  /-- R456: TENANT_DESTROY. Resets and removes a tenant and scrubs its tiles. -/
  | tenantDestroy
  /-- R482: TRANSFER_FW. Transfers a firmware image over the host port. -/
  | transferFw
  /-- R482: ACTIVATE_FW. Warm-resets to boot from the transferred image. -/
  | activateFw
  /-- R484: ATTEST. Returns a signed attestation report for a nonce. -/
  | attest
  /-- R485: GET_ID. Returns the identification registers. -/
  | getId
  /-- R485: GET_STATUS. Returns state, package power and temperature. -/
  | getStatus
  /-- R479: SET_POWER_LIMIT. Sets the sustained power limit. -/
  | setPowerLimit
  /-- R485: WRITE_BOARD_RECORD. Stores a board record, effective at the next reset. -/
  | writeBoardRecord
  /-- R482: WARM_RESET. Resets all state except DRAM contents and BERR, and boots. -/
  | warmReset
  /-- R480: POWER_MEASUREMENT. Every 10 µs the limiter measures power and withholds or returns start cycles. -/
  | powerMeasurement
  /-- R482: COLD_RESET. PWRGD rising or RESET_N held low resets all state. -/
  | coldReset
  /-- R478: POWER_DOWN. The rails fall and the cube loses all state. -/
  | powerDown
  /-- R482: BOOT. The boot ROM reads, verifies and starts a firmware image, or halts in RECOVERY. -/
  | boot
  /-- R483: FIRMWARE_BOOT. Firmware loads repair and control stores, scrubs, trains and reports READY. -/
  | firmwareBoot
  /-- R40: ILLEGAL. A fetched word that is no instruction for the executing core, or a command escape with an unassigned class, traps ILLEGAL at decode. -/
  | illegal
  /-- R435: COLLECTIVE_COMMAND_START. The collective engine starts a queued collective command, makes its checks and joins its instance. -/
  | collectiveCommandStart
  /-- R422: REMOTE_WRITE_ACKNOWLEDGEMENT. The home's acknowledgement of a placed remote write reaches the sender, ending domain-scope releases that wait for it. -/
  | remoteWriteAcknowledgement
  /-- R416: LINK_RETRAIN. Firmware retrains a port declared down, and routing uses it again. -/
  | linkRetrain
  /-- R416: LINK_LEVEL_RETRY. A received frame fails its FCS and is replayed by link-level retry, or is dropped on a switch-facing port without retry. -/
  | linkLevelRetry
  /-- R407: MESH_LINK_RETIREMENT. A mesh link that fails 8 CRC resends in a row is retired by firmware, and traffic takes another route. -/
  | meshLinkRetirement
  /-- R417: UUD_PACKET. A received UUD packet is dropped and counted by firmware. -/
  | uudPacket
  deriving DecidableEq, Repr

end Sys2Proof
end

