-- ==== Sys2Proof/WellFormed.lean ====
section
/-! DEFINITION. Which terms of Instr an instruction word can spell: the limits of R39, R48, R50 to R54, R58, R60, R282 and R337 that the field types do not already give. -/

namespace Sys2Proof

/-- The types legal in the integer and logic opcodes (R52). -/
def VTy.isInt (y : VTy) : Bool :=
  match y with
  | .i32 | .i16 | .i8 | .ui8 => true
  | .f32 | .f16 | .bf16 => false

/-- The types legal in the floating-point opcode (R52). -/
def VTy.isFp (y : VTy) : Bool := !y.isInt

/-- The types legal for `vabs` and `vneg` of the integer opcode (R52). -/
def VTy.isSigned (y : VTy) : Bool := y.isInt && y != .ui8

/-- Order, scope and width of an atomic: a scope needs an order, and .q is for `cas` only (R50). -/
def amoOk (r c w : Fin 4) : Bool := (r != 0 || c == 0) && w.val < 2

/-- Order, scope, width and register span of `amo.cas` (R50). -/
def casOk (d : Reg) (r c w : Fin 4) : Bool :=
  (r != 0 || c == 0) && w != 3 && d != 0 && d.val + (if w = 2 then 3 else 1) ≤ 59

/-- The two registers of `pq.take` (R164). -/
def spanOk (d : Reg) : Bool := d != 0 && d.val < 59

/-- A bit field stays inside the register (R43, R71). -/
def fieldOk (l w : Fin 64) : Bool := l.val + w.val < 64

/-- The command flags of `cp.push`, `cp.fill` and the collectives: ord and the completion scope (R282, R437). -/
def flagsOrdScope (f : BitVec 6) : Bool := f.toNat / 2 % 2 == 0 && f.toNat / 16 == 0

/-- The timeline of a push or collective command names a class of the cores that issue it: push or collective (R58, R60). -/
def tlEven (c : CmdWord) : Bool := c.tl.val % 2 == 0

/-- The timeline of a matrix or health command names matrix or health (R58, R60). -/
def tlOdd (c : CmdWord) : Bool := c.tl.val % 2 == 1

/-- The term is one that some word of the spec spells.
An event has no word, and nothing is asked of it. -/
def Instr.wf : Instr → Bool
  | .bfx _ _ _ l w => fieldOk l w
  | .bfi _ _ _ l w => fieldOk l w
  | .loopR _ _ e => 1 ≤ e.val && e.val ≤ 4095
  | .loopi _ e => 1 ≤ e.val
  | .live k m => k != 3 || m.toNat < 32
  | .amoAdd _ _ r c w _ => amoOk r c w
  | .amoAnd _ _ r c w _ => amoOk r c w
  | .amoOr _ _ r c w _ => amoOk r c w
  | .amoXor _ _ r c w _ => amoOk r c w
  | .amoMin _ _ r c w _ => amoOk r c w
  | .amoMax _ _ r c w _ => amoOk r c w
  | .amoMinu _ _ r c w _ => amoOk r c w
  | .amoMaxu _ _ r c w _ => amoOk r c w
  | .amoSwap _ _ r c w _ => amoOk r c w
  | .amoCas d _ r c w _ => casOk d r c w
  | .amoFadd _ _ r c _ => amoOk r c 0
  | .pqTake d => spanOk d
  | .resize n => n.val ≤ 12
  | .vaddInt _ _ _ y _ => y.isInt
  | .vsubInt _ _ _ y _ => y.isInt
  | .vmulInt _ _ _ y _ => y.isInt
  | .vminInt _ _ _ y _ => y.isInt
  | .vmaxInt _ _ _ y _ => y.isInt
  | .vabsInt _ _ y _ => y.isSigned
  | .vnegInt _ _ y _ => y.isSigned
  | .vaddFp _ _ _ y _ => y.isFp
  | .vsubFp _ _ _ y _ => y.isFp
  | .vmulFp _ _ _ y _ => y.isFp
  | .vfma _ _ _ y _ => y.isFp
  | .vfms _ _ _ y _ => y.isFp
  | .vfnma _ _ _ y _ => y.isFp
  | .vdiv _ _ _ y _ => y.isFp
  | .vsqrt _ _ y _ => y.isFp
  | .vminFp _ _ _ y _ => y.isFp
  | .vmaxFp _ _ _ y _ => y.isFp
  | .vabsFp _ _ y _ => y.isFp
  | .vnegFp _ _ y _ => y.isFp
  | .vclass _ _ y _ => y.isFp
  | .vand _ _ _ y _ => y.isInt
  | .vor _ _ _ y _ => y.isInt
  | .vxor _ _ _ y _ => y.isInt
  | .vandn _ _ _ y _ => y.isInt
  | .vshl _ _ _ y _ => y.isInt
  | .vshr _ _ _ y _ => y.isInt
  | .vsra _ _ _ y _ => y.isInt
  | .vcvt _ _ y _ sx => sx != y
  | .vldpx _ _ _ _ e => e != 3
  | .vstpx _ _ _ _ e => e != 3
  | .cist d _ _ _ _ => d != 0
  | .cpPush c => tlEven c && flagsOrdScope c.flags
  | .cpPushAdd c => tlEven c && c.flags.toNat / 2 % 2 == 1 && c.flags.toNat / 16 == 0
  | .cpFill c => tlEven c && flagsOrdScope c.flags
  | .cpX24 c => tlEven c && c.flags.toNat / 2 % 2 == 0
  | .cpC24 c => tlEven c && c.flags.toNat / 2 % 2 == 0
  | .mma c => tlOdd c && c.flags == 0
  | .mmb c => tlOdd c && c.flags == 0
  | .mzero c => tlOdd c && c.flags == 0
  | .mld c => tlOdd c && c.flags == 0
  | .mst c => tlOdd c && c.flags == 0
  | .colRed c => tlEven c && flagsOrdScope c.flags
  | .colRs c => tlEven c && flagsOrdScope c.flags
  | .colMc c => tlEven c && flagsOrdScope c.flags
  | .mtest c => tlOdd c && c.flags == 0
  | .mremap c => tlOdd c && c.flags == 0
  | _ => true

end Sys2Proof
end

