-- ==== Sys2Proof/Decode.lean ====
section
/-! DEFINITION. Decoding (R35 to R61) and, after it, the encoder written from the same tables. -/

namespace Sys2Proof

/-- What a decoder answers: an instruction, or ILLEGAL with the subcode of R61. -/
inductive DecRes where
  | ok (i : Instr)
  | illegal (sub : Fin 16)
  deriving DecidableEq, Repr

namespace Dec

/-- Bits [lo + n − 1 : lo] of a word, `p` being 2^lo and `q` 2^n. -/
def fld (w p q : Nat) : Nat := w / p % q

/-- The register field d of every format (R36). -/
def rd (w : Nat) : Reg := Fin.ofNat 64 (w / 1048576)
/-- The register field a. -/
def ra (w : Nat) : Reg := Fin.ofNat 64 (w / 16384)
/-- The register field b of the R format. -/
def rb (w : Nat) : Reg := Fin.ofNat 64 (w / 256)
/-- One bit of a word. -/
def bit (w p : Nat) : Bool := w / p % 2 == 1
/-- The vector field vd. -/
def vd (w : Nat) : Fin 32 := Fin.ofNat 32 (w / 2097152)
/-- The vector field va. -/
def va (w : Nat) : Fin 32 := Fin.ofNat 32 (w / 65536)
/-- The vector field vb. -/
def vb (w : Nat) : Fin 32 := Fin.ofNat 32 (w / 2048)
/-- The predicate field pr. -/
def pr (w : Nat) : PReg := Fin.ofNat 8 (w / 32)

/-- Continue when a check holds, else ILLEGAL with its subcode (R61). -/
def chk (c : Bool) (sub : Fin 16) (k : DecRes) : DecRes := if c then k else .illegal sub

/-- The element type of code n (R36); 7 is none. -/
def vty (n : Nat) : Option VTy :=
  match n with
  | 0 => some .f32
  | 1 => some .f16
  | 2 => some .bf16
  | 3 => some .i32
  | 4 => some .i16
  | 5 => some .i8
  | 6 => some .ui8
  | _ => none

/-- The legal element type of a vector word, else ILLEGAL 0x04 (R52). -/
def withTy (w : Nat) (legal : VTy → Bool) (k : VTy → DecRes) : DecRes :=
  match vty (w / 256 % 8) with
  | some y => if legal y then k y else .illegal 4
  | none => .illegal 4

/-- R format, sources a and b (R36, R42). -/
def binary (f : Reg → Reg → Reg → Bool → Bool → Instr) (w : Nat) : DecRes :=
  .ok (f (rd w) (ra w) (rb w) (bit w 128) (bit w 64))

/-- R format, source a only: b and tb must be zero (R37). -/
def unary (f : Reg → Reg → Bool → Instr) (w : Nat) : DecRes :=
  chk (w / 256 % 64 == 0 && w / 64 % 2 == 0) 5 (.ok (f (rd w) (ra w) (bit w 128)))

/-- R format with sources a and b and no destination. -/
def noDest2 (f : Reg → Reg → Bool → Bool → Instr) (w : Nat) : DecRes :=
  chk (w / 1048576 % 64 == 0) 5 (.ok (f (ra w) (rb w) (bit w 128) (bit w 64)))

/-- R format with source a only and no destination. -/
def noDest1 (f : Reg → Bool → Instr) (w : Nat) : DecRes :=
  chk (w / 1048576 % 64 == 0 && w / 256 % 64 == 0 && w / 64 % 2 == 0) 5 (.ok (f (ra w) (bit w 128)))

/-- R format with a destination only. -/
def destOnly (f : Reg → Instr) (w : Nat) : DecRes :=
  chk (w / 16384 % 64 == 0 && w / 64 % 256 == 0) 5 (.ok (f (rd w)))

/-- Major opcode 0x01 (R42). -/
def alu (w : Nat) : DecRes :=
  match w % 64 with
  | 0 => binary .add w
  | 1 => binary .sub w
  | 2 => binary .and w
  | 3 => binary .or w
  | 4 => binary .xor w
  | 5 => binary .andn w
  | 6 => binary .orn w
  | 7 => binary .shl w
  | 8 => binary .shr w
  | 9 => binary .sra w
  | 10 => binary .rol w
  | 11 => binary .ror w
  | 12 => binary .mul w
  | 13 => binary .mulh w
  | 14 => binary .mulhu w
  | 15 => binary .mulhsu w
  | 16 => binary .div w
  | 17 => binary .divu w
  | 18 => binary .rem w
  | 19 => binary .remu w
  | 20 => binary .min w
  | 21 => binary .max w
  | 22 => binary .minu w
  | 23 => binary .maxu w
  | 24 => binary .slt w
  | 25 => binary .sltu w
  | 26 => binary .seq w
  | 27 => binary .sne w
  | 28 => unary .clz w
  | 29 => unary .ctz w
  | 30 => unary .popc w
  | 31 => unary .bswap w
  | 32 => unary .brev w
  | 33 => binary .sel w
  | 34 => unary .sextB w
  | 35 => unary .sextH w
  | 36 => unary .sextW w
  | 37 => unary .zextB w
  | 38 => unary .zextH w
  | 39 => unary .zextW w
  | 40 => binary .mix w
  | _ => .illegal 3

/-- I format with a signed immediate (R43). -/
def imm (f : Reg → Reg → Bool → BitVec 13 → Instr) (w : Nat) : DecRes :=
  .ok (f (rd w) (ra w) (bit w 8192) (BitVec.ofNat 13 w))

/-- A shift or rotate by an immediate: imm[9:6] must be zero (R43). -/
def shiftImm (f : Reg → Reg → Bool → Fin 64 → Instr) (w : Nat) : DecRes :=
  chk (w / 64 % 16 == 0) 5 (.ok (f (rd w) (ra w) (bit w 8192) (Fin.ofNat 64 w)))

/-- Major opcode 0x08 (R43). -/
def shifts (w : Nat) : DecRes :=
  match w / 1024 % 8 with
  | 0 => shiftImm .shli w
  | 1 => shiftImm .shri w
  | 2 => shiftImm .srai w
  | 3 => shiftImm .roli w
  | _ => .illegal 3

/-- A bit-field instruction: the field stays inside the register (R43). -/
def bitField (f : Reg → Reg → Bool → Fin 64 → Fin 64 → Instr) (w : Nat) : DecRes :=
  let l : Fin 64 := Fin.ofNat 64 (w / 64)
  let n : Fin 64 := Fin.ofNat 64 w
  chk (fieldOk l n) 6 (.ok (f (rd w) (ra w) (bit w 8192) l n))

/-- Major opcode 0x0B (R43). -/
def bitFields (w : Nat) : DecRes :=
  match w / 4096 % 2 with
  | 0 => bitField .bfx w
  | _ => bitField .bfi w

/-- M format (R44). -/
def mem (f : Reg → Reg → Bool → BitVec 10 → Instr) (w : Nat) : DecRes :=
  .ok (f (rd w) (ra w) (bit w 8192) (BitVec.ofNat 10 w))

/-- M format without a data register: d must be zero (R44). -/
def memQ (f : Reg → Bool → BitVec 10 → Instr) (w : Nat) : DecRes :=
  chk (w / 1048576 % 64 == 0) 5 (.ok (f (ra w) (bit w 8192) (BitVec.ofNat 10 w)))

/-- Major opcode 0x0C (R44). -/
def loads (w : Nat) : DecRes :=
  match w / 1024 % 8 with
  | 0 => mem .ldB w
  | 1 => mem .ldBu w
  | 2 => mem .ldH w
  | 3 => mem .ldHu w
  | 4 => mem .ldW w
  | 5 => mem .ldWu w
  | 6 => mem .ldD w
  | _ => .illegal 4

/-- Major opcode 0x0D (R44). -/
def stores (w : Nat) : DecRes :=
  match w / 1024 % 8 with
  | 0 => mem .stB w
  | 1 => mem .stH w
  | 2 => mem .stW w
  | 3 => mem .stD w
  | 4 => mem .stNtB w
  | 5 => mem .stNtH w
  | 6 => mem .stNtW w
  | _ => mem .stNtD w

/-- Major opcode 0x0E (R44). -/
def ldqs (w : Nat) : DecRes :=
  match w / 1024 % 8 with
  | 0 => memQ .ldqW w
  | 1 => memQ .ldqD w
  | _ => .illegal 4

/-- Major opcode 0x0F (R44). -/
def stqs (w : Nat) : DecRes :=
  match w / 1024 % 8 with
  | 0 => memQ .stqW w
  | 1 => memQ .stqD w
  | _ => .illegal 4

/-- A comparing branch of the B format. -/
def branch (f : Reg → Reg → BitVec 11 → Instr) (w : Nat) : DecRes :=
  .ok (f (rd w) (ra w) (BitVec.ofNat 11 w))

/-- A bit-testing branch of the B format. -/
def branchBit (f : Reg → Fin 64 → BitVec 11 → Instr) (w : Nat) : DecRes :=
  .ok (f (rd w) (ra w) (BitVec.ofNat 11 w))

/-- Major opcode 0x10 (R45). -/
def branches (w : Nat) : DecRes :=
  match w / 2048 % 8 with
  | 0 => branch .brEq w
  | 1 => branch .brNe w
  | 2 => branch .brLt w
  | 3 => branch .brGe w
  | 4 => branch .brLtu w
  | 5 => branch .brGeu w
  | 6 => branchBit .brBs w
  | _ => branchBit .brBc w

/-- Major opcode 0x13 (R39). -/
def loopReg (w : Nat) : DecRes :=
  let e : Fin 8192 := Fin.ofNat 8192 w
  chk (w / 1048576 % 64 == 0) 5
    (chk (1 ≤ e.val && e.val ≤ 4095) 6 (.ok (.loopR (ra w) (bit w 8192) e)))

/-- Major opcode 0x14 (R39). -/
def loopImm (w : Nat) : DecRes :=
  let e : Fin 4096 := Fin.ofNat 4096 w
  chk (1 ≤ e.val) 6 (.ok (.loopi (Fin.ofNat 16384 (w / 4096)) e))

/-- Major opcode 0x15 (R39). -/
def rep (w : Nat) : DecRes :=
  match w / 33554432 % 2 with
  | 0 => chk (w % 32 == 0) 5
      (.ok (.repR (Fin.ofNat 64 (w / 524288)) (Fin.ofNat 16 (w / 32768)) (Fin.ofNat 16 (w / 2048))
        (Fin.ofNat 8 (w / 256)) (Fin.ofNat 4 (w / 64)) (bit w 32)))
  | _ => chk (w % 64 == 0) 5
      (.ok (.repI (Fin.ofNat 64 (w / 524288)) (Fin.ofNat 16 (w / 32768)) (Fin.ofNat 16 (w / 2048))
        (Fin.ofNat 8 (w / 256)) (Fin.ofNat 4 (w / 64))))

/-- Major opcode 0x16 (R46). -/
def scalarFp (w : Nat) : DecRes :=
  match w % 64 with
  | 0 => binary .fadd w
  | 1 => binary .fsub w
  | 2 => binary .fmul w
  | 3 => binary .fdiv w
  | 4 => unary .fsqrt w
  | 5 => binary .fma w
  | 6 => binary .fms w
  | 7 => binary .fmin w
  | 8 => binary .fmax w
  | 9 => unary .fneg w
  | 10 => unary .fabs w
  | 11 => unary .fclass w
  | 12 => binary .fcmpEq w
  | 13 => binary .fcmpLt w
  | 14 => binary .fcmpLe w
  | _ => .illegal 3

/-- Major opcode 0x17 (R46). -/
def scalarCvt (w : Nat) : DecRes :=
  match w % 64 with
  | 0 => unary .fcvtF32I64 w
  | 1 => unary .fcvtI64F32 w
  | 2 => unary .fcvtF32F16 w
  | 3 => unary .fcvtF16F32 w
  | 4 => unary .fcvtF32Bf16 w
  | 5 => unary .fcvtBf16F32 w
  | 6 => unary .fcvtF32Tf8 w
  | 7 => unary .fcvtTf8F32 w
  | _ => .illegal 3

/-- Major opcode 0x18 (R47). -/
def messages (w : Nat) : DecRes :=
  match w % 64 with
  | 0 => binary .send w
  | 1 => binary .spawn w
  | 2 => binary .fill w
  | 3 => noDest2 .trig w
  | 4 => noDest2 .ctrSet w
  | 5 => unary .ctrRd w
  | 6 => noDest1 .ctrMask w
  | 7 => noDest1 .ctrUnmask w
  | _ => .illegal 3

/-- Major opcode 0x19 (R48). -/
def thread (w : Nat) : DecRes :=
  match w / 262144 % 4 with
  | 0 => chk (w / 1048576 % 64 == 0 && w % 262144 == 0) 5 (.ok .endThread)
  | 1 => chk (w / 1048576 % 64 == 0 && w % 262144 == 0) 5 (.ok .yield)
  | 2 => chk (w % 262144 == 0) 5 (.ok (.selfId (rd w)))
  | _ =>
    let k := w / 1048576 % 64
    chk (k != 3 || w % 262144 < 32) 5
      (chk (k < 4) 6 (.ok (.live (Fin.ofNat 4 k) (BitVec.ofNat 18 w))))

/-- Major opcode 0x1A (R47). -/
def groups (w : Nat) : DecRes :=
  match w % 64 with
  | 0 => unary .gjoin w
  | 1 => unary .gleave w
  | 2 => noDest1 .gbar w
  | 3 => unary .garr w
  | 4 => noDest2 .gwait w
  | 5 => unary .gsize w
  | 6 => unary .grank w
  | 7 => binary .gstg w
  | _ => .illegal 3

/-- Major opcode 0x1B (R47). -/
def fullEmpty (w : Nat) : DecRes :=
  match w % 64 with
  | 0 => destOnly .feClr w
  | 1 => destOnly .feSet w
  | 2 => chk (w / 64 % 256 == 0) 5 (.ok (.feTest (rd w) (ra w)))
  | _ => .illegal 3

/-- Major opcode 0x1C (R47). -/
def parcels (w : Nat) : DecRes :=
  match w % 64 with
  | 0 => noDest2 .pqPut w
  | 1 => chk (w / 16384 % 64 == 0 && w / 64 % 256 == 0) 5 (chk (spanOk (rd w)) 6 (.ok (.pqTake (rd w))))
  | 2 => noDest1 .pqDone w
  | 3 => destOnly .pqCnt w
  | 4 => chk (w / 64 % 256 == 0) 5 (.ok (.pqSteal (rd w) (ra w)))
  | _ => .illegal 3

/-- The engine classes a core may use (R60). -/
def classOk (k : CoreKind) (cls : Nat) : Bool :=
  match k with
  | .a => cls == 0 || cls == 2
  | .e => cls == 1 || cls == 3
  | .v => cls == 0

/-- A sync word that names only a scope (R49). -/
def scopeOnly (f : Fin 4 → Instr) (w : Nat) : DecRes :=
  chk (w / 8192 % 8192 == 0 && w / 4 % 64 == 0) 5 (.ok (f (Fin.ofNat 4 w)))

/-- A semaphore word; on a vault core it is ILLEGAL (R49). -/
def sem (k : CoreKind) (f : Reg → Bool → Fin 16 → Instr) (w : Nat) : DecRes :=
  chk (k != .v) 2 (chk (w / 1048576 % 64 == 0 && w / 16 % 16 == 0) 5 (.ok (f (ra w) (bit w 8192) (Fin.ofNat 16 w))))

/-- A timeline wait; the timeline must be one of the core's (R49). -/
def tlWait (k : CoreKind) (f : Reg → Bool → Fin 4 → Instr) (w : Nat) : DecRes :=
  chk (w / 1048576 % 64 == 0 && w / 4 % 64 == 0) 5
    (chk (classOk k (w % 4)) 6 (.ok (f (ra w) (bit w 8192) (Fin.ofNat 4 w))))

/-- Major opcode 0x1D (R49). -/
def sync (k : CoreKind) (w : Nat) : DecRes :=
  match w / 256 % 32 with
  | 0 => scopeOnly .fenceAcq w
  | 1 => scopeOnly .fenceRel w
  | 2 => scopeOnly .fenceAr w
  | 3 => scopeOnly .drain w
  | 4 => sem k .semSig w
  | 5 => sem k .semWait w
  | 6 => chk (w / 8192 % 128 == 0 && w / 32 % 8 == 0 && w / 4 % 4 == 0) 5
      (chk (classOk k (w % 4)) 6 (.ok (.tlRd (rd w) (bit w 16) (Fin.ofNat 4 w))))
  | 7 => tlWait k .tlWait w
  | 8 => tlWait k .tlWaitRel w
  | 9 => chk (w / 8192 % 8192 == 0 && w % 256 == 0) 5 (.ok .cpsync)
  | _ => .illegal 3

/-- An atomic other than `cas` and `fadd` (R50). DEDUCED, unsafe: log entry 23. -/
def amo (f : Reg → Reg → Fin 4 → Fin 4 → Fin 4 → Bool → Instr) (w : Nat) : DecRes :=
  let r : Fin 4 := Fin.ofNat 4 (w / 4096)
  let c : Fin 4 := Fin.ofNat 4 (w / 1024)
  let n : Fin 4 := Fin.ofNat 4 (w / 256)
  chk (n.val < 2) 4
    (chk (w / 64 % 2 == 0) 5 (chk (r != 0 || c == 0) 6 (.ok (f (rd w) (ra w) r c n (bit w 128)))))

/-- `amo.cas` (R50). -/
def cas (w : Nat) : DecRes :=
  let r : Fin 4 := Fin.ofNat 4 (w / 4096)
  let c : Fin 4 := Fin.ofNat 4 (w / 1024)
  let n : Fin 4 := Fin.ofNat 4 (w / 256)
  chk (n != 3) 4
    (chk (w / 64 % 2 == 0) 5 (chk (casOk (rd w) r c n) 6 (.ok (.amoCas (rd w) (ra w) r c n (bit w 128)))))

/-- `amo.fadd` (R50). -/
def amoFadd (w : Nat) : DecRes :=
  let r : Fin 4 := Fin.ofNat 4 (w / 4096)
  let c : Fin 4 := Fin.ofNat 4 (w / 1024)
  chk (w / 256 % 4 == 0) 4
    (chk (w / 64 % 2 == 0) 5 (chk (r != 0 || c == 0) 6 (.ok (.amoFadd (rd w) (ra w) r c (bit w 128)))))

/-- Major opcode 0x1E (R50). -/
def atomics (w : Nat) : DecRes :=
  match w % 64 with
  | 0 => amo .amoAdd w
  | 1 => amo .amoAnd w
  | 2 => amo .amoOr w
  | 3 => amo .amoXor w
  | 4 => amo .amoMin w
  | 5 => amo .amoMax w
  | 6 => amo .amoMinu w
  | 7 => amo .amoMaxu w
  | 8 => amo .amoSwap w
  | 9 => cas w
  | 10 => amoFadd w
  | _ => .illegal 3

/-- Major opcode 0x1F (R51). -/
def cache (k : CoreKind) (w : Nat) : DecRes :=
  match w / 1024 % 8 with
  | 0 => chk (w / 1048576 % 64 == 0 && w % 1024 == 0) 5 (.ok (.cwb (ra w) (bit w 8192)))
  | 1 => chk (w / 1048576 % 64 == 0 && w / 2 % 512 == 0) 5
      (match w % 2 with
        | 0 => .ok (.cinv (ra w) (bit w 8192))
        | _ => .ok (.cinvI (ra w) (bit w 8192)))
  | 2 => chk (w / 1048576 % 64 == 0 && w % 1024 == 0) 5 (.ok (.cflush (ra w) (bit w 8192)))
  | 3 => chk (k == .a) 2 (chk (w / 8192 % 8192 == 0 && w / 16 % 64 == 0) 5
      (chk (w % 16 ≤ 12) 6 (.ok (.resize (Fin.ofNat 16 w)))))
  | 4 => chk (w / 8192 % 8192 == 0 && w % 1024 == 0) 5 (.ok .home)
  | _ => .illegal 3

/-- A vector word with sources va and vb (R52). -/
def v2 (legal : VTy → Bool) (f : VReg → VReg → VReg → VTy → PReg → Instr) (w : Nat) : DecRes :=
  withTy w legal fun y => .ok (f (vd w) (va w) (vb w) y (pr w))

/-- A vector word with source va only: vb must be zero (R37). -/
def v1 (legal : VTy → Bool) (f : VReg → VReg → VTy → PReg → Instr) (w : Nat) : DecRes :=
  withTy w legal fun y => chk (w / 2048 % 32 == 0) 5 (.ok (f (vd w) (va w) y (pr w)))

/-- Every element type is legal (R52). -/
def anyTy (_ : VTy) : Bool := true

/-- Major opcode 0x20 (R52). -/
def vecInt (w : Nat) : DecRes :=
  match w % 32 with
  | 0 => v2 VTy.isInt .vaddInt w
  | 1 => v2 VTy.isInt .vsubInt w
  | 2 => v2 VTy.isInt .vmulInt w
  | 3 => v2 VTy.isInt .vminInt w
  | 4 => v2 VTy.isInt .vmaxInt w
  | 5 => v1 VTy.isSigned .vabsInt w
  | 6 => v1 VTy.isSigned .vnegInt w
  | 7 => chk (w / 256 % 8 == 5) 4 (.ok (.vdot (vd w) (va w) (vb w) (pr w)))
  | _ => .illegal 3

/-- Major opcode 0x21 (R52). -/
def vecFp (w : Nat) : DecRes :=
  match w % 32 with
  | 0 => v2 VTy.isFp .vaddFp w
  | 1 => v2 VTy.isFp .vsubFp w
  | 2 => v2 VTy.isFp .vmulFp w
  | 3 => v2 VTy.isFp .vfma w
  | 4 => v2 VTy.isFp .vfms w
  | 5 => v2 VTy.isFp .vfnma w
  | 6 => v2 VTy.isFp .vdiv w
  | 7 => v1 VTy.isFp .vsqrt w
  | 8 => v2 VTy.isFp .vminFp w
  | 9 => v2 VTy.isFp .vmaxFp w
  | 10 => v1 VTy.isFp .vabsFp w
  | 11 => v1 VTy.isFp .vnegFp w
  | 12 => v1 VTy.isFp .vclass w
  | _ => .illegal 3

/-- Major opcode 0x22 (R52). -/
def vecLogic (w : Nat) : DecRes :=
  match w % 32 with
  | 0 => v2 VTy.isInt .vand w
  | 1 => v2 VTy.isInt .vor w
  | 2 => v2 VTy.isInt .vxor w
  | 3 => v2 VTy.isInt .vandn w
  | 4 => v2 VTy.isInt .vshl w
  | 5 => v2 VTy.isInt .vshr w
  | 6 => v2 VTy.isInt .vsra w
  | _ => .illegal 3

/-- A comparison: the destination names a predicate (R53). -/
def vcmp (f : PReg → VReg → VReg → VTy → PReg → Instr) (w : Nat) : DecRes :=
  withTy w anyTy fun y =>
    chk (w / 16777216 % 4 == 0) 5 (.ok (f (Fin.ofNat 8 (w / 2097152)) (va w) (vb w) y (pr w)))

/-- Major opcode 0x23 (R52). -/
def vecCompare (w : Nat) : DecRes :=
  match w % 32 with
  | 0 => vcmp .vcmpEq w
  | 1 => vcmp .vcmpNe w
  | 2 => vcmp .vcmpLt w
  | 3 => vcmp .vcmpLe w
  | 4 => vcmp .vcmpGt w
  | 5 => vcmp .vcmpGe w
  | 8 => v2 anyTy .vsel w
  | _ => .illegal 3

/-- Major opcode 0x24 (R52). -/
def vecPermute (w : Nat) : DecRes :=
  match w % 32 with
  | 0 => v2 anyTy .vperm w
  | 1 => v2 anyTy .vslide w
  | 2 => v2 anyTy .vzip w
  | 3 => v2 anyTy .vunzip w
  | _ => .illegal 3

/-- Major opcode 0x25 (R52, R53). -/
def vecReduce (w : Nat) : DecRes :=
  match w % 32 with
  | 0 => v1 anyTy .vredsum w
  | 1 => v1 anyTy .vredmax w
  | 2 => v1 anyTy .vredmin w
  | _ => .illegal 3

/-- Major opcode 0x26: fn[4:3] zero, source type 7 or equal to the destination ILLEGAL (R52). -/
def vecConvert (w : Nat) : DecRes :=
  chk (w / 8 % 4 == 0) 3 <|
  withTy w anyTy fun y =>
    match vty (w % 8) with
    | none => .illegal 4
    | some sx => chk (sx != y) 4 (chk (w / 2048 % 32 == 0) 5 (.ok (.vcvt (vd w) (va w) y (pr w) sx)))

/-- A predicate word with two predicate sources (R53). -/
def pred2 (f : PReg → PReg → PReg → VTy → PReg → Instr) (w : Nat) : DecRes :=
  withTy w anyTy fun y =>
    chk (w / 16777216 % 4 == 0 && w / 524288 % 4 == 0 && w / 16384 % 4 == 0) 5
      (.ok (f (Fin.ofNat 8 (w / 2097152)) (Fin.ofNat 8 (w / 65536)) (Fin.ofNat 8 (w / 2048)) y (pr w)))

/-- A predicate word with a scalar destination (R53). -/
def predScalar (f : SReg → PReg → VTy → PReg → Instr) (w : Nat) : DecRes :=
  withTy w anyTy fun y =>
    chk (w / 524288 % 4 == 0 && w / 2048 % 32 == 0) 5 (.ok (f (vd w) (Fin.ofNat 8 (w / 65536)) y (pr w)))

/-- Major opcode 0x27 (R52, R53). -/
def vecPred (w : Nat) : DecRes :=
  match w % 32 with
  | 0 => pred2 .pand w
  | 1 => pred2 .por w
  | 2 => pred2 .pxor w
  | 3 => withTy w anyTy fun y =>
      chk (w / 16777216 % 4 == 0 && w / 524288 % 4 == 0 && w / 2048 % 32 == 0) 5
        (.ok (.pnot (Fin.ofNat 8 (w / 2097152)) (Fin.ofNat 8 (w / 65536)) y (pr w)))
  | 4 => predScalar .pcnt w
  | 5 => predScalar .pfirst w
  | 6 => withTy w anyTy fun y =>
      chk (w / 16777216 % 4 == 0 && w / 2048 % 1024 == 0) 5 (.ok (.pset (Fin.ofNat 8 (w / 2097152)) y (pr w)))
  | _ => .illegal 3

/-- A vector memory word with a scaled offset (R54). -/
def vmem (f : VReg → Reg → Bool → BitVec 10 → Instr) (w : Nat) : DecRes :=
  chk (w / 33554432 % 2 == 0) 5 (.ok (f (Fin.ofNat 32 (w / 1048576)) (ra w) (bit w 8192) (BitVec.ofNat 10 w)))

/-- An indexed vector memory word (R54); the reserved element size reports subcode 4. DESIGN CHOICE, unsafe: log entry 75. -/
def vmemx (f : VReg → Reg → Bool → VReg → Fin 4 → Instr) (w : Nat) : DecRes :=
  let e : Fin 4 := Fin.ofNat 4 (w / 8)
  chk (e != 3) 4 (chk (w / 33554432 % 2 == 0 && w % 8 == 0) 5
    (.ok (f (Fin.ofNat 32 (w / 1048576)) (ra w) (bit w 8192) (Fin.ofNat 32 (w / 32)) e)))

/-- Major opcode 0x28 (R54). -/
def vecMem (w : Nat) : DecRes :=
  match w / 1024 % 8 with
  | 0 => vmem .vldp w
  | 1 => vmem .vstp w
  | 2 => vmem .vstpNt w
  | 3 => vmemx .vldpx w
  | 4 => vmemx .vstpx w
  | _ => .illegal 4

/-- Major opcode 0x29 (R52, R53). -/
def vecMove (w : Nat) : DecRes :=
  match w % 32 with
  | 0 => v1 anyTy .vbcast w
  | 1 => withTy w anyTy fun y => chk (w / 32 % 8 == 0) 5 (.ok (.vext (vd w) (va w) (vb w) y))
  | 2 => v2 anyTy .vins w
  | _ => .illegal 3

/-- Major opcode 0x2A (R47). -/
def matrixSide (w : Nat) : DecRes :=
  match w % 64 with
  | 0 => chk (w / 64 % 1048576 == 0) 5 (.ok .mown)
  | 1 => chk (w / 64 % 1048576 == 0) 5 (.ok .mfree)
  | 2 => destOnly .mshape w
  | 3 => unary .mmapRd w
  | _ => .illegal 3

/-- Major opcode 0x2B (R47). -/
def cistern (w : Nat) : DecRes :=
  match w % 64 with
  | 0 => chk (w / 1048576 % 64 != 0) 5 (binary .cist w)
  | 1 => unary .cerrRd w
  | 2 => noDest2 .cistLd w
  | _ => .illegal 3

/-- Major opcode 0x2C (R55). -/
def system (w : Nat) : DecRes :=
  match w / 1024 % 8 with
  | 0 => chk (w / 8192 % 8192 == 0) 5 (.ok (.sys (Fin.ofNat 1024 w)))
  | 1 => chk (w / 8192 % 8192 == 0) 5 (.ok (.brk (Fin.ofNat 1024 w)))
  | 2 => chk (w / 8192 % 128 == 0) 5 (.ok (.rdsr (rd w) (Fin.ofNat 1024 w)))
  | 3 => chk (w / 1048576 % 64 == 0) 5 (.ok (.wrsr (ra w) (bit w 8192) (Fin.ofNat 1024 w)))
  | 4 => chk (w / 8192 % 8192 == 0 && w % 1024 == 0) 5 (.ok .rte)
  | 5 => chk (w / 1048576 % 64 == 0 && w % 1024 == 0) 5 (.ok (.tlbInv (ra w) (bit w 8192)))
  | 6 => chk (w % 1024 == 0) 5 (.ok (.ctxKill (rd w) (ra w) (bit w 8192)))
  | _ => .illegal 3

/-- Major opcode 0x2D (R55). -/
def sigCkpt (w : Nat) : DecRes :=
  match w / 262144 % 4 with
  | 0 => chk (w / 1048576 % 64 == 0 && w / 65536 % 4 == 0) 5 (.ok (.sig (BitVec.ofNat 16 w)))
  | 1 => chk (w / 64 % 4096 == 0) 5 (.ok (.ckpt (rd w) (Fin.ofNat 64 w)))
  | _ => .illegal 3

/-- The cores that may execute a major opcode (R40). -/
def opOn (k : CoreKind) (op : Nat) : Bool :=
  if op = 0x0E ∨ op = 0x0F ∨ op = 0x28 then k == .a
  else if op = 0x15 ∨ (0x20 ≤ op ∧ op ≤ 0x27) ∨ op = 0x29 ∨ op = 0x2A then k == .e
  else if op = 0x1C then k != .v
  else if op = 0x1F then k != .e
  else if op = 0x2B then k == .v
  else true

/-- Whether a major opcode is assigned (R40). -/
def opAssigned (op : Nat) : Bool := (0x01 ≤ op ∧ op ≤ 0x2D) || op == 0x3F

/-- A one-word instruction of an assigned opcode that the core may execute. -/
def word (k : CoreKind) (w : Nat) : DecRes :=
  match w / 67108864 % 64 with
  | 0x01 => alu w
  | 0x02 => imm .addi w
  | 0x03 => imm .andi w
  | 0x04 => imm .ori w
  | 0x05 => imm .xori w
  | 0x06 => imm .slti w
  | 0x07 => imm .sltiu w
  | 0x08 => shifts w
  | 0x09 => .ok (.lui (rd w) (BitVec.ofNat 20 w))
  | 0x0A => .ok (.addpc (rd w) (BitVec.ofNat 20 w))
  | 0x0B => bitFields w
  | 0x0C => loads w
  | 0x0D => stores w
  | 0x0E => ldqs w
  | 0x0F => stqs w
  | 0x10 => branches w
  | 0x11 => .ok (.jal (rd w) (BitVec.ofNat 20 w))
  | 0x12 => imm .jalr w
  | 0x13 => loopReg w
  | 0x14 => loopImm w
  | 0x15 => rep w
  | 0x16 => scalarFp w
  | 0x17 => scalarCvt w
  | 0x18 => messages w
  | 0x19 => thread w
  | 0x1A => groups w
  | 0x1B => fullEmpty w
  | 0x1C => parcels w
  | 0x1D => sync k w
  | 0x1E => atomics w
  | 0x1F => cache k w
  | 0x20 => vecInt w
  | 0x21 => vecFp w
  | 0x22 => vecLogic w
  | 0x23 => vecCompare w
  | 0x24 => vecPermute w
  | 0x25 => vecReduce w
  | 0x26 => vecConvert w
  | 0x27 => vecPred w
  | 0x28 => vecMem w
  | 0x29 => vecMove w
  | 0x2A => matrixSide w
  | 0x2B => cistern w
  | 0x2C => system w
  | 0x2D => sigCkpt w
  | _ => .illegal 1

/-- The slot in a field of n bits: a literal, or a register whose upper bits are zero (R57). -/
def slot (n : Nat) (flagged : Bool) (v : Nat) : Slot n :=
  if flagged then .reg (Fin.ofNat 64 v) else .lit (BitVec.ofNat n v)

/-- The upper bits of a flagged slot are zero (R57). -/
def slotOk (flagged : Bool) (v : Nat) : Bool := !flagged || v < 64

/-- Slot j of the eight words of a command (R56). -/
def slotBits (j w1 w2 w3 w4 w5 w6 w7 : Nat) : Nat :=
  match j with
  | 0 => w1 * 65536 + w2 / 65536 % 65536
  | 1 => w2 % 65536 * 4294967296 + w3
  | 2 => w4 * 65536 + w5 / 65536 % 65536
  | 3 => w5 % 65536 * 4294967296 + w6
  | _ => w7

/-- The fields of a command word (R56). -/
def fields (w0 w1 w2 w3 w4 w5 w6 w7 : Nat) : CmdWord :=
  { tl := Fin.ofNat 4 (w0 / 2048)
    flags := BitVec.ofNat 6 w0
    s0 := slot 48 (bit w0 64) (slotBits 0 w1 w2 w3 w4 w5 w6 w7)
    s1 := slot 48 (bit w0 128) (slotBits 1 w1 w2 w3 w4 w5 w6 w7)
    s2 := slot 48 (bit w0 256) (slotBits 2 w1 w2 w3 w4 w5 w6 w7)
    s3 := slot 48 (bit w0 512) (slotBits 3 w1 w2 w3 w4 w5 w6 w7)
    s4 := slot 32 (bit w0 1024) (slotBits 4 w1 w2 w3 w4 w5 w6 w7) }

/-- Check 7 of R58: the unused bits of each flagged slot are zero. -/
def slotsOk (w0 w1 w2 w3 w4 w5 w6 w7 : Nat) : Bool :=
  slotOk (bit w0 64) (slotBits 0 w1 w2 w3 w4 w5 w6 w7) &&
  slotOk (bit w0 128) (slotBits 1 w1 w2 w3 w4 w5 w6 w7) &&
  slotOk (bit w0 256) (slotBits 2 w1 w2 w3 w4 w5 w6 w7) &&
  slotOk (bit w0 512) (slotBits 3 w1 w2 w3 w4 w5 w6 w7) &&
  slotOk (bit w0 1024) (slotBits 4 w1 w2 w3 w4 w5 w6 w7)

/-- The command of a class and opcode (R60); bit [225] tells `cp.push` from its combining form (R282). -/
noncomputable def cmdOf (cls opc : Nat) (add : Bool) : Option (CmdWord → Instr) :=
  match cls, opc with
  | 0, 0 => if add then some .cpPushAdd else some .cpPush
  | 0, 1 => some .cpFill
  | 0, 2 => some .cpX24
  | 0, 3 => some .cpC24
  | 1, 0 => some .mma
  | 1, 1 => some .mmb
  | 1, 2 => some .mzero
  | 1, 3 => some .mld
  | 1, 4 => some .mst
  | 2, 0 => some .colRed
  | 2, 1 => some .colRs
  | 2, 2 => some .colMc
  | 3, 0 => some .mtest
  | 3, 1 => some .mremap
  | _, _ => none

/-- A command word, checked in the order of R58. -/
noncomputable def command (k : CoreKind) (aligned : Bool) (w0 w1 w2 w3 w4 w5 w6 w7 : Nat) : DecRes :=
  let cls := w0 / 4194304 % 16
  chk aligned 7 <| chk (cls < 4) 8 <| chk (classOk k cls) 2 <|
  match cmdOf cls (w0 / 16384 % 256) (bit w0 2) with
  | none => .illegal 9
  | some f =>
    let i := f (fields w0 w1 w2 w3 w4 w5 w6 w7)
    chk (w0 / 2048 % 8 < 4 && classOk k (w0 / 2048 % 8)) 10 <|
    chk i.wf 11 <| chk (slotsOk w0 w1 w2 w3 w4 w5 w6 w7) 11 (.ok i)

end Dec

/-- The instruction a core of kind k reads from a word and, for a command, the seven words after it.
`aligned` says that the first word lies on a 32-byte boundary. DESIGN CHOICE, safe: log entry 67. -/
noncomputable def decode (k : CoreKind) (aligned : Bool) (ws : List Nat) : DecRes :=
  let g (n : Nat) : Nat := ws.getD n 0
  let op := g 0 / 67108864 % 64
  if Dec.opAssigned op then
    if op = 0x3F then
      Dec.command k aligned (g 0) (g 1) (g 2) (g 3) (g 4) (g 5) (g 6) (g 7)
    else if Dec.opOn k op then Dec.word k (g 0)
    else .illegal 2
  else .illegal 1

/-- The 32-bit words of a number, the first word in its low bits. -/
def wordsOf (n : Nat) : Nat → List Nat
  | 0 => []
  | k + 1 => n % 4294967296 :: wordsOf (n / 4294967296) k

/-- What the decoder of some core reads from table bits: the cores are tried A, E, V. -/
noncomputable def decodeTableWord (nbits w : Nat) : Option Instr :=
  let ws := wordsOf (w % 2 ^ nbits) 8
  match decode .a true ws with
  | .ok i => some i
  | .illegal _ =>
    match decode .e true ws with
    | .ok i => some i
    | .illegal _ =>
      match decode .v true ws with
      | .ok i => some i
      | .illegal _ => none

/-- The field value of a slot (R57). -/
def Slot.bits {n : Nat} : Slot n → Nat
  | .lit v => v.toNat
  | .reg r => r.val

/-- Whether a slot's register flag is set (R57). -/
def Slot.isReg {n : Nat} : Slot n → Bool
  | .lit _ => false
  | .reg _ => true

/-- The eight words of a command (R56). -/
def encodeCmd (cls opc : Nat) (c : CmdWord) : List Nat :=
  [ 4227858432 + cls * 4194304 + opc * 16384 + c.tl.val * 2048
      + (c.s4.isReg.toNat * 1024 + c.s3.isReg.toNat * 512 + c.s2.isReg.toNat * 256
        + c.s1.isReg.toNat * 128 + c.s0.isReg.toNat * 64) + c.flags.toNat,
    c.s0.bits / 65536,
    c.s0.bits % 65536 * 65536 + c.s1.bits / 4294967296,
    c.s1.bits % 4294967296,
    c.s2.bits / 65536,
    c.s2.bits % 65536 * 65536 + c.s3.bits / 4294967296,
    c.s3.bits % 4294967296,
    c.s4.bits ]

/-- The words of an instruction, first word first; an event has none. -/
def encode : Instr → List Nat
  | .add d a b t u => [67108864 + d.val * 1048576 + a.val * 16384 + b.val * 256 + t.toNat * 128 + u.toNat * 64]
  | .sub d a b t u => [67108865 + d.val * 1048576 + a.val * 16384 + b.val * 256 + t.toNat * 128 + u.toNat * 64]
  | .and d a b t u => [67108866 + d.val * 1048576 + a.val * 16384 + b.val * 256 + t.toNat * 128 + u.toNat * 64]
  | .or d a b t u => [67108867 + d.val * 1048576 + a.val * 16384 + b.val * 256 + t.toNat * 128 + u.toNat * 64]
  | .xor d a b t u => [67108868 + d.val * 1048576 + a.val * 16384 + b.val * 256 + t.toNat * 128 + u.toNat * 64]
  | .andn d a b t u => [67108869 + d.val * 1048576 + a.val * 16384 + b.val * 256 + t.toNat * 128 + u.toNat * 64]
  | .orn d a b t u => [67108870 + d.val * 1048576 + a.val * 16384 + b.val * 256 + t.toNat * 128 + u.toNat * 64]
  | .shl d a b t u => [67108871 + d.val * 1048576 + a.val * 16384 + b.val * 256 + t.toNat * 128 + u.toNat * 64]
  | .shr d a b t u => [67108872 + d.val * 1048576 + a.val * 16384 + b.val * 256 + t.toNat * 128 + u.toNat * 64]
  | .sra d a b t u => [67108873 + d.val * 1048576 + a.val * 16384 + b.val * 256 + t.toNat * 128 + u.toNat * 64]
  | .rol d a b t u => [67108874 + d.val * 1048576 + a.val * 16384 + b.val * 256 + t.toNat * 128 + u.toNat * 64]
  | .ror d a b t u => [67108875 + d.val * 1048576 + a.val * 16384 + b.val * 256 + t.toNat * 128 + u.toNat * 64]
  | .mul d a b t u => [67108876 + d.val * 1048576 + a.val * 16384 + b.val * 256 + t.toNat * 128 + u.toNat * 64]
  | .mulh d a b t u => [67108877 + d.val * 1048576 + a.val * 16384 + b.val * 256 + t.toNat * 128 + u.toNat * 64]
  | .mulhu d a b t u => [67108878 + d.val * 1048576 + a.val * 16384 + b.val * 256 + t.toNat * 128 + u.toNat * 64]
  | .mulhsu d a b t u => [67108879 + d.val * 1048576 + a.val * 16384 + b.val * 256 + t.toNat * 128 + u.toNat * 64]
  | .div d a b t u => [67108880 + d.val * 1048576 + a.val * 16384 + b.val * 256 + t.toNat * 128 + u.toNat * 64]
  | .divu d a b t u => [67108881 + d.val * 1048576 + a.val * 16384 + b.val * 256 + t.toNat * 128 + u.toNat * 64]
  | .rem d a b t u => [67108882 + d.val * 1048576 + a.val * 16384 + b.val * 256 + t.toNat * 128 + u.toNat * 64]
  | .remu d a b t u => [67108883 + d.val * 1048576 + a.val * 16384 + b.val * 256 + t.toNat * 128 + u.toNat * 64]
  | .min d a b t u => [67108884 + d.val * 1048576 + a.val * 16384 + b.val * 256 + t.toNat * 128 + u.toNat * 64]
  | .max d a b t u => [67108885 + d.val * 1048576 + a.val * 16384 + b.val * 256 + t.toNat * 128 + u.toNat * 64]
  | .minu d a b t u => [67108886 + d.val * 1048576 + a.val * 16384 + b.val * 256 + t.toNat * 128 + u.toNat * 64]
  | .maxu d a b t u => [67108887 + d.val * 1048576 + a.val * 16384 + b.val * 256 + t.toNat * 128 + u.toNat * 64]
  | .slt d a b t u => [67108888 + d.val * 1048576 + a.val * 16384 + b.val * 256 + t.toNat * 128 + u.toNat * 64]
  | .sltu d a b t u => [67108889 + d.val * 1048576 + a.val * 16384 + b.val * 256 + t.toNat * 128 + u.toNat * 64]
  | .seq d a b t u => [67108890 + d.val * 1048576 + a.val * 16384 + b.val * 256 + t.toNat * 128 + u.toNat * 64]
  | .sne d a b t u => [67108891 + d.val * 1048576 + a.val * 16384 + b.val * 256 + t.toNat * 128 + u.toNat * 64]
  | .clz d a t => [67108892 + d.val * 1048576 + a.val * 16384 + t.toNat * 128]
  | .ctz d a t => [67108893 + d.val * 1048576 + a.val * 16384 + t.toNat * 128]
  | .popc d a t => [67108894 + d.val * 1048576 + a.val * 16384 + t.toNat * 128]
  | .bswap d a t => [67108895 + d.val * 1048576 + a.val * 16384 + t.toNat * 128]
  | .brev d a t => [67108896 + d.val * 1048576 + a.val * 16384 + t.toNat * 128]
  | .sel d a b t u => [67108897 + d.val * 1048576 + a.val * 16384 + b.val * 256 + t.toNat * 128 + u.toNat * 64]
  | .sextB d a t => [67108898 + d.val * 1048576 + a.val * 16384 + t.toNat * 128]
  | .sextH d a t => [67108899 + d.val * 1048576 + a.val * 16384 + t.toNat * 128]
  | .sextW d a t => [67108900 + d.val * 1048576 + a.val * 16384 + t.toNat * 128]
  | .zextB d a t => [67108901 + d.val * 1048576 + a.val * 16384 + t.toNat * 128]
  | .zextH d a t => [67108902 + d.val * 1048576 + a.val * 16384 + t.toNat * 128]
  | .zextW d a t => [67108903 + d.val * 1048576 + a.val * 16384 + t.toNat * 128]
  | .mix d a b t u => [67108904 + d.val * 1048576 + a.val * 16384 + b.val * 256 + t.toNat * 128 + u.toNat * 64]
  | .addi d a t i => [134217728 + d.val * 1048576 + a.val * 16384 + t.toNat * 8192 + i.toNat]
  | .andi d a t i => [201326592 + d.val * 1048576 + a.val * 16384 + t.toNat * 8192 + i.toNat]
  | .ori d a t i => [268435456 + d.val * 1048576 + a.val * 16384 + t.toNat * 8192 + i.toNat]
  | .xori d a t i => [335544320 + d.val * 1048576 + a.val * 16384 + t.toNat * 8192 + i.toNat]
  | .slti d a t i => [402653184 + d.val * 1048576 + a.val * 16384 + t.toNat * 8192 + i.toNat]
  | .sltiu d a t i => [469762048 + d.val * 1048576 + a.val * 16384 + t.toNat * 8192 + i.toNat]
  | .shli d a t n => [536870912 + d.val * 1048576 + a.val * 16384 + t.toNat * 8192 + n.val]
  | .shri d a t n => [536871936 + d.val * 1048576 + a.val * 16384 + t.toNat * 8192 + n.val]
  | .srai d a t n => [536872960 + d.val * 1048576 + a.val * 16384 + t.toNat * 8192 + n.val]
  | .roli d a t n => [536873984 + d.val * 1048576 + a.val * 16384 + t.toNat * 8192 + n.val]
  | .lui d i => [603979776 + d.val * 1048576 + i.toNat]
  | .addpc d i => [671088640 + d.val * 1048576 + i.toNat]
  | .bfx d a t l w => [738197504 + d.val * 1048576 + a.val * 16384 + t.toNat * 8192 + l.val * 64 + w.val]
  | .bfi d a t l w => [738201600 + d.val * 1048576 + a.val * 16384 + t.toNat * 8192 + l.val * 64 + w.val]
  | .ldB d a t o => [805306368 + d.val * 1048576 + a.val * 16384 + t.toNat * 8192 + o.toNat]
  | .ldBu d a t o => [805307392 + d.val * 1048576 + a.val * 16384 + t.toNat * 8192 + o.toNat]
  | .ldH d a t o => [805308416 + d.val * 1048576 + a.val * 16384 + t.toNat * 8192 + o.toNat]
  | .ldHu d a t o => [805309440 + d.val * 1048576 + a.val * 16384 + t.toNat * 8192 + o.toNat]
  | .ldW d a t o => [805310464 + d.val * 1048576 + a.val * 16384 + t.toNat * 8192 + o.toNat]
  | .ldWu d a t o => [805311488 + d.val * 1048576 + a.val * 16384 + t.toNat * 8192 + o.toNat]
  | .ldD d a t o => [805312512 + d.val * 1048576 + a.val * 16384 + t.toNat * 8192 + o.toNat]
  | .stB d a t o => [872415232 + d.val * 1048576 + a.val * 16384 + t.toNat * 8192 + o.toNat]
  | .stH d a t o => [872416256 + d.val * 1048576 + a.val * 16384 + t.toNat * 8192 + o.toNat]
  | .stW d a t o => [872417280 + d.val * 1048576 + a.val * 16384 + t.toNat * 8192 + o.toNat]
  | .stD d a t o => [872418304 + d.val * 1048576 + a.val * 16384 + t.toNat * 8192 + o.toNat]
  | .stNtB d a t o => [872419328 + d.val * 1048576 + a.val * 16384 + t.toNat * 8192 + o.toNat]
  | .stNtH d a t o => [872420352 + d.val * 1048576 + a.val * 16384 + t.toNat * 8192 + o.toNat]
  | .stNtW d a t o => [872421376 + d.val * 1048576 + a.val * 16384 + t.toNat * 8192 + o.toNat]
  | .stNtD d a t o => [872422400 + d.val * 1048576 + a.val * 16384 + t.toNat * 8192 + o.toNat]
  | .ldqW a t o => [939524096 + a.val * 16384 + t.toNat * 8192 + o.toNat]
  | .ldqD a t o => [939525120 + a.val * 16384 + t.toNat * 8192 + o.toNat]
  | .stqW a t o => [1006632960 + a.val * 16384 + t.toNat * 8192 + o.toNat]
  | .stqD a t o => [1006633984 + a.val * 16384 + t.toNat * 8192 + o.toNat]
  | .brEq a b o => [1073741824 + a.val * 1048576 + b.val * 16384 + o.toNat]
  | .brNe a b o => [1073743872 + a.val * 1048576 + b.val * 16384 + o.toNat]
  | .brLt a b o => [1073745920 + a.val * 1048576 + b.val * 16384 + o.toNat]
  | .brGe a b o => [1073747968 + a.val * 1048576 + b.val * 16384 + o.toNat]
  | .brLtu a b o => [1073750016 + a.val * 1048576 + b.val * 16384 + o.toNat]
  | .brGeu a b o => [1073752064 + a.val * 1048576 + b.val * 16384 + o.toNat]
  | .brBs a n o => [1073754112 + a.val * 1048576 + n.val * 16384 + o.toNat]
  | .brBc a n o => [1073756160 + a.val * 1048576 + n.val * 16384 + o.toNat]
  | .jal d o => [1140850688 + d.val * 1048576 + o.toNat]
  | .jalr d a t i => [1207959552 + d.val * 1048576 + a.val * 16384 + t.toNat * 8192 + i.toNat]
  | .loopR a t e => [1275068416 + a.val * 16384 + t.toNat * 8192 + e.val]
  | .loopi c e => [1342177280 + c.val * 4096 + e.val]
  | .repR c l sx m w t => [1409286144 + c.val * 524288 + l.val * 32768 + sx.val * 2048 + m.val * 256 + w.val * 64 + t.toNat * 32]
  | .repI n l sx m w => [1442840576 + n.val * 524288 + l.val * 32768 + sx.val * 2048 + m.val * 256 + w.val * 64]
  | .fadd d a b t u => [1476395008 + d.val * 1048576 + a.val * 16384 + b.val * 256 + t.toNat * 128 + u.toNat * 64]
  | .fsub d a b t u => [1476395009 + d.val * 1048576 + a.val * 16384 + b.val * 256 + t.toNat * 128 + u.toNat * 64]
  | .fmul d a b t u => [1476395010 + d.val * 1048576 + a.val * 16384 + b.val * 256 + t.toNat * 128 + u.toNat * 64]
  | .fdiv d a b t u => [1476395011 + d.val * 1048576 + a.val * 16384 + b.val * 256 + t.toNat * 128 + u.toNat * 64]
  | .fsqrt d a t => [1476395012 + d.val * 1048576 + a.val * 16384 + t.toNat * 128]
  | .fma d a b t u => [1476395013 + d.val * 1048576 + a.val * 16384 + b.val * 256 + t.toNat * 128 + u.toNat * 64]
  | .fms d a b t u => [1476395014 + d.val * 1048576 + a.val * 16384 + b.val * 256 + t.toNat * 128 + u.toNat * 64]
  | .fmin d a b t u => [1476395015 + d.val * 1048576 + a.val * 16384 + b.val * 256 + t.toNat * 128 + u.toNat * 64]
  | .fmax d a b t u => [1476395016 + d.val * 1048576 + a.val * 16384 + b.val * 256 + t.toNat * 128 + u.toNat * 64]
  | .fneg d a t => [1476395017 + d.val * 1048576 + a.val * 16384 + t.toNat * 128]
  | .fabs d a t => [1476395018 + d.val * 1048576 + a.val * 16384 + t.toNat * 128]
  | .fclass d a t => [1476395019 + d.val * 1048576 + a.val * 16384 + t.toNat * 128]
  | .fcmpEq d a b t u => [1476395020 + d.val * 1048576 + a.val * 16384 + b.val * 256 + t.toNat * 128 + u.toNat * 64]
  | .fcmpLt d a b t u => [1476395021 + d.val * 1048576 + a.val * 16384 + b.val * 256 + t.toNat * 128 + u.toNat * 64]
  | .fcmpLe d a b t u => [1476395022 + d.val * 1048576 + a.val * 16384 + b.val * 256 + t.toNat * 128 + u.toNat * 64]
  | .fcvtF32I64 d a t => [1543503872 + d.val * 1048576 + a.val * 16384 + t.toNat * 128]
  | .fcvtI64F32 d a t => [1543503873 + d.val * 1048576 + a.val * 16384 + t.toNat * 128]
  | .fcvtF32F16 d a t => [1543503874 + d.val * 1048576 + a.val * 16384 + t.toNat * 128]
  | .fcvtF16F32 d a t => [1543503875 + d.val * 1048576 + a.val * 16384 + t.toNat * 128]
  | .fcvtF32Bf16 d a t => [1543503876 + d.val * 1048576 + a.val * 16384 + t.toNat * 128]
  | .fcvtBf16F32 d a t => [1543503877 + d.val * 1048576 + a.val * 16384 + t.toNat * 128]
  | .fcvtF32Tf8 d a t => [1543503878 + d.val * 1048576 + a.val * 16384 + t.toNat * 128]
  | .fcvtTf8F32 d a t => [1543503879 + d.val * 1048576 + a.val * 16384 + t.toNat * 128]
  | .send d a b t u => [1610612736 + d.val * 1048576 + a.val * 16384 + b.val * 256 + t.toNat * 128 + u.toNat * 64]
  | .spawn d a b t u => [1610612737 + d.val * 1048576 + a.val * 16384 + b.val * 256 + t.toNat * 128 + u.toNat * 64]
  | .fill d a b t u => [1610612738 + d.val * 1048576 + a.val * 16384 + b.val * 256 + t.toNat * 128 + u.toNat * 64]
  | .trig a b t u => [1610612739 + a.val * 16384 + b.val * 256 + t.toNat * 128 + u.toNat * 64]
  | .ctrSet a b t u => [1610612740 + a.val * 16384 + b.val * 256 + t.toNat * 128 + u.toNat * 64]
  | .ctrRd d a t => [1610612741 + d.val * 1048576 + a.val * 16384 + t.toNat * 128]
  | .ctrMask a t => [1610612742 + a.val * 16384 + t.toNat * 128]
  | .ctrUnmask a t => [1610612743 + a.val * 16384 + t.toNat * 128]
  | .endThread => [1677721600]
  | .yield => [1677983744]
  | .selfId d => [1678245888 + d.val * 1048576]
  | .live k m => [1678508032 + k.val * 1048576 + m.toNat]
  | .gjoin d a t => [1744830464 + d.val * 1048576 + a.val * 16384 + t.toNat * 128]
  | .gleave d a t => [1744830465 + d.val * 1048576 + a.val * 16384 + t.toNat * 128]
  | .gbar a t => [1744830466 + a.val * 16384 + t.toNat * 128]
  | .garr d a t => [1744830467 + d.val * 1048576 + a.val * 16384 + t.toNat * 128]
  | .gwait a b t u => [1744830468 + a.val * 16384 + b.val * 256 + t.toNat * 128 + u.toNat * 64]
  | .gsize d a t => [1744830469 + d.val * 1048576 + a.val * 16384 + t.toNat * 128]
  | .grank d a t => [1744830470 + d.val * 1048576 + a.val * 16384 + t.toNat * 128]
  | .gstg d a b t u => [1744830471 + d.val * 1048576 + a.val * 16384 + b.val * 256 + t.toNat * 128 + u.toNat * 64]
  | .feClr d => [1811939328 + d.val * 1048576]
  | .feSet d => [1811939329 + d.val * 1048576]
  | .feTest d a => [1811939330 + d.val * 1048576 + a.val * 16384]
  | .pqPut a b t u => [1879048192 + a.val * 16384 + b.val * 256 + t.toNat * 128 + u.toNat * 64]
  | .pqTake d => [1879048193 + d.val * 1048576]
  | .pqDone a t => [1879048194 + a.val * 16384 + t.toNat * 128]
  | .pqCnt d => [1879048195 + d.val * 1048576]
  | .pqSteal d a => [1879048196 + d.val * 1048576 + a.val * 16384]
  | .fenceAcq sx => [1946157056 + sx.val]
  | .fenceRel sx => [1946157312 + sx.val]
  | .fenceAr sx => [1946157568 + sx.val]
  | .drain sx => [1946157824 + sx.val]
  | .semSig a t k => [1946158080 + a.val * 16384 + t.toNat * 8192 + k.val]
  | .semWait a t k => [1946158336 + a.val * 16384 + t.toNat * 8192 + k.val]
  | .tlRd d e k => [1946158592 + d.val * 1048576 + e.toNat * 16 + k.val]
  | .tlWait a t k => [1946158848 + a.val * 16384 + t.toNat * 8192 + k.val]
  | .tlWaitRel a t k => [1946159104 + a.val * 16384 + t.toNat * 8192 + k.val]
  | .cpsync => [1946159360]
  | .amoAdd d a r c w t => [2013265920 + d.val * 1048576 + a.val * 16384 + r.val * 4096 + c.val * 1024 + w.val * 256 + t.toNat * 128]
  | .amoAnd d a r c w t => [2013265921 + d.val * 1048576 + a.val * 16384 + r.val * 4096 + c.val * 1024 + w.val * 256 + t.toNat * 128]
  | .amoOr d a r c w t => [2013265922 + d.val * 1048576 + a.val * 16384 + r.val * 4096 + c.val * 1024 + w.val * 256 + t.toNat * 128]
  | .amoXor d a r c w t => [2013265923 + d.val * 1048576 + a.val * 16384 + r.val * 4096 + c.val * 1024 + w.val * 256 + t.toNat * 128]
  | .amoMin d a r c w t => [2013265924 + d.val * 1048576 + a.val * 16384 + r.val * 4096 + c.val * 1024 + w.val * 256 + t.toNat * 128]
  | .amoMax d a r c w t => [2013265925 + d.val * 1048576 + a.val * 16384 + r.val * 4096 + c.val * 1024 + w.val * 256 + t.toNat * 128]
  | .amoMinu d a r c w t => [2013265926 + d.val * 1048576 + a.val * 16384 + r.val * 4096 + c.val * 1024 + w.val * 256 + t.toNat * 128]
  | .amoMaxu d a r c w t => [2013265927 + d.val * 1048576 + a.val * 16384 + r.val * 4096 + c.val * 1024 + w.val * 256 + t.toNat * 128]
  | .amoSwap d a r c w t => [2013265928 + d.val * 1048576 + a.val * 16384 + r.val * 4096 + c.val * 1024 + w.val * 256 + t.toNat * 128]
  | .amoCas d a r c w t => [2013265929 + d.val * 1048576 + a.val * 16384 + r.val * 4096 + c.val * 1024 + w.val * 256 + t.toNat * 128]
  | .amoFadd d a r c t => [2013265930 + d.val * 1048576 + a.val * 16384 + r.val * 4096 + c.val * 1024 + t.toNat * 128]
  | .cwb a t => [2080374784 + a.val * 16384 + t.toNat * 8192]
  | .cinv a t => [2080375808 + a.val * 16384 + t.toNat * 8192]
  | .cinvI a t => [2080375809 + a.val * 16384 + t.toNat * 8192]
  | .cflush a t => [2080376832 + a.val * 16384 + t.toNat * 8192]
  | .resize n => [2080377856 + n.val]
  | .home => [2080378880]
  | .vaddInt v a b y p => [2147483648 + v.val * 2097152 + a.val * 65536 + b.val * 2048 + y.code * 256 + p.val * 32]
  | .vsubInt v a b y p => [2147483649 + v.val * 2097152 + a.val * 65536 + b.val * 2048 + y.code * 256 + p.val * 32]
  | .vmulInt v a b y p => [2147483650 + v.val * 2097152 + a.val * 65536 + b.val * 2048 + y.code * 256 + p.val * 32]
  | .vminInt v a b y p => [2147483651 + v.val * 2097152 + a.val * 65536 + b.val * 2048 + y.code * 256 + p.val * 32]
  | .vmaxInt v a b y p => [2147483652 + v.val * 2097152 + a.val * 65536 + b.val * 2048 + y.code * 256 + p.val * 32]
  | .vabsInt v a y p => [2147483653 + v.val * 2097152 + a.val * 65536 + y.code * 256 + p.val * 32]
  | .vnegInt v a y p => [2147483654 + v.val * 2097152 + a.val * 65536 + y.code * 256 + p.val * 32]
  | .vdot v a b p => [2147484935 + v.val * 2097152 + a.val * 65536 + b.val * 2048 + p.val * 32]
  | .vaddFp v a b y p => [2214592512 + v.val * 2097152 + a.val * 65536 + b.val * 2048 + y.code * 256 + p.val * 32]
  | .vsubFp v a b y p => [2214592513 + v.val * 2097152 + a.val * 65536 + b.val * 2048 + y.code * 256 + p.val * 32]
  | .vmulFp v a b y p => [2214592514 + v.val * 2097152 + a.val * 65536 + b.val * 2048 + y.code * 256 + p.val * 32]
  | .vfma v a b y p => [2214592515 + v.val * 2097152 + a.val * 65536 + b.val * 2048 + y.code * 256 + p.val * 32]
  | .vfms v a b y p => [2214592516 + v.val * 2097152 + a.val * 65536 + b.val * 2048 + y.code * 256 + p.val * 32]
  | .vfnma v a b y p => [2214592517 + v.val * 2097152 + a.val * 65536 + b.val * 2048 + y.code * 256 + p.val * 32]
  | .vdiv v a b y p => [2214592518 + v.val * 2097152 + a.val * 65536 + b.val * 2048 + y.code * 256 + p.val * 32]
  | .vsqrt v a y p => [2214592519 + v.val * 2097152 + a.val * 65536 + y.code * 256 + p.val * 32]
  | .vminFp v a b y p => [2214592520 + v.val * 2097152 + a.val * 65536 + b.val * 2048 + y.code * 256 + p.val * 32]
  | .vmaxFp v a b y p => [2214592521 + v.val * 2097152 + a.val * 65536 + b.val * 2048 + y.code * 256 + p.val * 32]
  | .vabsFp v a y p => [2214592522 + v.val * 2097152 + a.val * 65536 + y.code * 256 + p.val * 32]
  | .vnegFp v a y p => [2214592523 + v.val * 2097152 + a.val * 65536 + y.code * 256 + p.val * 32]
  | .vclass v a y p => [2214592524 + v.val * 2097152 + a.val * 65536 + y.code * 256 + p.val * 32]
  | .vand v a b y p => [2281701376 + v.val * 2097152 + a.val * 65536 + b.val * 2048 + y.code * 256 + p.val * 32]
  | .vor v a b y p => [2281701377 + v.val * 2097152 + a.val * 65536 + b.val * 2048 + y.code * 256 + p.val * 32]
  | .vxor v a b y p => [2281701378 + v.val * 2097152 + a.val * 65536 + b.val * 2048 + y.code * 256 + p.val * 32]
  | .vandn v a b y p => [2281701379 + v.val * 2097152 + a.val * 65536 + b.val * 2048 + y.code * 256 + p.val * 32]
  | .vshl v a b y p => [2281701380 + v.val * 2097152 + a.val * 65536 + b.val * 2048 + y.code * 256 + p.val * 32]
  | .vshr v a b y p => [2281701381 + v.val * 2097152 + a.val * 65536 + b.val * 2048 + y.code * 256 + p.val * 32]
  | .vsra v a b y p => [2281701382 + v.val * 2097152 + a.val * 65536 + b.val * 2048 + y.code * 256 + p.val * 32]
  | .vcmpEq q a b y p => [2348810240 + q.val * 2097152 + a.val * 65536 + b.val * 2048 + y.code * 256 + p.val * 32]
  | .vcmpNe q a b y p => [2348810241 + q.val * 2097152 + a.val * 65536 + b.val * 2048 + y.code * 256 + p.val * 32]
  | .vcmpLt q a b y p => [2348810242 + q.val * 2097152 + a.val * 65536 + b.val * 2048 + y.code * 256 + p.val * 32]
  | .vcmpLe q a b y p => [2348810243 + q.val * 2097152 + a.val * 65536 + b.val * 2048 + y.code * 256 + p.val * 32]
  | .vcmpGt q a b y p => [2348810244 + q.val * 2097152 + a.val * 65536 + b.val * 2048 + y.code * 256 + p.val * 32]
  | .vcmpGe q a b y p => [2348810245 + q.val * 2097152 + a.val * 65536 + b.val * 2048 + y.code * 256 + p.val * 32]
  | .vsel v a b y p => [2348810248 + v.val * 2097152 + a.val * 65536 + b.val * 2048 + y.code * 256 + p.val * 32]
  | .vperm v a b y p => [2415919104 + v.val * 2097152 + a.val * 65536 + b.val * 2048 + y.code * 256 + p.val * 32]
  | .vslide v a b y p => [2415919105 + v.val * 2097152 + a.val * 65536 + b.val * 2048 + y.code * 256 + p.val * 32]
  | .vzip v a b y p => [2415919106 + v.val * 2097152 + a.val * 65536 + b.val * 2048 + y.code * 256 + p.val * 32]
  | .vunzip v a b y p => [2415919107 + v.val * 2097152 + a.val * 65536 + b.val * 2048 + y.code * 256 + p.val * 32]
  | .vredsum d a y p => [2483027968 + d.val * 2097152 + a.val * 65536 + y.code * 256 + p.val * 32]
  | .vredmax d a y p => [2483027969 + d.val * 2097152 + a.val * 65536 + y.code * 256 + p.val * 32]
  | .vredmin d a y p => [2483027970 + d.val * 2097152 + a.val * 65536 + y.code * 256 + p.val * 32]
  | .vcvt v a y p sx => [2550136832 + v.val * 2097152 + a.val * 65536 + y.code * 256 + p.val * 32 + sx.code]
  | .pand q r sx y p => [2617245696 + q.val * 2097152 + r.val * 65536 + sx.val * 2048 + y.code * 256 + p.val * 32]
  | .por q r sx y p => [2617245697 + q.val * 2097152 + r.val * 65536 + sx.val * 2048 + y.code * 256 + p.val * 32]
  | .pxor q r sx y p => [2617245698 + q.val * 2097152 + r.val * 65536 + sx.val * 2048 + y.code * 256 + p.val * 32]
  | .pnot q r y p => [2617245699 + q.val * 2097152 + r.val * 65536 + y.code * 256 + p.val * 32]
  | .pcnt d r y p => [2617245700 + d.val * 2097152 + r.val * 65536 + y.code * 256 + p.val * 32]
  | .pfirst d r y p => [2617245701 + d.val * 2097152 + r.val * 65536 + y.code * 256 + p.val * 32]
  | .pset q y p => [2617245702 + q.val * 2097152 + y.code * 256 + p.val * 32]
  | .vldp v a t o => [2684354560 + v.val * 1048576 + a.val * 16384 + t.toNat * 8192 + o.toNat]
  | .vstp v a t o => [2684355584 + v.val * 1048576 + a.val * 16384 + t.toNat * 8192 + o.toNat]
  | .vstpNt v a t o => [2684356608 + v.val * 1048576 + a.val * 16384 + t.toNat * 8192 + o.toNat]
  | .vldpx v a t x e => [2684357632 + v.val * 1048576 + a.val * 16384 + t.toNat * 8192 + x.val * 32 + e.val * 8]
  | .vstpx v a t x e => [2684358656 + v.val * 1048576 + a.val * 16384 + t.toNat * 8192 + x.val * 32 + e.val * 8]
  | .vbcast v sx y p => [2751463424 + v.val * 2097152 + sx.val * 65536 + y.code * 256 + p.val * 32]
  | .vext d a sx y => [2751463425 + d.val * 2097152 + a.val * 65536 + sx.val * 2048 + y.code * 256]
  | .vins v sx i y p => [2751463426 + v.val * 2097152 + sx.val * 65536 + i.val * 2048 + y.code * 256 + p.val * 32]
  | .mown => [2818572288]
  | .mfree => [2818572289]
  | .mshape d => [2818572290 + d.val * 1048576]
  | .mmapRd d a t => [2818572291 + d.val * 1048576 + a.val * 16384 + t.toNat * 128]
  | .cist d a b t u => [2885681152 + d.val * 1048576 + a.val * 16384 + b.val * 256 + t.toNat * 128 + u.toNat * 64]
  | .cerrRd d a t => [2885681153 + d.val * 1048576 + a.val * 16384 + t.toNat * 128]
  | .cistLd a b t u => [2885681154 + a.val * 16384 + b.val * 256 + t.toNat * 128 + u.toNat * 64]
  | .sys c => [2952790016 + c.val]
  | .brk c => [2952791040 + c.val]
  | .rdsr d n => [2952792064 + d.val * 1048576 + n.val]
  | .wrsr a t n => [2952793088 + a.val * 16384 + t.toNat * 8192 + n.val]
  | .rte => [2952794112]
  | .tlbInv a t => [2952795136 + a.val * 16384 + t.toNat * 8192]
  | .ctxKill d a t => [2952796160 + d.val * 1048576 + a.val * 16384 + t.toNat * 8192]
  | .sig i => [3019898880 + i.toNat]
  | .ckpt d a => [3020161024 + d.val * 1048576 + a.val]
  | .cpPush c => encodeCmd 0 0 c
  | .cpPushAdd c => encodeCmd 0 0 c
  | .cpFill c => encodeCmd 0 1 c
  | .cpX24 c => encodeCmd 0 2 c
  | .cpC24 c => encodeCmd 0 3 c
  | .mma c => encodeCmd 1 0 c
  | .mmb c => encodeCmd 1 1 c
  | .mzero c => encodeCmd 1 2 c
  | .mld c => encodeCmd 1 3 c
  | .mst c => encodeCmd 1 4 c
  | .colRed c => encodeCmd 2 0 c
  | .colRs c => encodeCmd 2 1 c
  | .colMc c => encodeCmd 2 2 c
  | .mtest c => encodeCmd 3 0 c
  | .mremap c => encodeCmd 3 1 c
  | _ => []

end Sys2Proof
end

