-- ==== Sys2Proof/Config.lean ====
section
/-! DEFINITION. What an implementation fixes and the values the spec leaves open: constants without a body, so that no proof sees them. -/

namespace Sys2Proof.Config

/-- Which of the enabled events or cores goes next, where the spec gives no order; applied to the state's counter. -/
opaque choice : Nat → Nat

/-- How many core cycles a step takes (timing is left open); applied to the state's counter. -/
opaque ticks : Nat → Nat

/-- A value the spec leaves open, 64 bits; applied to the state's counter. -/
opaque value : Nat → Word

/-- What a table walk finds in an entry whose sector is uncorrectable, or whose cube is lost (R220, R423), which the spec does not say; applied to the entry's address and the state's counter. -/
opaque badEntry : Nat → Nat → Nat

/-- The pc of the firmware's own trap and steward handlers (R359, R368), a resident program the spec does not give. -/
opaque firmwareVector : Word

/-- SHA-512 of a message, as a number (R482): the spec names the function and does not define it. -/
opaque sha512 : List Byte → Nat

/-- Whether an ECDSA P-521 signature verifies under a key (R482): named and not defined by the spec. -/
opaque ecdsaVerify : Nat → List Byte → List Byte → Bool

/-- The ECDSA P-521 signature of a message under a private key (R484). -/
opaque ecdsaSign : Nat → List Byte → List Byte

/-- Fuse contents of the part (R481, R484, R486): serial number, keys and limits, by fuse number. -/
opaque fuse : Nat → Nat

/-- Field i of a board or repair record (R415, R482, R483, R485), whose layout the spec does not give. -/
opaque record : List Byte → Nat → Nat

/-- Package power in watts and the hottest die's temperature at a measurement (R479, R485); applied to the state's counter. -/
opaque power : Nat → Nat

/-- The physical defects that a self-test of a tile finds (R324): row, column, and class 0 cell, 1 row path or 2 column path; applied to the tile and the state's counter. -/
opaque defects : Nat → Nat → List (Nat × Nat × Nat)

/-- The shipped micro-word at an address of the cistern control store (R340, R351), which the spec does not list. -/
opaque microWord : Nat → Nat

/-- The start micro-address of a shipped cistern entry (R351), which the spec does not list. -/
opaque entryStart : Nat → Nat

/-- Whether a shipped cistern entry uses the micro-word at an address (R347, R351), which the spec does not list. -/
opaque entryUses : Nat → Nat → Bool

end Sys2Proof.Config
end

