-- ==== Sys2Proof/Machine/State.lean ====
section
/-! DEFINITION. The state of one KC-384 cube as plain data, and the state right after a cold reset. -/

namespace Sys2Proof.Machine

/-- Why the machine stops.
Raised by `step` alone. -/
inductive Fault where
  /-- The rails are down (R478): nothing runs until power returns.
  Raised by `step` when the cube has no power and no input waits; safe, the spec gives a cube without power no steps. -/
  | powerOff
  deriving DecidableEq, Repr

/-- Why an instruction has no meaning.
Raised by `exec` alone, and by no arm of the finished model; safe. -/
inductive Refusal where
  /-- The instruction of that mnemonic is not modelled yet; safe. -/
  | notModelled (mnemonic : String)
  deriving DecidableEq, Repr

/-- A sparse map: keys strictly rising, and no entry equal to the map's default. -/
abbrev SMap (α : Type) := List (Nat × α)

/-- The three states of a scalar register (R9). -/
inductive FE where
  | full
  | pending
  | idle
  deriving DecidableEq, Repr

/-- A scalar register: value, full/empty state and poison mark (R8, R9, R365). -/
structure Cell where
  val    : Word
  st     : FE
  poison : Bool
  deriving DecidableEq, Repr

/-- The register an allocation leaves: zero, full, no mark (R117). -/
def Cell.zero : Cell := ⟨0, .full, false⟩

/-- One frame of the hardware loops (R82). -/
structure Frame where
  start : Word
  stop  : Word
  left  : Word
  deriving DecidableEq, Repr

/-- The three privilege levels (R26). -/
inductive Priv where
  | user
  | supervisor
  | firmware
  deriving DecidableEq, Repr

/-- Why a context is parked or waits in the issue stage, with what ends the wait. DESIGN CHOICE, safe: log entry 21. -/
inductive Park where
  /-- An empty source register (R10). -/
  | reg (r : Reg)
  /-- A destination whose producer is in flight (R11). -/
  | dest (r : Reg)
  /-- An empty `pin` queue, or a head entry not yet filled (R62, R77). -/
  | pin
  /-- No free entry in the `pout` queue (R63). -/
  | pout
  /-- An empty `up` queue (R149). -/
  | up
  /-- A full `dn` queue (R149). -/
  | dn
  /-- Memory requests that have to be performed first (R237, R240). -/
  | reqs (ids : List Nat)
  /-- A page walk in progress for the tenant's page (R223). -/
  | walk (tenant page : Nat)
  /-- A free miss slot of the core's translation cache (R223). -/
  | missSlot
  /-- The release of a generation of a group (R152, R153). -/
  | gen (tenant group g : Nat)
  /-- A semaphore of the tile (R276). -/
  | sem (tile k : Nat)
  /-- A timeline's done-value (R271, R272). -/
  | timeline (k n : Nat)
  /-- At most so many open commands on a timeline (R272). -/
  | timelineOpen (k m : Nat)
  /-- The dispatch ring and the thread's coprocessor work (R188). -/
  | cpsync
  /-- Room in an engine queue (R58). -/
  | engine (cls : EngClass)
  /-- Room in the vector queue and the dispatch ring, and an idle repetition buffer (R181, R186, R202). -/
  | vector
  /-- The writers of partner vector registers that the scratch list names (R230). -/
  | writers
  /-- The vector bank of that context still belongs to a pre-empted thread (R375). -/
  | bank (k : Nat)
  /-- Started activations of a counter of this core (R126). -/
  | counterEnds (idx : Nat)
  /-- A counter of this core with 127 pending activations (R140). -/
  | counterRoom (idx : Nat)
  /-- A free slot in the tile's parcel queue (R163). -/
  | parcelSlot
  /-- A parcel the tile meets (R164). -/
  | parcel
  /-- A hold of the tile store (R214). -/
  | hold
  /-- The tile's matrix array (R294). -/
  | array
  /-- The thread's own matrix commands (R295). -/
  | commands
  /-- Room in the vault's invocation queue (R337). -/
  | cisternRoom
  /-- The vault's running invocations (R353). -/
  | cisterns
  /-- The answer to a relocation packet (R226). -/
  | reloc
  /-- A moth that has to return home before it goes on (R228, R361). -/
  | homeward
  /-- The thread is away as a moth; the context is held (R226). -/
  | away
  /-- The pending producers, timelines and partner accesses of the thread (R119, R225). -/
  | drained
  /-- A line held by a launch guard, met by an access to an address (R260). -/
  | guard (line va : Nat)
  /-- An instruction-cache or tile-store action that is retried when the named event has run (R375, R397). -/
  | event (k : Nat)
  deriving DecidableEq, Repr

/-- One timeline of a context: commands issued, commands done, and completed numbers ahead of the done-value (R268, R269). -/
structure Timeline where
  issued : Nat
  done   : Nat
  ahead  : List Nat
  deriving DecidableEq, Repr

/-- The activation that started a thread: its counter, its identity and its messages (R118, R130). -/
structure Activation where
  counter : Nat
  aid     : Nat
  msgs    : Nat
  deriving DecidableEq, Repr

/-- Where a moth came from (R226). -/
structure MothHome where
  cube : Nat
  core : Nat
  ctx  : Nat
  deriving DecidableEq, Repr

/-- A late fault found for a dispatch: cause, subcode and value (R187, R290, R316, R349). -/
structure Late where
  cause : Nat
  sub   : Nat
  val   : Word
  deriving DecidableEq, Repr

/-- A trap that waits for a moth's return (R361): what the entry at home writes. -/
structure HomeTrap where
  cause : Nat
  sub   : Nat
  val   : Word
  tpc   : Word
  seq   : Nat
  late  : Bool
  deriving DecidableEq, Repr

/-- An entry of a core's dispatch ring (R186), with the thread it belongs to and the late fault it records. -/
structure RingEntry where
  agent  : Nat
  ctx    : Nat
  name   : Nat
  tenant : Nat
  seq    : Nat
  pass   : Nat
  pc     : Word
  word   : Nat
  kind   : Nat
  user   : Bool
  fault  : Option Late
  orphan : Bool
  deriving DecidableEq, Repr

/-- One context and the thread in it (R8, R14, R15, R116, R117, R356). -/
structure Ctx where
  /-- A thread occupies the context (R116). -/
  occ     : Bool
  /-- The model's own: the identity of the thread, the same wherever it runs. -/
  uid     : Nat
  /-- The thread's endpoint name (R133). -/
  name    : Nat
  tenant  : Nat
  job     : Nat
  /-- The launch id that `rdsr` reads (R15), and the launch's identity in the model, 0 for none. -/
  lid     : Nat
  launch  : Nat
  priv    : Priv
  pc      : Word
  regs    : SMap Cell
  live    : Word
  vlive   : Word
  fmode   : Word
  fflags  : Word
  dseq    : Nat
  loops   : List Frame
  shadow  : List Frame
  sig     : BitVec 16
  sigctl  : Word
  tcause  : Word
  tpc     : Word
  tval    : Word
  tseq    : Word
  tsub    : Word
  ctxsel  : Word
  chain   : Word
  rect    : Word
  park    : Option Park
  /-- Order in which contexts parked, for the victim of a spill (R144). -/
  since   : Nat
  /-- The thread executes `end` (R119). -/
  ending  : Bool
  prio    : Nat
  starve  : Nat
  /-- Core cycle at which the context last issued (R370). -/
  issued  : Nat
  /-- The watchdog has fired for this parking (R370). -/
  barked  : Bool
  act     : Option Activation
  tls     : SMap Timeline
  groups  : List Nat
  /-- Where a moth came from (R226). -/
  home    : Option MothHome
  /-- The access at pc is made as an ordinary access after a refused relocation (R227). -/
  stay    : Bool
  /-- A walk for this page failed with this subcode and is reported when the access is made again (R366). -/
  xfault  : Option (Nat × Nat)
  /-- A trap that a moth takes once it is home (R361). -/
  trapHome : Option HomeTrap
  /-- The handler's first instruction has not been fetched yet (R361). -/
  entering : Bool
  /-- The thread is to be terminated at its next instruction boundary (R379). -/
  dying   : Bool
  /-- PREEMPT has stopped the thread (R372), since this cycle. -/
  stopped : Option Nat
  /-- Scratch of the instruction that is waiting: the ids and values it has already obtained. -/
  memo    : List Nat
  deriving DecidableEq, Repr

/-- A timeline at allocation (R117, R268). -/
def Timeline.zero : Timeline := ⟨0, 0, []⟩

/-- A free context: what every context is after reset (R117; see log entry 2). -/
def Ctx.free : Ctx :=
  { occ := false, uid := 0, name := 0, tenant := 0, job := 0, lid := 0, launch := 0, priv := .user, pc := 0, regs := []
    live := BitVec.allOnes 64, vlive := 0, fmode := 0, fflags := 0, dseq := 0, loops := [], shadow := []
    sig := 0, sigctl := 0, tcause := 0, tpc := 0, tval := 0, tseq := 0, tsub := 0
    ctxsel := 0, chain := 0, rect := 0, park := none, since := 0, ending := false, prio := 0, starve := 0
    issued := 0, barked := false, act := none, tls := [], groups := [], home := none, stay := false
    xfault := none, trapHome := none, entering := false, dying := false, stopped := none, memo := [] }

/-- A pending activation: its identity, messages and, for the launch counter, the launch's own entry, priority and thread data (R129, R172). -/
structure PendAct where
  aid    : Nat
  msgs   : Nat
  first  : Nat
  entry  : Word
  prio   : Nat
  tenant : Nat
  job    : Nat
  launch : Nat
  group  : Nat
  rect   : Word
  byLaunch : Bool
  /-- The model's own: the identity that the thread of a launch will have, under which it is a member of the launch's group from the commit on; 0 for none. -/
  uid    : Nat
  deriving DecidableEq, Repr

/-- A trigger counter (R124). `ring` lists the occupied mailbox slots from the head: the activation that owns each, 0 for none yet, and whether it is released (R130). -/
structure Counter where
  owner   : Option Nat
  count   : Nat
  reload  : Nat
  entry   : Word
  prio    : Nat
  base    : Nat
  cap     : Nat
  mask    : Bool
  head    : Nat
  ring    : List (Nat × Bool)
  pending : List PendAct
  /-- Activations that have started and not ended (R126). -/
  running : List Nat
  /-- COUNTER-RELEASE ungrants it once its running activations have ended (R369). -/
  releasing : Bool
  deriving DecidableEq, Repr

/-- A counter at the cube's reset (R124). -/
def Counter.zero : Counter :=
  { owner := none, count := 0, reload := 0, entry := 0, prio := 0, base := 0, cap := 1, mask := true
    head := 0, ring := [], pending := [], running := [], releasing := false }

/-- What a packet asks at its destination (R129, R138, R139, R169, R369, R463). -/
inductive PktKind where
  | message
  | spawn
  | fill
  deriving DecidableEq, Repr

/-- A message packet inside the cube or on its way to another (R134 to R142). -/
structure Packet where
  /-- The model's own identity of the packet in this cube. -/
  id     : Nat
  kind   : PktKind
  /-- The long-latency request that receives the status, at the sender (R137). -/
  req    : Nat
  /-- The sender's cube, core and endpoint. -/
  scube  : Nat
  score  : Nat
  src    : Nat
  tenant : Nat
  job    : Nat
  hdr    : Word
  words  : List Word
  /-- Where the packet stands or goes next. -/
  cube   : Nat
  core   : Nat
  hops   : Nat
  /-- The directory's home on another cube has been asked (R134). -/
  asked  : Bool
  /-- The counter it goes to, plus one, once a counter endpoint is resolved; 1000 for the launch unit (R134, R169). -/
  target : Nat
  /-- A message that has been accepted already, as stored: it waits until its counter takes it (R377). -/
  firm   : List Word
  deriving DecidableEq, Repr

/-- A line of the combining buffer (R233): context, physical line, valid bytes and when it was last written. -/
structure NtLine where
  core  : Nat
  ctx   : Nat
  agent : Nat
  launch : Nat
  line  : Nat
  bytes : List (Nat × Byte)
  when_ : Nat
  tenant : Nat
  attr  : Nat
  deriving DecidableEq, Repr

/-- An event in a steward's queue (R368, R369, R370). -/
structure StewEvent where
  tenant : Nat
  /-- Handled by the firmware's resident handler. -/
  fw     : Bool
  cause  : Nat
  sub    : Nat
  val    : Word
  orphan : Bool
  seq    : Nat
  words  : List Word
  /-- The command index, sender and reply data of a steward command. -/
  cmd    : Nat
  src    : Nat
  deriving DecidableEq, Repr

/-- A forwarding stub (R135). -/
structure Stub where
  name  : Nat
  cube  : Nat
  core  : Nat
  taken : Nat
  deriving DecidableEq, Repr

/-- A line of an instruction cache: physical line and its bytes when it was filled (R24). -/
structure ILine where
  line  : Nat
  bytes : List Byte
  deriving DecidableEq, Repr

/-- One core (R123, R131, R134, R135, R186, R368). -/
structure CoreSt where
  ring    : List RingEntry
  last    : SMap Nat
  /-- The last context of each class for which the vector unit started work (R182). -/
  vlast   : SMap Nat
  lastCtr : SMap Nat
  gens    : SMap Nat
  icache  : List ILine
  dir     : SMap Nat
  stubs   : List Stub
  queue   : List StewEvent
  waiting : List StewEvent
  event   : Option StewEvent
  prevTen : Option Nat
  compare : SMap Nat
  limit   : SMap Nat
  deriving DecidableEq, Repr

/-- A core right after reset. -/
def CoreSt.zero : CoreSt :=
  { ring := [], last := [], vlast := [], lastCtr := [], gens := [], icache := [], dir := [], stubs := [], queue := []
    waiting := [], event := none, prevTen := none, compare := [], limit := [] }

/-- An entry of a translation cache (R223): tenant, page address, page size, frame and the leaf's bits [15:0]. -/
structure TlbEntry where
  tenant : Nat
  page   : Nat
  size   : Nat
  pa     : Nat
  attr   : Nat
  deriving DecidableEq, Repr

/-- A page walk in progress or queued (R224): the translation caches and contexts it answers. -/
structure Walk where
  tenant  : Nat
  va      : Nat
  tlbs    : List Nat
  waiters : List Nat
  /-- Addresses that `tlb.inv` has named meanwhile: a leaf whose page holds one installs nothing, and the walk is made again (R367). -/
  stale   : List Nat
  /-- An entry has been asked of another cube. -/
  asked   : Bool
  deriving DecidableEq, Repr

/-- A line of a tile cache: its place, its physical line number, and valid and dirty bits per sector (R212). -/
structure CLine where
  way   : Nat
  set   : Nat
  line  : Nat
  valid : Nat
  dirty : Nat
  /-- Attributes (and with them the tenant) of the access that filled or last wrote it, and its launch, for write-backs (R394). -/
  attr  : Nat
  launch : Nat
  deriving DecidableEq, Repr

/-- Atomic operations (R239). -/
inductive AmoOp where
  | add | and | or | xor | min | max | minu | maxu | swap | cas | fadd
  deriving DecidableEq, Repr

/-- What a memory request in flight does when it is performed. -/
inductive ReqKind where
  /-- Reads `size` bytes at the home. -/
  | load
  /-- Fetches a line into the tile cache and answers a load from it (R212). -/
  | fill
  /-- Writes bytes at the home (R394). -/
  | store
  /-- A partial store that first fetches its sector into the tile cache (R212). -/
  | storeFill
  /-- A write-back of dirty sectors (R212). -/
  | writeBack
  /-- An atomic at the home (R239). -/
  | amo (op : AmoOp)
  /-- A status or result that an event delivers: messages, groups, steals, kills, checkpoints, cisterns (R9). -/
  | status
  deriving DecidableEq, Repr

/-- How a loaded value is widened into its register (R73). -/
structure Widen where
  bytes  : Nat
  signed : Bool
  deriving DecidableEq, Repr

/-- Where a result goes. -/
inductive Dest where
  | none
  | reg (r : Reg) (w : Widen)
  /-- Two consecutive registers (`amo.cas.q`, R239). -/
  | pair (r : Reg)
  /-- A reserved entry of a partner queue, or of a chain queue, of a context (R63, R77). -/
  | queue (chain : Bool) (k : Nat) (w : Widen)
  /-- Bytes of a partner vector register, from an offset on (R230, R232). -/
  | vec (core ctx v off : Nat)
  /-- A line of an instruction cache (R24). -/
  | ifill (core line : Nat)
  deriving DecidableEq, Repr

/-- A long-latency producer or a write in flight (R9, R74, R245). DESIGN CHOICE, safe: log entry 19. -/
structure Req where
  id     : Nat
  /-- The first of the requests of one vector access; its own id otherwise (R230). -/
  grp    : Nat
  kind   : ReqKind
  /-- The owning agent: a thread's identity, and the core and context it issued from (R244). -/
  core   : Nat
  ctx    : Nat
  agent  : Nat
  tenant : Nat
  launch : Nat
  dest   : Dest
  pa     : Nat
  size   : Nat
  /-- The bytes to write; for a load, those of the combining buffer; once sampled, those read. -/
  data   : List Byte
  /-- Byte lanes that `data` holds, by offset from pa (R233, R234). -/
  mask   : List Nat
  /-- The value has been read and only its delivery is left; with a poison mark or not. -/
  sampled : Bool
  poison  : Bool
  attr   : Nat
  user   : Bool
  /-- The core cycle at which it started to wait at a held line (R260). -/
  since  : Nat
  /-- An atomic with an acquire: its scope plus one; 0 without (R240). -/
  acq    : Nat
  /-- Homed on another cube or in host memory; and sent there. -/
  remote : Bool
  sent   : Bool
  /-- A store for the tile cache that goes on home as its sector's write-back, since a release or write-back of its line came after it (R237, R242). -/
  through : Bool := false
  /-- The pc of the instruction, for the trap of a store that waits on a held line (R260). -/
  pc     : Word
  /-- A partner vector store (R230). -/
  pv     : Bool := false
  /-- A write-out of the combining buffer (R234, R235). -/
  nt     : Bool := false
  /-- The address that the instruction gave, and whether the home has turned the write away after 1 ms at a held line, so that the thread is to trap (R260). -/
  va     : Nat := 0
  denied : Bool := false
  deriving DecidableEq, Repr

/-- An entry of a partner or chain queue (R148, R149): reserved entries are not filled yet. -/
structure QEnt where
  id     : Nat
  filled : Bool
  val    : Word
  poison : Bool
  deriving DecidableEq, Repr

/-- A vector register (R177). -/
structure VCell where
  val    : BitVec 1024
  poison : Bool
  deriving DecidableEq, Repr

/-- The vector and predicate registers of an E-core context (R177), with the pre-empted thread they still belong to (R372, R375). -/
structure VBank where
  v   : SMap VCell
  p   : SMap (BitVec 128)
  tag : Option Nat
  /-- A partner access has cleared the bank of a free context (R230). -/
  fresh : Bool
  /-- Registers whose parity no longer fits: v by number, p by 32 plus number (R187, R407). -/
  bad   : SMap Bool
  deriving DecidableEq, Repr

/-- A bank as an allocation leaves it (R117). -/
def VBank.zero : VBank := ⟨[], [], none, false, []⟩

/-- What a started vector instruction or pass will write when it completes (R183). -/
structure VOut where
  v      : Option (Nat × BitVec 1024)
  p      : Option (Nat × BitVec 128)
  s      : Option (Nat × Word)
  flags  : Nat
  fault  : Option Nat
  deriving DecidableEq, Repr

/-- A dispatched vector instruction or a pass that the repetition buffer has handed on (R179, R181, R202). -/
structure VOp where
  id      : Nat
  core    : Nat
  ctx     : Nat
  agent   : Nat
  seq     : Nat
  pc      : Word
  instr   : Instr
  /-- Scalar operands read at dispatch (R181); none for a pass, which reads them at its start. -/
  scalars : List Word
  isPass  : Bool
  /-- Its place among the dispatches of its bank: its own identity, or the repetition's. -/
  ord     : Nat
  /-- The rounding mode at its dispatch (R103). -/
  rm      : Nat
  out     : Option VOut
  deriving DecidableEq, Repr

/-- A repetition buffer (R199 to R203): the `rep` word, its body, the passes and the numbers reserved. -/
structure Rep where
  key    : Nat
  word   : Nat
  pc     : Word
  n      : Nat
  body   : List Nat
  stride : Nat
  fields : Nat
  window : Nat
  pass   : Nat
  pos    : Nat
  seq0   : Nat
  id     : Nat
  rm     : Nat
  /-- Dispatched in user mode (R363). -/
  user   : Bool
  deriving DecidableEq, Repr

/-- A spilled, held or arriving thread: its metadata; live registers and the rest of R145 stand in its slot's bytes (R143 to R147, R371 to R377, R226). -/
structure Stored where
  core   : Nat
  /-- The core on which it competes for a context: its own, or the one that RESUME names (R377). -/
  goal   : Nat
  /-- The spill slot, or the first of a frame's pair; 24 for a thread in a relocation inbox, 25 for one in a relocation packet on its way. -/
  slot   : Nat
  /-- A pre-emption frame (R373). -/
  frame  : Bool
  /-- Not to be reloaded before RESUME (R371). -/
  held   : Bool
  /-- Ready to be reloaded (R146). -/
  ready  : Bool
  /-- The register it parked on, 0 for none. -/
  reg    : Nat
  /-- The packet brings the thread back to its held home context (R228). -/
  ret    : Bool
  /-- The context's key whose save record is the thread's (R374). -/
  recOf  : Nat
  /-- The job ids of the messages in the save record's buffer (R376). -/
  msgs   : List Nat
  /-- The `pin` entries in the save record (R374). -/
  pins   : Nat
  /-- Vector instructions that have not started, and a repetition, which wait while the thread is held (R374, R375). -/
  vops   : List VOp
  rep    : Option Rep
  ctx    : Ctx
  deriving DecidableEq, Repr



/-- A parcel in a tile's queue (R161, R162). -/
inductive PState where
  | queued
  | taken (by_ : Nat)
  | lent (thief tile lend due : Nat)
  /-- Reserved for a steal on its way (R463): its request. -/
  | held (req : Nat)
  deriving DecidableEq, Repr

/-- Where a borrowed parcel came from: the owner's cube, launch id, tile and slot, and the lend's number and expiry (R464 to R466). -/
structure Loan where
  cube : Nat
  lid  : Nat
  tile : Nat
  slot : Nat
  lend : Nat
  due  : Nat
  deriving DecidableEq, Repr

/-- A parcel: its slot, entry word and software word, and the cube and slot it was borrowed from (R161, R463). -/
structure Parcel where
  slot   : Nat
  e      : Word
  p      : Word
  st     : PState
  order  : Nat
  /-- The core cycle at which it became QUEUED (R464). -/
  since  : Nat
  owner  : Nat
  borrowed : Option Loan
  launch : Nat
  deriving DecidableEq, Repr

/-- One recorded barrier instance (R155): its generation and, by rank, one more than the arrival offset. -/
structure Crossing where
  gen  : Nat
  offs : SMap Nat
  deriving DecidableEq, Repr

/-- A member of a group: its rank and the thread (or cube) that holds it (R150). -/
structure Member where
  rank : Nat
  who  : Nat
  /-- The first generation that expects the member (R152). -/
  since : Nat
  deriving DecidableEq, Repr

/-- A group (R150 to R157, R432). -/
structure Group where
  tenant  : Nat
  handle  : Nat
  members : List Member
  gen     : Nat
  /-- The current generation is open, since this time. -/
  opened  : Option Nat
  /-- Opened by `ckpt` (R397). -/
  cut     : Bool
  /-- Arrivals in the open generation: rank, and one more than the offset; 2^32 for a member that left. -/
  arrived : SMap Nat
  record  : List Crossing
  t       : Nat
  l       : Nat
  m       : Nat
  /-- Member cubes of a multi-cube group, by rank; empty for a single-cube group (R432); and this cube's rank. -/
  cubes   : List Nat
  rank    : Nat
  /-- The group is live; when its creation began (R432). -/
  live    : Bool
  since   : Nat
  /-- Replies owed when it goes live: sender, tenant's reply endpoint and the handle (R432). -/
  replies : List Nat
  /-- Cubes whose arrival in the generation has come up the tree (R434). -/
  cubesIn : SMap Nat
  /-- A cut generation (R397, R398): the first descriptor's base and share, the producers of the waiting `ckpt`s, the checkpoint's number,
  the result's status, how far the order has gone in a multi-cube group (1 ordered, 2 made here, 3 acknowledged), and the children that have acknowledged. -/
  cutBase  : Nat
  cutShare : Nat
  cutReqs  : List Nat
  cutK     : Nat
  cutStat  : Nat
  cutPhase : Nat
  cutAcks  : List Nat
  deriving DecidableEq, Repr

/-- Where a command word stands (R58, R267, R306). -/
inductive CmdSt where
  | queued
  | started
  deriving DecidableEq, Repr

/-- A command word in an engine's queue or in progress (R56, R57, R267). -/
structure Cmd where
  id     : Nat
  cls    : EngClass
  /-- The tile, or 128 plus the vault, of the engine. -/
  unit   : Nat
  opc    : Nat
  core   : Nat
  ctx    : Nat
  agent  : Nat
  name   : Nat
  tenant : Nat
  job    : Nat
  launch : Nat
  user   : Bool
  tl     : Nat
  num    : Nat
  seq    : Nat
  flags  : Nat
  slots  : List Word
  st     : CmdSt
  /-- Its wait field has joined the semaphore's order, or has been taken (R307). -/
  waited : Nat
  /-- The 64-bit quarters of the queue entry with an odd number of flipped bits, one bit each (R331). -/
  flip   : Nat
  /-- The issuer's requests that the command reads behind (R253). -/
  after  : List Nat
  /-- Element positions done so far, for a push that proceeds (R281). -/
  pos    : Nat
  fault  : Option Late
  /-- What a started command holds until it completes. -/
  work   : List Nat
  /-- Scratch ranges a started matrix command reads: offset and length (R317). -/
  ranges : List (Nat × Nat)
  /-- Scratch sectors, by offset, bytes and mark: those that the present pass of an `mma` has read, or those of a plane record that a push has still to write (R302, R317). -/
  secs   : List (Nat × List Byte × Bool) := []
  deriving DecidableEq, Repr

/-- A waiter in a semaphore's order (R276): a context's key, or a command's id. -/
structure SemWait where
  isCmd : Bool
  who   : Nat
  n     : Nat
  deriving DecidableEq, Repr

/-- A semaphore: its value, its waiting order, and contexts whose wait has been taken (R274, R276). -/
structure Sem where
  val   : Nat
  order : List SemWait
  taken : List Nat
  deriving DecidableEq, Repr

/-- A semaphore at commit (R274). -/
def Sem.zero : Sem := ⟨0, [], []⟩

/-- A tenant on this cube (R356, R380, R456). DESIGN CHOICE, unsafe: log entry 66. -/
structure Tenant where
  live   : Bool
  tvec   : Word
  xroot  : Word
  spill  : Word
  /-- Grantable tiles, one bit each (R158). -/
  tiles  : Nat
  /-- The part of the tenant's endpoint directory that this cube holds: counter and moved thread names (R133, R134). -/
  dir    : SMap Nat
  deriving DecidableEq, Repr

/-- A tenant that does not exist. -/
def Tenant.zero : Tenant := { live := false, tvec := 0, xroot := 0, spill := 0, tiles := 0, dir := [] }

/-- A region of the stripe map: dwords 0 to 2 of its descriptor (R425). -/
structure Stripes where
  valid   : Bool
  perm    : Bool
  k       : Nat
  base    : Nat
  n       : Nat
  setbase : Nat
  size    : Nat
  lb      : Nat
  deriving DecidableEq, Repr

/-- No region. -/
def Stripes.zero : Stripes := ⟨false, false, 0, 0, 0, 0, 0, 0⟩

/-- A region descriptor with dword 3 and, while it moves, the next descriptor beside it (R425, R428). -/
structure Region where
  cur    : Stripes
  next   : Option Stripes
  cursor : Nat
  moving : Bool
  gen    : Nat
  /-- The stripe at the cursor is frozen, and so many bytes of it have been copied (R429). -/
  frozen : Bool
  copied : Nat
  deriving DecidableEq, Repr

/-- No region. -/
def Region.zero : Region := ⟨Stripes.zero, none, 0, false, 0, false, 0⟩

/-- One tile (R158, R159, R211, R212, R381, R389). -/
structure TileSt where
  /-- Ways given to the cache (R211). -/
  n        : Nat
  lines    : List CLine
  /-- The launch that owns the tile, or has reserved it (R159), by the launch's identity in the model. -/
  owner    : Option Nat
  reserved : Option Nat
  scrubbed : Bool
  last     : Option Nat
  /-- A scrub is in progress, or a containment fence stands (R158, R389). -/
  scrubbing : Bool
  fence    : Bool
  /-- The parcel queue (R162). -/
  parcels  : List Parcel
  /-- Threads whose `resize` has issued, in that order (R214). -/
  resizers : List Nat
  deriving DecidableEq, Repr

/-- A tile right after reset: all scratch, owing a scrub (R211, R381). -/
def TileSt.zero : TileSt :=
  { n := 0, lines := [], owner := none, reserved := none, scrubbed := false, last := none
    scrubbing := false, fence := false, parcels := [], resizers := [] }

/-- A record of a vault's undo journal (R393): guard or checkpoint. -/
structure JRec where
  vault  : Nat
  guard  : Bool
  tenant : Nat
  /-- The launch's identity in the model, for a guard record. -/
  launch : Nat
  /-- The launch id, or the checkpoint number. -/
  num    : Nat
  line   : Nat
  la     : Nat
  attr   : Nat
  old    : List Byte
  /-- The sectors of the line that were uncorrectable, one bit each. -/
  bad    : Nat
  deriving DecidableEq, Repr

/-- The states of a checkpoint interval (R399). -/
inductive IvalSt where
  | none
  | needsFull
  | draining
  | recording
  deriving DecidableEq, Repr

/-- A tenant's checkpoint interval on one vault: dirty maps k − 1 and k by line, and what the drain needs (R397 to R400). -/
structure Ival where
  st    : IvalSt
  k     : Nat
  full  : Bool
  prev  : List Nat
  cur   : List Nat
  base  : Nat
  share : Nat
  /-- Where the chunk stream continues, and the chunks this drain has written: offset, tag, first and last line (R401). -/
  pos    : Nat
  chunks : List (Nat × Nat × Nat × Nat)
  /-- The drain of k is done on this vault. -/
  done   : Bool
  /-- The map has changed since the last cut, so that the next one is full (R430). -/
  stale  : Bool
  deriving DecidableEq, Repr

/-- No interval. -/
def Ival.zero : Ival := ⟨.none, 0, false, [], [], 0, 0, 0, [], false, false⟩

/-- The states of a launch on its way (R171). -/
inductive LState where
  | received
  | waiting
  | placing
  | running
  | completing
  /-- Ended before it ran: only its record is still to be written. -/
  | rejected
  | failed
  deriving DecidableEq, Repr

/-- The guard of a launch (R395, R399). -/
inductive GuardSt where
  | none
  | hold
  | lost
  deriving DecidableEq, Repr

/-- A launch from its delivery to its record (R169 to R175, R391, R450). -/
structure Launch where
  /-- The model's own identity. -/
  id      : Nat
  tenant  : Nat
  lid     : Nat
  job     : Nat
  /-- The eight dwords of the LPB, saved (R391). -/
  lpb     : List Nat
  st      : LState
  /-- The status it ends with (R175). -/
  status  : Nat
  admitAt   : Nat
  /-- Entry into PLACING, in ns (R160), and whether it holds the head of the line. -/
  placing : Nat
  head    : Bool
  /-- Admission (R159): an engine works on it, the next candidate, candidates left, tiles reserved, conflicts, and the end of a back-off. -/
  engine  : Bool
  cand    : Nat
  left    : Nat
  tiles   : List Nat
  conflicts : Nat
  backoff : Option Nat
  placed  : Bool
  x       : Nat
  y       : Nat
  w       : Nat
  h       : Nat
  /-- Undealt parcels: the next index; moved ones: P as last known, and pool entry (R173, R174); parcels that an evaluation has found to leave for a pool entry that could not be written at once, by order (R329). -/
  next    : Nat
  moved   : List (Nat × Nat)
  leaving : List Nat
  done    : Nat
  /-- The parcels starved at the previous evaluation (R330): by order in a tile queue, 2^40 plus the pool entry in the backlog, 2^50 for the undealt ones. -/
  starved : List Nat
  guard   : GuardSt
  lost    : Bool
  consumed : Nat
  replays : Nat
  /-- Tiles outside the cluster on which its threads have been resumed (R253, R377). -/
  visited : List Nat
  /-- The steps of completion that are done (R175), and a rejection for a duplicate id (R170). -/
  phase   : Nat
  dup     : Bool
  /-- The launch has created the group it names (R150). -/
  ownsGroup : Bool
  /-- The launch window's page and slot (R450, R454); none for a launch message. -/
  slot    : Option (Nat × Nat)
  deriving DecidableEq, Repr

/-- A completed launch, for prerequisites (R170, R171). -/
structure DoneLaunch where
  tenant : Nat
  lid    : Nat
  job    : Nat
  status : Nat
  deriving DecidableEq, Repr

/-- A tile's matrix array (R292 to R296, R318 to R326): owner and waiting contexts, sticky bits, retired physical rows and columns,
the candidate's, the last self-test's defects, and the accumulators by bank and physical cell with the elements of bad parity. -/
structure ArraySt where
  /-- The owning thread's identity and its context number; and the identities that wait. -/
  owner   : Option (Nat × Nat)
  waiting : List Nat
  sticky  : Nat
  retRows : List Nat
  retCols : List Nat
  cand    : Option (List Nat × List Nat)
  /-- Physical row, physical column and class of each listed defect. -/
  defects : List (Nat × Nat × Nat)
  count   : Nat
  running : Bool
  acc     : SMap Nat
  accBad  : SMap Bool
  deriving DecidableEq, Repr

/-- An array without retired cells. -/
def ArraySt.zero : ArraySt :=
  { owner := none, waiting := [], sticky := 0, retRows := [], retCols := [], cand := none, defects := [], count := 0
    running := false, acc := [], accBad := [] }

/-- An entry of the cancel filter (R459, R460): when it was set, when CANCEL-DONE arrived, the coordinator, and whether it has been acknowledged. -/
structure Filter where
  tenant : Nat
  job    : Nat
  since  : Nat
  done   : Option Nat
  coord  : Nat
  acked  : Bool
  deriving DecidableEq, Repr

/-- A moved notice on its way to a core of this cube: the directory-cache key and the new place (R135). -/
structure Notice where
  core  : Nat
  key   : Nat
  entry : Nat
  deriving DecidableEq, Repr

/-- An image that the runtime loader copies into the cores or tiles of a tenant's launches (R31). -/
structure Image where
  tenant : Nat
  /-- A scratch image; otherwise one of local memory. -/
  tile   : Bool
  off    : Nat
  bytes  : List Byte
  deriving DecidableEq, Repr


/-- Where the cube stands on its way up (R482, R485). -/
inductive FwState where
  | recovery
  | booting
  /-- The ROM has started the firmware, which has not yet completed boot (R483). -/
  | started
  | ready
  deriving DecidableEq, Repr

/-- The boot flash, the running image and the power limiter (R479 to R485). -/
structure Fw where
  st       : FwState
  /-- The last reset was a cold one. -/
  cold     : Bool
  /-- BOOTSEL (R477), and a boot from the transferred image that ACTIVATE_FW asked for (R482). -/
  bootsel  : Bool
  activate : Bool
  /-- The images in flash and from the host port. -/
  flash    : List Byte
  hostImg  : List Byte
  /-- The running firmware's body, versions and entry (R483). -/
  body     : List Byte
  version  : Nat
  security : Nat
  entry    : Nat
  /-- The board record, the one written for the next reset, and the repair record (R477, R485). -/
  board     : List Byte
  boardNext : List Byte
  repair    : List Byte
  /-- The sustained limit in watts, start cycles withheld from matrix arrays, cisterns and push engines, in 64ths (R479, R480), the limit that applies from the next measurement on, and the last measurement's number. -/
  limit    : Nat
  withheld : Nat × Nat × Nat
  pending  : Nat
  measured : Nat
  /-- Package power in watts at the last measurement, and the hottest die's temperature (R485). -/
  power    : Nat
  heat     : Nat
  /-- Package power at each measurement of the last 100 ms, newest first. -/
  samples  : List Nat
  deriving DecidableEq, Repr

/-- A fabric port (R415, R416): trained, declared down until retrained, failed replays in a row, when its training began, and the cube at a torus port's far end; a switch-facing port may be split into four planes. -/
structure Port where
  up      : Bool
  down    : Bool
  /-- Firmware has begun to train it, at the time `since`, and training is not complete. -/
  training : Bool
  /-- A frame that failed is being replayed, and its failed replays in a row. -/
  replaying : Bool
  replays : Nat
  since   : Nat
  peer    : Option Nat
  split   : Bool
  deriving DecidableEq, Repr

/-- A port before training. -/
def Port.zero : Port := ⟨false, false, false, false, 0, 0, none, false⟩


/-- The states of a cistern invocation that outlast an event (R343). -/
inductive InvSt where
  | queued
  | running
  | suspended
  deriving DecidableEq, Repr

/-- A sequencer that runs a loaded entry (R334, R351, R352): its cistern, micro-address, the generators' columns gone by, loop counters,
accumulators, the latch, the column last read, and whether it has ended. -/
structure Seqr where
  g     : Nat
  pc    : Nat
  gens  : List Nat
  loops : List Nat
  ca    : List (List Nat)
  latch : List Byte × Nat
  col   : List Byte × Nat
  ended : Bool
  deriving DecidableEq, Repr

/-- A cistern invocation (R337, R343). -/
structure Inv where
  id     : Nat
  /-- The producer that fills d. -/
  req    : Nat
  core   : Nat
  agent  : Nat
  name   : Nat
  ctx    : Nat
  tenant : Nat
  job    : Nat
  launch : Nat
  user   : Bool
  seq    : Nat
  entry  : Nat
  set    : Nat
  /-- The eight dwords of the argument block. -/
  args   : List Nat
  st     : InvSt
  /-- The issuer's stores that its reads follow (R253). -/
  after  : List Nat
  /-- Translated pages of 64 KiB: page number, frame and attributes. -/
  pages  : List (Nat × Nat × Nat)
  /-- Columns done, the accumulators of each cistern, and x of entry 1. -/
  pos    : Nat
  ca     : SMap (List Nat)
  x      : List Byte
  /-- The sectors of x that are uncorrectable. -/
  xbad   : List Nat
  /-- The lowest column of which a poisoned lane was used (R413). -/
  bad    : Option Nat
  /-- The sectors read for the next column step: address, bytes, uncorrectable; and the parts of sectors that it has still to write (R348). -/
  got    : List (Nat × List Byte × Bool)
  outs   : List (Nat × List Byte)
  /-- Entry 5's push: 0 not issued, 1 issued, 2 complete. -/
  push   : Nat
  /-- The result folded so far by loaded entries, and their sequencers. -/
  result : Option Nat
  seqs   : List Seqr
  /-- A fault that ends it; a wait for a held line since; an answer of another cube wanting; and the time of its last progress. -/
  fault  : Option Late
  since  : Nat
  asked  : Bool
  last   : Nat
  deriving DecidableEq, Repr

/-- The states of a restore (R404, R452). -/
inductive RstState where
  | idle
  | running
  | done
  | failed
  deriving DecidableEq, Repr

/-- A tenant's control page (R452) and the cancellation that it coordinates (R458). -/
structure HostPage where
  wacc    : Nat
  wref    : Nat
  wrefmap : Nat
  herr    : Nat
  busy    : Bool
  job     : Nat
  /-- The live cubes that have not acknowledged. -/
  pending : List Nat
  evcause : Nat
  rstk    : Word
  rstbase : Word
  rstrep  : Word
  rst     : RstState
  steal   : SMap Word
  deriving DecidableEq, Repr

/-- A control page after reset (R452). -/
def HostPage.zero : HostPage :=
  { wacc := 0, wref := 0, wrefmap := 0, herr := 0, busy := false, job := 0, pending := [], evcause := 0, rstk := 0, rstbase := 0, rstrep := 0
    rst := .idle, steal := [] }

/-- A subtree's creation of a group over cubes that has come up the tree before this cube has created the group (R432): group, sending rank, time and digest. DESIGN CHOICE, unsafe: log entry 31. -/
structure Birth where
  tenant : Nat
  handle : Nat
  rank   : Nat
  since  : Nat
  digest : List Word
  deriving DecidableEq, Repr

/-- A collective instance on this cube (R435): group and tag, the parameters that its members share, what children have sent up by rank,
the own command and its contribution, whether the node has sent up and has been accepted, the result from the root, and a fault. -/
structure Coll where
  tenant : Nat
  handle : Nat
  tag    : Nat
  params : List Nat
  /-- Packets of a value that is not complete: 2^13 × kind + sender's rank, the first element, the elements (R417). -/
  parts  : List (Nat × Nat × List Nat)
  vals   : List (Nat × List Nat)
  cmd    : Option Nat
  leaf   : Option (List Nat)
  sent   : Bool
  taken  : Bool
  result : Option (List Nat)
  fault  : Option Nat
  deriving DecidableEq, Repr

/-- The argument of a machine event, set before the event runs; each event's docstring says which fields it reads. -/
structure EvArg where
  a     : Nat
  b     : Nat
  c     : Nat
  d     : Nat
  e     : Nat
  w     : Word
  words : List Word
  bytes : List Byte
  /-- What other cubes have answered to the event's own reads: table entries of its walks, address and value in turn. -/
  far   : List Word
  pkt   : Option Packet
  /-- The cube that a packet goes to, or comes from. -/
  peer  : Option Nat
  /-- A packet's delivery class, its number there, and the time of this transmission (R248, R418, R419). -/
  seq   : Option (Nat × Nat × Nat)
  deriving DecidableEq, Repr

/-- No argument. -/
def EvArg.zero : EvArg := ⟨0, 0, 0, 0, 0, 0, [], [], [], none, none, none⟩

/-- An event of the opcode table with its argument. -/
structure Ev where
  op  : Instr
  arg : EvArg
  deriving DecidableEq, Repr

/-- A transmission that has not been acknowledged (R419): its number, the packet, when it is sent again, and the timer. -/
structure Sent where
  num   : Nat
  ev    : Ev
  next  : Nat
  timer : Nat
  deriving DecidableEq, Repr

/-- A packet delivery context (R417 to R420): peer, class 0 U, 1 O, 2 I or 3 C, the unacknowledged packets, the
time of the last acknowledgement, or since when none is unacknowledged, and the time of its last use. -/
structure Pdc where
  peer  : Nat
  mode  : Nat
  sent  : List Sent
  since : Nat
  used  : Nat
  deriving DecidableEq, Repr

/-- The cube. -/
structure State where
  /-- The rails are up (R478). -/
  power  : Bool
  /-- The cube's number in the domain (R16). -/
  cube   : Nat
  /-- Global time in ns, and core cycles since reset (R15). -/
  time   : Nat
  cycle  : Nat
  /-- The model's own: the counter that free values are drawn with. DESIGN CHOICE, safe: log entry 9, and so for the model's own fields below. -/
  free   : Nat
  /-- The model's own: the next identity of a request, dispatch, activation or command. -/
  nid    : Nat
  /-- The model's own: the core and context whose instruction runs. -/
  cur    : Nat × Nat
  /-- The model's own: the argument of the event that runs, and the word an ILLEGAL reports. -/
  arg    : EvArg
  /-- What reaches the cube from outside, oldest first. -/
  inputs : List Ev
  /-- What the cube has sent outside, newest first. -/
  outbox : List Ev
  mem    : List Host.Cell
  /-- DRAM check words that differ from the computed ones, by 16-byte half (R487). -/
  ecc    : SMap Nat
  /-- Sectors of local memory and tile stores written uncorrectable (R488). -/
  bad    : SMap Bool
  ctxs   : SMap Ctx
  cores  : SMap CoreSt
  ctrs   : SMap Counter
  stored : List Stored
  nt     : List NtLine
  queues : SMap (List QEnt)
  chains : SMap (List QEnt)
  tlbs   : SMap (List TlbEntry)
  walks  : List Walk
  reqs   : List Req
  net    : List Packet
  vbanks : SMap VBank
  vops   : List VOp
  reps   : List Rep
  cmds   : List Cmd
  sems   : SMap Sem
  groups : List Group
  tenants : SMap Tenant
  /-- Traps and events that firmware only counts (R361, R368). -/
  fwTraps : Nat
  /-- Consumptions whose containment has not run: core, context and cause (R388, R389). -/
  contain : List (Nat × Nat × Nat)
  /-- The stripe map: 256 regions, the set table and the generation (R425). -/
  regions : SMap Region
  settab  : SMap Nat
  mapgen  : Nat
  /-- Slices that firmware has made bank-linear (R219); the others are hashed. -/
  linear  : SMap Bool
  tiles  : SMap TileSt
  /-- The undo journals, oldest first; region sizes in steps of 32 MiB, 0 for the default 3 (R392); vaults whose JOURNAL-HIGH is not armed (R402). -/
  journal : List JRec
  jsize   : SMap Nat
  jhigh   : SMap Bool
  /-- The time plus one since when a vault has kept a write waiting for a record (R402). -/
  stalls  : SMap Nat
  /-- Checkpoint intervals by 64 × tenant + vault (R399), and each tenant's last checkpoint number. -/
  ivals   : SMap Ival
  ckpts   : SMap Nat
  /-- BERR by 192 × vault + bank (R336). -/
  berr    : SMap Nat
  launches : List Launch
  /-- Completed launches, newest first. -/
  history  : List DoneLaunch
  /-- The rotating start of admission scans (R158). -/
  rotate   : Nat
  /-- Matrix arrays by tile. -/
  arrays  : SMap ArraySt
  /-- Parcels in transit between tiles: the receiving tile, and the parcel (R162, R168). -/
  moving  : List (Nat × Parcel)
  /-- One more than the number of the last diffusion period that has run (R168). -/
  diffused : Nat
  /-- The cancel filter, and cancels that wait for a free entry: tenant, job and coordinator (R460). -/
  filters  : List Filter
  cancels  : List (Nat × Nat × Nat)
  /-- The other live cubes of the domain (R423, R428). -/
  peers    : List Nat
  /-- Moved notices on their way (R135). -/
  notices  : List Notice
  /-- Lend numbers by 256 × tile + slot, and the latest expiry given (R464). -/
  lends    : SMap Nat
  expiry   : Nat
  /-- Images of the runtime loader (R31). -/
  images   : List Image
  fw       : Fw
  ports    : SMap Port
  /-- `einj` of each vault core (R409). -/
  einj     : SMap Word
  /-- Cistern invocations in queue order (R337); micro-words by 256 × vault + address and entry-table elements by 16 × vault + entry that `cist.ld` has written, each plus one (R351, R353). -/
  invs     : List Inv
  micro    : SMap Nat
  entries  : SMap Nat
  /-- The control pages of the logical devices by tenant (R452). -/
  pages    : SMap HostPage
  /-- Packet delivery contexts, and packets that wait for one, with their class (R418). -/
  pdcs     : List Pdc
  pdcWait  : List (Nat × Ev)
  /-- By 4 × peer + class: the number of the next packet sent, and of the packets received the number up to which all have been taken, with those taken beyond it (R248, R419). -/
  sendNo   : SMap Nat
  heard    : SMap (Nat × List Nat)
  /-- Requests of other cubes that have arrived and are not yet served (R422, R427, R429). -/
  arrivals : List EvArg
  /-- Lost cubes, and the tenants that have been told of one (R423). -/
  lost     : List Nat
  told     : List (Nat × Nat)
  colls    : List Coll
  births   : List Birth
  /-- Received UUD packets, which firmware counts (R417). -/
  uud      : Nat
  /-- Mesh links: failed resends in a row, and links that firmware has retired (R407). -/
  mesh     : SMap Nat
  meshOut  : SMap Bool
  /-- Clock discipline (R431): nanoseconds still to slew, time gone by towards the next one, the time of the last exchange, and whether the cube has joined domain time. -/
  slew     : Int
  slewAcc  : Nat
  timeSent : Nat
  joined   : Bool
  /-- Changes of the stripe map (R428): the region that this cube's firmware is changing, the cubes that have not acknowledged, changes that wait, the time of the last commit, and cubes that drain. -/
  mapJob   : Option Nat
  mapWait  : List Nat
  mapQueue : List EvArg
  mapLast  : Nat
  draining : List Nat
  /-- Host accesses through the apertures that wait, with the requests they have sent to other cubes in `words` (R447, R260). -/
  hostOps  : List EvArg
  /-- The model's own: the cube that the running event has asked for data, and the events that wait for such an answer, with the cube in c. -/
  asking   : Option Nat
  asks     : List Ev
  deriving DecidableEq, Repr

/-- The cube right after a cold reset (R482): power up, boot pending, nothing running. DESIGN CHOICE, unsafe: log entry 3. -/
def State.reset : State :=
  { power := true, cube := 0, time := 0, cycle := 0, free := 0, nid := 1, cur := (256, 8), arg := EvArg.zero
    inputs := [], outbox := [], mem := [], ecc := [], bad := [], ctxs := [], cores := [], ctrs := []
    stored := [], nt := [], queues := [], chains := [], tlbs := [], walks := [], reqs := [], net := []
    vbanks := [], vops := [], reps := [], cmds := [], sems := [], groups := []
    tenants := [], fwTraps := 0, contain := []
    tiles := [], regions := [], settab := [], mapgen := 0, linear := []
    journal := [], jsize := [], jhigh := [], stalls := [], ivals := [], ckpts := [], berr := [], launches := [], history := [], rotate := 0
    arrays := [], moving := []
    diffused := 1
    filters := [], cancels := [], peers := [], notices := []
    lends := [], expiry := 0, images := []
    fw := { st := .booting, cold := true, bootsel := false, activate := false, flash := [], hostImg := [], body := []
            version := 0, security := 0, entry := 0, board := [], boardNext := [], repair := [], limit := 900
            withheld := (0, 0, 0), pending := 900, measured := 0, power := 0, heat := 0, samples := [] }
    ports := [], einj := []
    invs := [], micro := [], entries := []
    pages := []
    pdcs := [], pdcWait := [], sendNo := [], heard := [], arrivals := [], lost := [], told := [], colls := [], births := []
    uud := 0, mesh := [], meshOut := [], slew := 0, slewAcc := 0, timeSent := 0, joined := false
    mapJob := none, mapWait := [], mapQueue := [], mapLast := 0, draining := [], hostOps := [], asking := none, asks := []
  }

end Sys2Proof.Machine
end

