-- ==== Sys2Proof/Machine/Ops.lean ====
section
/-! DEFINITION. The named operations over memory, contexts and the machine's tables, the choice of a free value, and taking and leaving a trap. -/

namespace Sys2Proof.Machine

/-- What a sparse map holds at a key. -/
def smGet {α : Type} (d : α) : SMap α → Nat → α
  | [], _ => d
  | (k, v) :: t, i => if i < k then d else if i = k then v else smGet d t i

/-- No entry of a map stands at a key up to i before its end or its first greater key. -/
def smHeadAbove {α : Type} (i : Nat) : SMap α → Bool
  | [] => true
  | (k, _) :: _ => decide (i < k)

/-- A sparse map with one key changed; an entry equal to the default is left out (in a list whose keys do not rise it stays, so that reading gives what was written in every list). -/
def smPut {α : Type} [DecidableEq α] (d : α) : SMap α → Nat → α → SMap α
  | [], i, x => if x = d then [] else [(i, x)]
  | (k, v) :: t, i, x =>
    if i < k then (if x = d then (k, v) :: t else (i, x) :: (k, v) :: t)
    else if i = k then (if x = d ∧ smHeadAbove i t then t else (k, x) :: t)
    else (k, v) :: smPut d t i x

/-- The keys strictly rise and no entry is the default. -/
def smWf {α : Type} [DecidableEq α] (d : α) : SMap α → Bool
  | [] => true
  | [(_, v)] => v ≠ d
  | (k, v) :: (k', v') :: t => v ≠ d && k < k' && smWf d ((k', v') :: t)

/-- What a byte of memory that nothing has written reads as (log entry 1). -/
def emptyByte : Byte := 0

/-- The key of byte o of core c's local memory in the memory list. -/
def localKey (c o : Nat) : Nat := 1099511627776 + c * 65536 + o

/-- The key of byte o of way w of tile t's store in the memory list (R211). -/
def wayKey (t w o : Nat) : Nat := 2199023255552 + t * 2097152 + w * 131072 + o

/-- Scratch offset o lies in way 11 − floor(o / 0x2_0000) (R211). -/
def scratchKey (t o : Nat) : Nat := wayKey t (11 - o / 131072) (o % 131072)

/-- One byte of memory. -/
def Memory.byte (m : List Host.Cell) (a : Nat) : Byte := smGet emptyByte m a

/-- Memory with one byte written. -/
def Memory.put (m : List Host.Cell) (a : Nat) (b : Byte) : List Host.Cell := smPut emptyByte m a b

/-- The memory list is in its canonical form. -/
def Memory.wf (m : List Host.Cell) : Bool := smWf emptyByte m

/-- n bytes from address a on. -/
def Memory.read (m : List Host.Cell) (a : Nat) : Nat → List Byte
  | 0 => []
  | n + 1 => Memory.byte m a :: Memory.read m (a + 1) n

/-- Memory with bytes written from address a on. -/
def Memory.write (m : List Host.Cell) (a : Nat) : List Byte → List Host.Cell
  | [] => m
  | b :: bs => Memory.write (Memory.put m a b) (a + 1) bs

/-- Memory with bytes written at offsets from an address. -/
def Memory.writeAt (m : List Host.Cell) (a : Nat) : List (Nat × Byte) → List Host.Cell
  | [] => m
  | (o, b) :: bs => Memory.writeAt (Memory.put m (a + o) b) a bs

/-- The kind of core c (R17). -/
def kindOf (c : Nat) : CoreKind := if 256 ≤ c then .v else if c % 2 = 0 then .a else .e

/-- The tile of core c (R17); a vault core lies on the router of tile 2v. -/
def tileOf (c : Nat) : Nat := if 256 ≤ c then 2 * (c - 256) else c / 2

/-- The key of a context. -/
def ctxKey (core ctx : Nat) : Nat := core * 16 + ctx

/-- The engine unit, and translation cache, of a core: its tile, or 128 plus its vault (R223, R267). -/
def unitOf (c : Nat) : Nat := if 256 ≤ c then 128 + (c - 256) else c / 2

/-- The partner core on the same tile (R148). -/
def partner (c : Nat) : Nat := if c % 2 = 0 then c + 1 else c - 1

/-- A context by its key. -/
def State.ctx (s : State) (k : Nat) : Ctx := smGet Ctx.free s.ctxs k

/-- The state with one context replaced. -/
def State.setCtx (s : State) (k : Nat) (x : Ctx) : State := { s with ctxs := smPut Ctx.free s.ctxs k x }

/-- The key of the context whose instruction runs. -/
def State.me (s : State) : Nat := ctxKey s.cur.1 s.cur.2

/-- The context whose instruction runs. -/
def State.self (s : State) : Ctx := s.ctx s.me

/-- The state with the running context replaced. -/
def State.setSelf (s : State) (x : Ctx) : State := s.setCtx s.me x

/-- A core. -/
def State.core (s : State) (c : Nat) : CoreSt := smGet CoreSt.zero s.cores c

/-- The state with one core replaced. -/
def State.setCore (s : State) (c : Nat) (x : CoreSt) : State := { s with cores := smPut CoreSt.zero s.cores c x }

/-- A tile. -/
def State.tile (s : State) (t : Nat) : TileSt := smGet TileSt.zero s.tiles t

/-- The state with one tile replaced. -/
def State.setTile (s : State) (t : Nat) (x : TileSt) : State := { s with tiles := smPut TileSt.zero s.tiles t x }

/-- A tenant. -/
def State.tenant (s : State) (t : Nat) : Tenant := smGet Tenant.zero s.tenants t

/-- The state with one tenant replaced. -/
def State.setTenant (s : State) (t : Nat) (x : Tenant) : State := { s with tenants := smPut Tenant.zero s.tenants t x }

/-- What a context is once its thread has left it: the chain stays configured (R149, R357). -/
def Ctx.freed (x : Ctx) : Ctx := { Ctx.free with chain := x.chain }

/-- The key of counter i of core c (R124). -/
def ctrKey (c i : Nat) : Nat := c * 64 + i

/-- What a counter holds while nothing has set it: the launch counter of a tile core keeps its fixed values (R124, R125). -/
def ctrDefault (k : Nat) : Counter :=
  if k % 64 = 63 ∧ k / 64 < 256 then { Counter.zero with count := 1, reload := 1, base := 0xCE00, cap := 8 }
  else Counter.zero

/-- A counter. -/
def State.counter (s : State) (k : Nat) : Counter := smGet (ctrDefault k) s.ctrs k

/-- The state with one counter replaced. -/
def State.setCounter (s : State) (k : Nat) (x : Counter) : State := { s with ctrs := smPut (ctrDefault k) s.ctrs k x }

/-- A scalar register's cell; s0 is always zero and full (R8). -/
def Ctx.cell (x : Ctx) (r : Nat) : Cell := if r = 0 then Cell.zero else smGet Cell.zero x.regs r

/-- A context with one register's cell replaced; s0 keeps its own (R8). -/
def Ctx.setCell (x : Ctx) (r : Nat) (c : Cell) : Ctx :=
  if r = 0 then x else { x with regs := smPut Cell.zero x.regs r c }

/-- A context with a value written to a register, which becomes full and loses its mark (R9, R365). -/
def Ctx.write (x : Ctx) (r : Nat) (v : Word) : Ctx := x.setCell r ⟨v, .full, false⟩

/-- A context with a register made empty-pending, its value kept (R9). -/
def Ctx.pend (x : Ctx) (r : Nat) : Ctx := x.setCell r { x.cell r with st := .pending }

/-- One timeline of a context (R268). -/
def Ctx.timeline (x : Ctx) (k : Nat) : Timeline := smGet Timeline.zero x.tls k

/-- The state's counter for free values, advanced. -/
def State.drawn (s : State) : State := { s with free := s.free + 1 }

/-- A number below n that the spec leaves open; with one possibility nothing is drawn. -/
def State.choose (s : State) (n : Nat) : Nat × State :=
  if n ≤ 1 then (0, s) else (Config.choice s.free % n, s.drawn)

/-- An element of a list that the spec leaves open. -/
def State.pick {α : Type} (s : State) (d : α) (l : List α) : α × State :=
  let (i, t) := s.choose l.length
  (l.getD i d, t)

/-- The identity under which a context's accesses are ordered: its thread, or the steward of the core (R244). -/
def agentOf (core ctx : Nat) (x : Ctx) : Nat := if ctx = 8 then 2 ^ 40 + core else x.uid

/-- The identity of the running thread. -/
def State.agent (s : State) : Nat := agentOf s.cur.1 s.cur.2 s.self

/-- A request of the running thread, with identity id. -/
def State.newReq (s : State) (id : Nat) (kind : ReqKind) (dest : Dest) (pa size attr : Nat) : Req :=
  { id := id, grp := id, kind := kind, core := s.cur.1, ctx := s.cur.2, agent := s.agent, tenant := s.self.tenant
    launch := s.self.launch, dest := dest, pa := pa, size := size, data := [], mask := [], sampled := false
    poison := false, attr := attr, user := decide (s.self.priv = .user), since := 0, acq := 0, remote := false, sent := false, pc := s.self.pc }

/-- The state with a request put behind the others. -/
def State.addReq (s : State) (r : Req) : State := { s with reqs := s.reqs ++ [r] }

/-- A fresh identity. -/
def State.fresh (s : State) : Nat × State := (s.nid, { s with nid := s.nid + 1 })

/-- Park the running context, or hold it in the issue stage; its instruction runs again later. -/
def State.parkMe (s : State) (p : Park) : State := s.setSelf { s.self with park := some p, since := s.cycle }

/-- The code of a privilege level in tcause[11:10] (R357). -/
def Priv.code : Priv → Nat
  | .user => 0
  | .supervisor => 1
  | .firmware => 2

/-- Whether a context lies in a launch's cluster, or holds a moth of one (R388). -/
def inCluster (s : State) (core : Nat) (x : Ctx) : Bool :=
  if core < 256 then (s.tile (tileOf core)).owner.isSome else x.home.isSome && x.launch != 0

/-- The causes whose trap inside a cluster is a consumption (R388). -/
def consumes (x : Ctx) (cause sub : Nat) : Bool :=
  cause == 0x09
  || (cause == 0x10 && (sub == 1 || sub == 2))
  || (cause == 0x11 && (sub == 6 || sub == 7))
  || (cause == 0x13 && sub == 1 && x.home.isSome)

/-- A value put into the program counter: bits [1:0] are always zero (R14). -/
def alignPc (v : Word) : Word := v &&& 0xFFFFFFFFFFFFFFFC#64

/-- What trap entry writes into the context (R359): the five registers, and from user mode the loop shadow and the saved checker. -/
def Ctx.enter (x : Ctx) (cause sub : Nat) (val tpc : Word) (seq : Nat) (late : Bool) (vec : Word) : Ctx :=
  let y := { x with
    tcause := BitVec.ofNat 64 (cause + late.toNat * 256 + x.priv.code * 1024)
    tpc := tpc, tval := val, tsub := BitVec.ofNat 64 sub, tseq := BitVec.ofNat 64 seq
    priv := .supervisor, pc := vec, park := none, entering := true, memo := [], stay := false, xfault := none }
  if x.priv = .user then
    { y with shadow := x.loops, loops := []
             sigctl := (x.sigctl &&& BitVec.ofNat 64 0xFFFFFFFFFFFF0000) ||| x.sig.zeroExtend 64, sig := 0 }
  else y

/-- The steward's event ends (R368): the context goes idle and an orphan fault's ring entry is freed (R370). -/
def endEvent (s : State) (core : Nat) : State :=
  let c := s.core core
  let ring := match c.event with
    | some e => if e.orphan then c.ring.filter (fun r => !(r.orphan && r.seq == e.seq && r.name == (e.words.getD 1 0).toNat)) else c.ring
    | none => c.ring
  let s := s.setCore core { c with event := none, ring := ring }
  s.setCtx (ctxKey core 8) { s.ctx (ctxKey core 8) with occ := false, park := none }

/-- A consumption inside a cluster: the instruction has no effect, and containment begins (R388). -/
def State.consume (s : State) (core ctx cause : Nat) : State :=
  let k := ctxKey core ctx
  { s.setCtx k { s.ctx k with park := some .away } with contain := s.contain ++ [(core, ctx, cause)] }

/-- TAKING A TRAP in context k (R359 to R361): a synchronous trap or a late fault.
In the steward it ends the event; inside a cluster a consumption starts containment; a moth takes it at home; without a handler, or when the fetch of the handler's first instruction traps, the thread is killed. -/
def takeTrapAt (s : State) (core ctx : Nat) (cause sub : Nat) (val tpc : Word) (seq : Nat) (late : Bool) : State :=
  let k := ctxKey core ctx
  let x := s.ctx k
  if ctx = 8 then { endEvent s core with fwTraps := s.fwTraps + 1 }
  else if consumes x cause sub && inCluster s core x then s.consume core ctx cause
  else if x.priv = .firmware then
    s.setCtx k { x with pc := alignPc Config.firmwareVector, park := none }
  else if x.home.isSome then
    s.setCtx k { x with trapHome := some ⟨cause, sub, val, tpc, seq, late⟩, park := some .homeward, memo := [] }
  else if (s.tenant x.tenant).tvec = 0 || (x.entering && !late) then
    { s.setCtx k { x with dying := true, park := none } with fwTraps := s.fwTraps + 1 }
  else s.setCtx k (x.enter cause sub val tpc seq late (s.tenant x.tenant).tvec)

/-- A precise trap of the running instruction (R360). -/
def State.trap (s : State) (cause sub : Nat) (val : Word) : State :=
  takeTrapAt s s.cur.1 s.cur.2 cause sub val s.self.pc 0 false

/-- The return from a trap to user or supervisor mode (R362), after its checks. -/
def Ctx.leave (x : Ctx) : Ctx :=
  let p := x.tcause.toNat / 1024 % 4
  let y := { x with pc := x.tpc, priv := if p = 0 then .user else .supervisor }
  if p = 0 then { y with loops := x.shadow, sig := x.sigctl.truncate 16 } else y

end Sys2Proof.Machine
end

