-- ==== Sys2Proof/Machine/Operands.lean ====
section
/-! DEFINITION. Reading sources, writing destinations, the port registers, and completing an instruction (R8 to R13, R62 to R64, R84, R85, R148, R149, R180, R383 to R385). -/

namespace Sys2Proof.Machine

/-- Whether a register is a port (R8). -/
def isPort (r : Nat) : Bool := decide (60 ≤ r)

/-- The registers an instruction uses, and how. -/
structure Use where
  /-- Sources with their trap bits; a port may stand here. -/
  srcs : List (Reg × Bool)
  /-- Sources that may not be ports: bases, loop counts, branch operands, payloads (R13). -/
  fixed : List (Reg × Bool)
  /-- Destinations; `pout` and `dn` may stand here. -/
  dsts : List Reg
  /-- Destinations that may not be ports. -/
  dstsFixed : List Reg
  deriving DecidableEq, Repr

/-- Nothing used. -/
def useNothing : Use := ⟨[], [], [], []⟩

/-- The core that the `dn` link of a context leads to (R149, R357). -/
def dnCore (core : Nat) (x : Ctx) : Nat := 2 * bits x.chain.toNat 19 13 + core % 2

/-- Whether a context's chain is configured (R19, R357). -/
def chainOn (x : Ctx) : Bool := bitAt x.chain.toNat 0

/-- Whether the link names a previous tile. -/
def hasUp (x : Ctx) : Bool := chainOn x && bitAt x.chain.toNat 4

/-- Whether the link names a next tile. -/
def hasDn (x : Ctx) : Bool := chainOn x && bitAt x.chain.toNat 12

/-- `dn` may be written: there is a next link and it names this tile as its previous one (R149, R357). -/
def dnOk (s : State) (core ctx : Nat) : Bool :=
  let x := s.ctx (ctxKey core ctx)
  let y := s.ctx (ctxKey (dnCore core x) ctx)
  hasDn x && hasUp y && bits y.chain.toNat 11 5 == core / 2

/-- Whether the context has partner queues: not on a vault core and not in the steward (R148). -/
def hasPartner (core ctx : Nat) : Bool := decide (core < 256) && decide (ctx < 8)

/-- A port may be read as a source here (R13, R148, R149). -/
def portReadable (s : State) (r : Nat) : Bool :=
  if r = 60 then hasPartner s.cur.1 s.cur.2
  else if r = 62 then hasUp s.self && decide (s.cur.1 < 256)
  else false

/-- A port may be written as a destination here (R13, R148, R149). -/
def portWritable (s : State) (r : Nat) : Bool :=
  if r = 61 then hasPartner s.cur.1 s.cur.2
  else if r = 63 then dnOk s s.cur.1 s.cur.2 && decide (s.cur.1 < 256)
  else false

/-- The queue a context reads as `pin`. -/
def State.pinQ (s : State) (k : Nat) : List QEnt := smGet [] s.queues k

/-- The queue a context reads as `up`. -/
def State.upQ (s : State) (k : Nat) : List QEnt := smGet [] s.chains k

/-- The key of the queue that the running context writes as `pout`. -/
def State.poutKey (s : State) : Nat := ctxKey (partner s.cur.1) s.cur.2

/-- The key of the queue that the running context writes as `dn`. -/
def State.dnKey (s : State) : Nat := ctxKey (dnCore s.cur.1 s.self) s.cur.2

/-- The state with a `pin` queue replaced. -/
def State.setPinQ (s : State) (k : Nat) (q : List QEnt) : State := { s with queues := smPut [] s.queues k q }

/-- The state with an `up` queue replaced. -/
def State.setUpQ (s : State) (k : Nat) (q : List QEnt) : State := { s with chains := smPut [] s.chains k q }

/-- The entry a port source would pop. -/
def State.portHead (s : State) (r : Nat) : Option QEnt := if r = 60 then (s.pinQ s.me).head? else (s.upQ s.me).head?

/-- A field of a body instruction in pass k (R201). -/
def advance (r : Rep) (k f : Nat) : Nat := f / r.window * r.window + (f % r.window + k * r.stride) % r.window

/-- The scalar registers a body word names, by field bit: 4 for d, 2 for a, 1 for b, 0 for one that never advances, with whether it is written (R201). -/
def bodyScalars (w : Nat) : List (Nat × Nat × Bool) :=
  let op := w / 67108864
  let d := bits w 25 20
  let a := bits w 19 14
  let b := bits w 13 8
  let fn := w % 64
  let v := bits w 25 21
  let va := bits w 20 16
  let vb := bits w 15 11
  let f5 := w % 32
  if op = 1 then
    if (28 ≤ fn ∧ fn ≤ 32) ∨ (34 ≤ fn ∧ fn ≤ 39) then [(4, d, true), (2, a, false)]
    else if fn = 33 then [(4, d, true), (4, d, false), (2, a, false), (1, b, false)]
    else [(4, d, true), (2, a, false), (1, b, false)]
  else if (2 ≤ op ∧ op ≤ 8) then [(4, d, true), (2, a, false)]
  else if op = 9 then [(0, d, true)]
  else if op = 11 then
    if bitAt w 12 then [(4, d, true), (4, d, false), (2, a, false)] else [(4, d, true), (2, a, false)]
  else if op = 0x25 then [(4, v, true)]
  else if op = 0x27 ∧ (f5 = 4 ∨ f5 = 5) then [(4, v, true)]
  else if op = 0x29 then
    if f5 = 0 then [(2, va, false)]
    else if f5 = 1 then [(4, v, true), (1, vb, false)]
    else [(2, va, false), (1, vb, false)]
  else []

/-- The scalar register that a vector instruction, or a body instruction of a repetition, writes (R180, R202). -/
def scalarDest (i : Instr) : Option Nat :=
  ((bodyScalars ((encode i).headD 0)).find? (fun q => q.2.2)).map (fun q => q.2.1)

/-- The scalar registers that it reads. -/
def scalarSrcs (i : Instr) : List Nat :=
  ((bodyScalars ((encode i).headD 0)).filter (fun q => !q.2.2)).map (fun q => q.2.1)

/-- A field in pass k: advanced when its bit m is in the mask. -/
def Rep.field (r : Rep) (k m f : Nat) : Nat := if r.fields / m % 2 = 1 then advance r k f else f

/-- The registers that the passes of a repetition name, with whether they are written (R202); fields repeat after at most 32 passes. -/
def repScalars (r : Rep) : List (Nat × Bool) :=
  (upTo (min r.n 32)).flatMap fun k => r.body.flatMap fun w => (bodyScalars w).map fun (m, f, wr) => (r.field k m f, wr)

/-- A register held by vector work in flight: it can be neither read nor written (R180, R202). -/
def heldWrite (s : State) (k r : Nat) : Bool :=
  r ≠ 0 && (s.vops.any (fun v => ctxKey v.core v.ctx == k && scalarDest v.instr == some r)
    || s.reps.any (fun p => p.key == k && (repScalars p).any (fun q => q.1 == r && q.2)))

/-- A register that passes to come read; it cannot be written (R202). -/
def heldRead (s : State) (k r : Nat) : Bool :=
  r ≠ 0 && s.reps.any (fun p => p.key == k && (repScalars p).any (fun q => q.1 == r))

/-- All sources of a use. -/
def Use.sources (u : Use) : List (Reg × Bool) := u.srcs ++ u.fixed

/-- All destinations of a use. -/
def Use.dests (u : Use) : List Reg := u.dsts ++ u.dstsFixed

/-- The wait, if any, that keeps the instruction from being checked: held registers, an empty source without trap bit, a pending destination (R10, R11, R25, R180).
A pending destination comes before the traps of R25, EMPTY among them, and of several registers the first source, then the first destination. DESIGN CHOICE, unsafe: log entry 71. -/
def Use.waits (s : State) (u : Use) : Option Park :=
  let x := s.self
  let k := s.me
  match u.sources.find? (fun q => heldWrite s k q.1.val) with
  | some q => some (.dest q.1)
  | none =>
    match u.sources.find? (fun q => !isPort q.1.val && !q.2 && (x.cell q.1.val).st ≠ .full) with
    | some q => some (.reg q.1)
    | none =>
      match u.dests.find? (fun d => !isPort d.val && ((x.cell d.val).st = .pending || heldWrite s k d.val || heldRead s k d.val)) with
      | some d => some (.dest d)
      | none => none

/-- A port register is named (R228). -/
def Use.usesPort (u : Use) : Bool := u.sources.any (fun q => isPort q.1.val) || u.dests.any (fun d => isPort d.val)

/-- Whether a list names one port twice. -/
def portTwice : List Nat → Option Nat
  | [] => none
  | r :: t => if isPort r && t.contains r then some r else portTwice t

/-- The register, if any, whose use traps PORT (R13); of several, the first of: fixed sources, fixed destinations, sources, destinations, a port named twice. DESIGN CHOICE, unsafe: log entry 72. -/
def Use.portFault (s : State) (u : Use) : Option Nat :=
  match u.fixed.find? (fun q => isPort q.1.val) with
  | some q => some q.1.val
  | none =>
    match u.dstsFixed.find? (fun d => isPort d.val) with
    | some d => some d.val
    | none =>
      match u.srcs.find? (fun q => isPort q.1.val && (!portReadable s q.1.val || q.2)) with
      | some q => some q.1.val
      | none =>
        match u.dsts.find? (fun d => isPort d.val && !portWritable s d.val) with
        | some d => some d.val
        | none => portTwice ((u.sources.map (·.1.val)) ++ (u.dests.map (·.val)))

/-- The queue, if any, that keeps the instruction from issuing (R62, R63). -/
def Use.queueWait (s : State) (u : Use) : Option Park :=
  match u.srcs.find? (fun q => isPort q.1.val && !((s.portHead q.1.val).any (·.filled))) with
  | some q => some (if q.1.val = 60 then .pin else .up)
  | none =>
    match u.dsts.find? (fun d => (d.val == 61 && decide (32 ≤ (s.pinQ s.poutKey).length))
        || (d.val == 63 && decide (16 ≤ (s.upQ s.dnKey).length))) with
    | some d => some (if d.val = 61 then .pout else .dn)
    | none => none

/-- The register, if any, whose read traps EMPTY (R10); of several, the first source. DESIGN CHOICE, unsafe: log entry 72. -/
def Use.emptyFault (s : State) (u : Use) : Option Nat :=
  (u.sources.find? (fun q => !isPort q.1.val && q.2 && (s.self.cell q.1.val).st ≠ .full)).map (·.1.val)

/-- Whether a source carries a poison mark (R365). -/
def State.marked (s : State) (r : Nat) : Bool :=
  if isPort r then (s.portHead r).any (·.poison) else (s.self.cell r).poison

/-- The value of a source (R62). -/
def State.val (s : State) (r : Reg) : Word :=
  if isPort r.val then ((s.portHead r.val).map (·.val)).getD 0 else (s.self.cell r.val).val

/-- The state after a port source is popped (R62). -/
def State.pop (s : State) (r : Nat) : State :=
  if r = 60 then s.setPinQ s.me (s.pinQ s.me).tail
  else if r = 62 then s.setUpQ s.me (s.upQ s.me).tail
  else s

/-- The state after every port source of a list is popped. -/
def State.popAll (s : State) : List (Reg × Bool) → State
  | [] => s
  | q :: t => (s.pop q.1.val).popAll t

/-- The POISON trap of a source, if any (R365); of several, the first. DESIGN CHOICE, unsafe: log entry 72. -/
def Use.poisonStop (s : State) (u : Use) : Option State :=
  match u.sources.find? (fun q => s.marked q.1.val) with
  | some q =>
    if isPort q.1.val then some ((s.pop q.1.val).trap 0x09 4 (BitVec.ofNat 64 q.1.val))
    else some (s.trap 0x09 1 (BitVec.ofNat 64 q.1.val))
  | none => none

/-- A condition found from register values at issue: cause, subcode, tval (R25). -/
structure Cond where
  cause : Nat
  sub   : Nat
  val   : Word
  deriving DecidableEq, Repr

/-- Issue of an instruction: the waits and traps of its sources and destinations in the order of R25 and R355, then k.
`early` are ILLEGAL and PRIV conditions of register values, which come before PORT.
A wait for a port queue comes after ILLEGAL, PRIV and PORT and before EMPTY. DESIGN CHOICE, unsafe: log entry 73. -/
def State.issueWith (s : State) (u : Use) (early : Option Cond) (k : State) : State :=
  match u.waits s with
  | some p => s.parkMe p
  | none =>
    if s.self.home.isSome && u.usesPort then s.parkMe .homeward
    else match early with
    | some c => s.trap c.cause c.sub c.val
    | none =>
      match u.portFault s with
      | some r => s.trap 0x08 0 (BitVec.ofNat 64 r)
      | none =>
        match u.queueWait s with
        | some p => s.parkMe p
        | none =>
          match u.emptyFault s with
          | some r => s.trap 0x03 0 (BitVec.ofNat 64 r)
          | none =>
            match u.poisonStop s with
            | some t => t
            | none => k

/-- Issue without early conditions. -/
def State.issue (s : State) (u : Use) (k : State) : State := s.issueWith u none k

/-- The registers an early condition reads are full general registers. -/
def State.readable (s : State) (rs : List Reg) : Bool :=
  rs.all (fun r => !isPort r.val && decide ((s.self.cell r.val).st = .full))

/-- A filled entry appended to a queue. -/
def QEnt.of (v : Word) : QEnt := ⟨0, true, v, false⟩

/-- The state with a result and its poison mark written to its destination: a register, or an entry of `pout` or `dn` (R63). -/
def State.putMarked (s : State) (d : Reg) (v : Word) (bad : Bool) : State :=
  if d.val = 61 then s.setPinQ s.poutKey (s.pinQ s.poutKey ++ [⟨0, true, v, bad⟩])
  else if d.val = 63 then s.setUpQ s.dnKey (s.upQ s.dnKey ++ [⟨0, true, v, bad⟩])
  else s.setSelf (s.self.setCell d.val ⟨v, .full, bad⟩)

/-- The state with a result written to its destination. -/
def State.put (s : State) (d : Reg) (v : Word) : State := s.putMarked d v false

/-- One bit fed to the signature checker (R383). -/
def crcBit (c : BitVec 16) (x : Bool) : BitVec 16 :=
  if c.msb != x then (c <<< 1) ^^^ 0x1021#16 else c <<< 1

/-- A signature word fed from its most significant bit down; n bits remain. -/
def crcFeed (c : BitVec 16) (w : Nat) : Nat → BitVec 16
  | 0 => c
  | n + 1 => crcFeed (crcBit c (bitAt w n)) w n

/-- The mask of a signature word by major opcode (R384). -/
def sigMask (op : Nat) : Nat :=
  if op = 0x01 ∨ (0x16 ≤ op ∧ op ≤ 0x18) ∨ (0x1A ≤ op ∧ op ≤ 0x1C) ∨ op = 0x1E ∨ op = 0x2A ∨ op = 0x2B then 0xFFFFFF3F
  else if (0x02 ≤ op ∧ op ≤ 0x07) ∨ op = 0x12 ∨ op = 0x13 then 0xFFFFC000
  else if op = 0x0B then 0xFFFFD000
  else if op = 0x08 ∨ (0x0C ≤ op ∧ op ≤ 0x0F) ∨ op = 0x1F ∨ op = 0x28 ∨ op = 0x2C then 0xFFFFDC00
  else if op = 0x1D then 0xFFFFDF00
  else if op = 0x10 then 0xFFFFF800
  else if op = 0x09 ∨ op = 0x0A ∨ op = 0x11 then 0xFFF00000
  else if op = 0x14 then 0xFC000000
  else if op = 0x19 then 0xFFFC0000
  else if op = 0x3F then 0xFFFFC000
  else 0xFFFFFFFF

/-- The checker after an instruction word has been fed (R383). -/
def sigFeed (c : BitVec 16) (w : Nat) : BitVec 16 := crcFeed c (w &&& sigMask (w / 67108864)) 32

/-- The end check of R84 on the frames, for an instruction that ends at xlast and starts at x: the frames, and the start they go back to. -/
def endCheck (x xlast : Word) : List Frame → List Frame × Option Word
  | [] => ([], none)
  | f :: t =>
    if x ≤ f.stop ∧ f.stop ≤ xlast then
      if f.left - 1 ≠ 0 then ({ f with left := f.left - 1 } :: t, some f.start)
      else endCheck x xlast t
    else (f :: t, none)

/-- The frames a taken transfer to t leaves (R85). -/
def popFrames (t : Word) : List Frame → List Frame
  | [] => []
  | f :: r => if f.start ≤ t ∧ t ≤ f.stop then f :: r else popFrames t r

/-- The context after an instruction of n bytes has completed without a jump: the end check, the pc, and the checker of a block entry (R84, R385). -/
def Ctx.fallThrough (x : Ctx) (n : Nat) : Ctx :=
  let last := x.pc + BitVec.ofNat 64 (n - 4)
  match endCheck x.pc last x.loops with
  | (fs, some t) => { x with loops := fs, pc := t, sig := 0 }
  | (fs, none) => { x with loops := fs, pc := last + 4 }

/-- The context after a taken transfer to t (R85, R385). -/
def Ctx.jump (x : Ctx) (t : Word) : Ctx := { x with loops := popFrames t x.loops, pc := t, sig := 0 }

/-- What issuing leaves in every context: no park, no scratch, and the issue time (R123, R370). -/
def Ctx.issuedAt (x : Ctx) (cycle : Nat) : Ctx :=
  { x with park := none, memo := [], starve := 0, issued := cycle, barked := false, stay := false }

/-- The context with the instruction's signature word fed. -/
def Ctx.feed (x : Ctx) (i : Instr) : Ctx :=
  match encode i with
  | w :: _ => { x with sig := sigFeed x.sig w }
  | [] => x

/-- Completion of an instruction of n bytes that does not jump. -/
def State.finishN (s : State) (i : Instr) (n : Nat) : State :=
  s.setSelf (((s.self.feed i).fallThrough n).issuedAt s.cycle)

/-- Completion of a one-word instruction that does not jump. -/
def State.finish (s : State) (i : Instr) : State := s.finishN i 4

/-- Completion of an instruction that jumps to t. -/
def State.finishJump (s : State) (i : Instr) (t : Word) : State :=
  s.setSelf (((s.self.feed i).jump t).issuedAt s.cycle)

/-- A result written, the ports popped and the instruction completed. -/
def State.retire (s : State) (i : Instr) (u : Use) (d : Reg) (v : Word) : State :=
  ((s.popAll u.srcs).put d v).finish i

/-- An instruction of two sources and one result. -/
def State.run2 (s : State) (i : Instr) (d a b : Reg) (t v : Bool) (f : Word → Word → Word) : State :=
  let u : Use := ⟨[(a, t), (b, v)], [], [d], []⟩
  s.issue u (s.retire i u d (f (s.val a) (s.val b)))

/-- An instruction of one source and one result. -/
def State.run1 (s : State) (i : Instr) (d a : Reg) (t : Bool) (f : Word → Word) : State :=
  let u : Use := ⟨[(a, t)], [], [d], []⟩
  s.issue u (s.retire i u d (f (s.val a)))

/-- An instruction that reads its destination as a further source (R62). -/
def State.run3 (s : State) (i : Instr) (d a b : Reg) (t v : Bool) (f : Word → Word → Word → Word) : State :=
  let u : Use := ⟨[(d, false), (a, t), (b, v)], [], [d], []⟩
  s.issue u (s.retire i u d (f (s.val d) (s.val a) (s.val b)))

/-- An instruction without a source. -/
def State.run0 (s : State) (i : Instr) (d : Reg) (v : Word) : State :=
  let u : Use := ⟨[], [], [d], []⟩
  s.issue u (s.retire i u d v)

/-- ILLEGAL for a value read at issue, tsub 0x0D; tval is the instruction word (R61). -/
def illegalValue (i : Instr) : Cond := ⟨0x01, 0x0D, BitVec.ofNat 64 ((encode i).headD 0)⟩

/-- PRIV, with the instruction word in tval (R354). -/
def privCond (i : Instr) : Cond := ⟨0x02, 0, BitVec.ofNat 64 ((encode i).headD 0)⟩

/-- Issue of an instruction of which several operand values have to meet stated forms: for each form, the registers that it reads and whether it is broken.
A form whose registers can be read is broken before the others are looked at (R25, R61). -/
def State.issueVals (s : State) (i : Instr) (u : Use) (forms : List (List Reg × Bool)) (k : State) : State :=
  s.issueWith u (if forms.any (fun f => s.readable f.1 && f.2) then some (illegalValue i) else none)
    (if forms.any (·.2) then s.trap 0x01 0x0D (illegalValue i).val else k)

/-- Issue of an instruction whose operand values have to meet a stated form: `bad` says that they do not (R25, R61). DEDUCED, unsafe: log entry 22. -/
def State.issueVal (s : State) (i : Instr) (u : Use) (rs : List Reg) (bad : Bool) (k : State) : State :=
  s.issueWith u (if s.readable rs && bad then some (illegalValue i) else none)
    (if bad then s.trap 0x01 0x0D (illegalValue i).val else k)

/-- Where a long-latency result goes: nowhere, a register, or an entry of `pout` or `dn` (R9, R63). -/
def State.longDest (s : State) (d : Reg) (w : Widen) : Dest :=
  if d.val = 0 then .none
  else if d.val = 61 then .queue false s.poutKey w
  else if d.val = 63 then .queue true s.dnKey w
  else .reg d w

/-- A destination awaits request id: the register is empty-pending, or an entry of the queue is reserved (R9, R63). -/
def State.await (s : State) (d : Reg) (id : Nat) : State :=
  if d.val = 61 then s.setPinQ s.poutKey (s.pinQ s.poutKey ++ [⟨id, false, 0, false⟩])
  else if d.val = 63 then s.setUpQ s.dnKey (s.upQ s.dnKey ++ [⟨id, false, 0, false⟩])
  else s.setSelf (s.self.pend d.val)

/-- A result that is already known, delivered later (R9). -/
def State.later (s : State) (d : Reg) (v : Word) : State :=
  let id := s.nid
  let r := { s.newReq id .status (s.longDest d ⟨8, false⟩) 0 8 0 with sampled := true, data := toBytes v.toNat 8 }
  ({ s with nid := s.nid + 1 }.addReq r).await d id

/-- A long-latency producer that another event will complete: its identity and the state (R9). -/
def State.producer (s : State) (d : Reg) : Nat × State :=
  let id := s.nid
  let r := s.newReq id .status (s.longDest d ⟨8, false⟩) 0 8 0
  (id, ({ s with nid := s.nid + 1 }.addReq r).await d id)

/-- The result of a waiting producer is known: it is delivered next. -/
def State.answer (s : State) (id : Nat) (v : Word) : State :=
  { s with reqs := s.reqs.map (fun q => if q.id = id then { q with sampled := true, data := toBytes v.toNat 8 } else q) }

/-- A trap with a condition. -/
def State.trapC (s : State) (c : Cond) : State := s.trap c.cause c.sub c.val

end Sys2Proof.Machine
end

