-- ==== Sys2Proof/Machine/Alu.lean ====
section
/-! DEFINITION. The ALU group, immediates, bit fields and the mix hash (R65 to R71). -/

namespace Sys2Proof.Machine

/-- 1 or 0 as a word. -/
def flag64 (b : Bool) : Word := if b then 1 else 0

/-- The upper half of a product of two integers (R65). -/
def mulHigh (a b : Int) : Word := BitVec.ofInt 64 ((a * b) / 18446744073709551616)

/-- `div` (R66). -/
def divS (a b : Word) : Word :=
  if b = 0 then BitVec.allOnes 64
  else if a = BitVec.intMin 64 ∧ b = BitVec.allOnes 64 then BitVec.intMin 64
  else BitVec.ofInt 64 (Int.tdiv a.toInt b.toInt)

/-- `rem` (R66). -/
def remS (a b : Word) : Word :=
  if b = 0 then a
  else if a = BitVec.intMin 64 ∧ b = BitVec.allOnes 64 then 0
  else BitVec.ofInt 64 (a.toInt - b.toInt * Int.tdiv a.toInt b.toInt)

/-- `divu` (R66). -/
def divU (a b : Word) : Word := if b = 0 then BitVec.allOnes 64 else BitVec.ofNat 64 (a.toNat / b.toNat)

/-- `remu` (R66). -/
def remU (a b : Word) : Word := if b = 0 then a else BitVec.ofNat 64 (a.toNat % b.toNat)

/-- `clz` (R65). -/
def clz64 (a : Word) : Word := BitVec.ofNat 64 (if a = 0 then 64 else 63 - Nat.log2 a.toNat)

/-- `ctz` (R65). -/
def ctz64 (a : Word) : Word := BitVec.ofNat 64 ((firstFrom (fun i => bitAt a.toNat i) 0 64).getD 64)

/-- `bswap` (R65). -/
def bswap64 (a : Word) : Word := BitVec.ofNat 64 (ofBytes (toBytes a.toNat 8).reverse)

/-- The low n bits of x in the opposite order. -/
def reverseBits (x : Nat) : Nat → Nat
  | 0 => 0
  | n + 1 => x % 2 * 2 ^ n + reverseBits (x / 2) n

/-- The mix hash (R67). -/
def mix64 (a b : Word) : Word :=
  let x := a + b.rotateLeft 32
  let x := x ^^^ (x >>> 31)
  let x := x * 0xC3A59D1746E28B5B#64
  let x := x ^^^ (x >>> 29)
  let x := x * 0x8F1D6B2735C9E4A3#64
  x ^^^ (x >>> 32)

/-- An amount of six bits (R65). -/
def amount (b : Word) : Nat := b.toNat % 64

/-- An immediate widened to a word (R38). -/
def imm64 (i : BitVec 13) : Word := i.signExtend 64

/-- An I-format instruction of one source, an immediate and a result. -/
def State.runImm (s : State) (i : Instr) (d a : Reg) (t : Bool) (f : Word → Word) : State :=
  let u : Use := ⟨[(a, t)], [], [d], []⟩
  s.issue u (s.retire i u d (f (s.val a)))


/-- The result of `add` (R65). -/
def fAdd (a b : Word) : Word := a + b

/-- `add` (R65). -/
def execAdd (d a b : Reg) (t u : Bool) (s : State) : Host.Outcome State Fault Refusal :=
  .next (s.run2 (.add d a b t u) d a b t u fAdd)

/-- The result of `sub` (R65). -/
def fSub (a b : Word) : Word := a - b

/-- `sub` (R65). -/
def execSub (d a b : Reg) (t u : Bool) (s : State) : Host.Outcome State Fault Refusal :=
  .next (s.run2 (.sub d a b t u) d a b t u fSub)

/-- The result of `and` (R65). -/
def fAnd (a b : Word) : Word := a &&& b

/-- `and` (R65). -/
def execAnd (d a b : Reg) (t u : Bool) (s : State) : Host.Outcome State Fault Refusal :=
  .next (s.run2 (.and d a b t u) d a b t u fAnd)

/-- The result of `or` (R65). -/
def fOr (a b : Word) : Word := a ||| b

/-- `or` (R65). -/
def execOr (d a b : Reg) (t u : Bool) (s : State) : Host.Outcome State Fault Refusal :=
  .next (s.run2 (.or d a b t u) d a b t u fOr)

/-- The result of `xor` (R65). -/
def fXor (a b : Word) : Word := a ^^^ b

/-- `xor` (R65). -/
def execXor (d a b : Reg) (t u : Bool) (s : State) : Host.Outcome State Fault Refusal :=
  .next (s.run2 (.xor d a b t u) d a b t u fXor)

/-- The result of `andn` (R65). -/
def fAndn (a b : Word) : Word := a &&& ~~~b

/-- `andn` (R65). -/
def execAndn (d a b : Reg) (t u : Bool) (s : State) : Host.Outcome State Fault Refusal :=
  .next (s.run2 (.andn d a b t u) d a b t u fAndn)

/-- The result of `orn` (R65). -/
def fOrn (a b : Word) : Word := a ||| ~~~b

/-- `orn` (R65). -/
def execOrn (d a b : Reg) (t u : Bool) (s : State) : Host.Outcome State Fault Refusal :=
  .next (s.run2 (.orn d a b t u) d a b t u fOrn)

/-- The result of `shl` (R65). -/
def fShl (a b : Word) : Word := a <<< amount b

/-- `shl` (R65). -/
def execShl (d a b : Reg) (t u : Bool) (s : State) : Host.Outcome State Fault Refusal :=
  .next (s.run2 (.shl d a b t u) d a b t u fShl)

/-- The result of `shr` (R65). -/
def fShr (a b : Word) : Word := a >>> amount b

/-- `shr` (R65). -/
def execShr (d a b : Reg) (t u : Bool) (s : State) : Host.Outcome State Fault Refusal :=
  .next (s.run2 (.shr d a b t u) d a b t u fShr)

/-- The result of `sra` (R65). -/
def fSra (a b : Word) : Word := a.sshiftRight (amount b)

/-- `sra` (R65). -/
def execSra (d a b : Reg) (t u : Bool) (s : State) : Host.Outcome State Fault Refusal :=
  .next (s.run2 (.sra d a b t u) d a b t u fSra)

/-- The result of `rol` (R65). -/
def fRol (a b : Word) : Word := a.rotateLeft (amount b)

/-- `rol` (R65). -/
def execRol (d a b : Reg) (t u : Bool) (s : State) : Host.Outcome State Fault Refusal :=
  .next (s.run2 (.rol d a b t u) d a b t u fRol)

/-- The result of `ror` (R65). -/
def fRor (a b : Word) : Word := a.rotateRight (amount b)

/-- `ror` (R65). -/
def execRor (d a b : Reg) (t u : Bool) (s : State) : Host.Outcome State Fault Refusal :=
  .next (s.run2 (.ror d a b t u) d a b t u fRor)

/-- The result of `mul` (R65). -/
def fMul (a b : Word) : Word := a * b

/-- `mul` (R65). -/
def execMul (d a b : Reg) (t u : Bool) (s : State) : Host.Outcome State Fault Refusal :=
  .next (s.run2 (.mul d a b t u) d a b t u fMul)

/-- The result of `mulh` (R65). -/
def fMulh (a b : Word) : Word := mulHigh a.toInt b.toInt

/-- `mulh` (R65). -/
def execMulh (d a b : Reg) (t u : Bool) (s : State) : Host.Outcome State Fault Refusal :=
  .next (s.run2 (.mulh d a b t u) d a b t u fMulh)

/-- The result of `mulhu` (R65). -/
def fMulhu (a b : Word) : Word := mulHigh a.toNat b.toNat

/-- `mulhu` (R65). -/
def execMulhu (d a b : Reg) (t u : Bool) (s : State) : Host.Outcome State Fault Refusal :=
  .next (s.run2 (.mulhu d a b t u) d a b t u fMulhu)

/-- The result of `mulhsu` (R65). -/
def fMulhsu (a b : Word) : Word := mulHigh a.toInt b.toNat

/-- `mulhsu` (R65). -/
def execMulhsu (d a b : Reg) (t u : Bool) (s : State) : Host.Outcome State Fault Refusal :=
  .next (s.run2 (.mulhsu d a b t u) d a b t u fMulhsu)

/-- The result of `div` (R65). -/
def fDiv (a b : Word) : Word := divS a b

/-- `div` (R65). -/
def execDiv (d a b : Reg) (t u : Bool) (s : State) : Host.Outcome State Fault Refusal :=
  .next (s.run2 (.div d a b t u) d a b t u fDiv)

/-- The result of `divu` (R65). -/
def fDivu (a b : Word) : Word := divU a b

/-- `divu` (R65). -/
def execDivu (d a b : Reg) (t u : Bool) (s : State) : Host.Outcome State Fault Refusal :=
  .next (s.run2 (.divu d a b t u) d a b t u fDivu)

/-- The result of `rem` (R65). -/
def fRem (a b : Word) : Word := remS a b

/-- `rem` (R65). -/
def execRem (d a b : Reg) (t u : Bool) (s : State) : Host.Outcome State Fault Refusal :=
  .next (s.run2 (.rem d a b t u) d a b t u fRem)

/-- The result of `remu` (R65). -/
def fRemu (a b : Word) : Word := remU a b

/-- `remu` (R65). -/
def execRemu (d a b : Reg) (t u : Bool) (s : State) : Host.Outcome State Fault Refusal :=
  .next (s.run2 (.remu d a b t u) d a b t u fRemu)

/-- The result of `min` (R65). -/
def fMin (a b : Word) : Word := if a.sle b then a else b

/-- `min` (R65). -/
def execMin (d a b : Reg) (t u : Bool) (s : State) : Host.Outcome State Fault Refusal :=
  .next (s.run2 (.min d a b t u) d a b t u fMin)

/-- The result of `max` (R65). -/
def fMax (a b : Word) : Word := if b.sle a then a else b

/-- `max` (R65). -/
def execMax (d a b : Reg) (t u : Bool) (s : State) : Host.Outcome State Fault Refusal :=
  .next (s.run2 (.max d a b t u) d a b t u fMax)

/-- The result of `minu` (R65). -/
def fMinu (a b : Word) : Word := if a.ule b then a else b

/-- `minu` (R65). -/
def execMinu (d a b : Reg) (t u : Bool) (s : State) : Host.Outcome State Fault Refusal :=
  .next (s.run2 (.minu d a b t u) d a b t u fMinu)

/-- The result of `maxu` (R65). -/
def fMaxu (a b : Word) : Word := if b.ule a then a else b

/-- `maxu` (R65). -/
def execMaxu (d a b : Reg) (t u : Bool) (s : State) : Host.Outcome State Fault Refusal :=
  .next (s.run2 (.maxu d a b t u) d a b t u fMaxu)

/-- The result of `slt` (R65). -/
def fSlt (a b : Word) : Word := flag64 (a.slt b)

/-- `slt` (R65). -/
def execSlt (d a b : Reg) (t u : Bool) (s : State) : Host.Outcome State Fault Refusal :=
  .next (s.run2 (.slt d a b t u) d a b t u fSlt)

/-- The result of `sltu` (R65). -/
def fSltu (a b : Word) : Word := flag64 (a.ult b)

/-- `sltu` (R65). -/
def execSltu (d a b : Reg) (t u : Bool) (s : State) : Host.Outcome State Fault Refusal :=
  .next (s.run2 (.sltu d a b t u) d a b t u fSltu)

/-- The result of `seq` (R65). -/
def fSeq (a b : Word) : Word := flag64 (a == b)

/-- `seq` (R65). -/
def execSeq (d a b : Reg) (t u : Bool) (s : State) : Host.Outcome State Fault Refusal :=
  .next (s.run2 (.seq d a b t u) d a b t u fSeq)

/-- The result of `sne` (R65). -/
def fSne (a b : Word) : Word := flag64 (a != b)

/-- `sne` (R65). -/
def execSne (d a b : Reg) (t u : Bool) (s : State) : Host.Outcome State Fault Refusal :=
  .next (s.run2 (.sne d a b t u) d a b t u fSne)

/-- The result of `mix` (R65). -/
def fMix (a b : Word) : Word := mix64 a b

/-- `mix` (R65). -/
def execMix (d a b : Reg) (t u : Bool) (s : State) : Host.Outcome State Fault Refusal :=
  .next (s.run2 (.mix d a b t u) d a b t u fMix)

/-- The result of `clz` (R65). -/
def fClz (a : Word) : Word := clz64 a

/-- `clz` (R65). -/
def execClz (d a : Reg) (t : Bool) (s : State) : Host.Outcome State Fault Refusal :=
  .next (s.run1 (.clz d a t) d a t fClz)

/-- The result of `ctz` (R65). -/
def fCtz (a : Word) : Word := ctz64 a

/-- `ctz` (R65). -/
def execCtz (d a : Reg) (t : Bool) (s : State) : Host.Outcome State Fault Refusal :=
  .next (s.run1 (.ctz d a t) d a t fCtz)

/-- The result of `popc` (R65). -/
def fPopc (a : Word) : Word := BitVec.ofNat 64 (popCount a.toNat 64)

/-- `popc` (R65). -/
def execPopc (d a : Reg) (t : Bool) (s : State) : Host.Outcome State Fault Refusal :=
  .next (s.run1 (.popc d a t) d a t fPopc)

/-- The result of `bswap` (R65). -/
def fBswap (a : Word) : Word := bswap64 a

/-- `bswap` (R65). -/
def execBswap (d a : Reg) (t : Bool) (s : State) : Host.Outcome State Fault Refusal :=
  .next (s.run1 (.bswap d a t) d a t fBswap)

/-- The result of `brev` (R65). -/
def fBrev (a : Word) : Word := BitVec.ofNat 64 (reverseBits a.toNat 64)

/-- `brev` (R65). -/
def execBrev (d a : Reg) (t : Bool) (s : State) : Host.Outcome State Fault Refusal :=
  .next (s.run1 (.brev d a t) d a t fBrev)

/-- The result of `sextB` (R65). -/
def fSextB (a : Word) : Word := sext64 a.toNat 8

/-- `sextB` (R65). -/
def execSextB (d a : Reg) (t : Bool) (s : State) : Host.Outcome State Fault Refusal :=
  .next (s.run1 (.sextB d a t) d a t fSextB)

/-- The result of `sextH` (R65). -/
def fSextH (a : Word) : Word := sext64 a.toNat 16

/-- `sextH` (R65). -/
def execSextH (d a : Reg) (t : Bool) (s : State) : Host.Outcome State Fault Refusal :=
  .next (s.run1 (.sextH d a t) d a t fSextH)

/-- The result of `sextW` (R65). -/
def fSextW (a : Word) : Word := sext64 a.toNat 32

/-- `sextW` (R65). -/
def execSextW (d a : Reg) (t : Bool) (s : State) : Host.Outcome State Fault Refusal :=
  .next (s.run1 (.sextW d a t) d a t fSextW)

/-- The result of `zextB` (R65). -/
def fZextB (a : Word) : Word := BitVec.ofNat 64 (a.toNat % 256)

/-- `zextB` (R65). -/
def execZextB (d a : Reg) (t : Bool) (s : State) : Host.Outcome State Fault Refusal :=
  .next (s.run1 (.zextB d a t) d a t fZextB)

/-- The result of `zextH` (R65). -/
def fZextH (a : Word) : Word := BitVec.ofNat 64 (a.toNat % 65536)

/-- `zextH` (R65). -/
def execZextH (d a : Reg) (t : Bool) (s : State) : Host.Outcome State Fault Refusal :=
  .next (s.run1 (.zextH d a t) d a t fZextH)

/-- The result of `zextW` (R65). -/
def fZextW (a : Word) : Word := BitVec.ofNat 64 (a.toNat % 4294967296)

/-- `zextW` (R65). -/
def execZextW (d a : Reg) (t : Bool) (s : State) : Host.Outcome State Fault Refusal :=
  .next (s.run1 (.zextW d a t) d a t fZextW)

/-- `sel`: the old value of d selects (R65). -/
def execSel (d a b : Reg) (t u : Bool) (s : State) : Host.Outcome State Fault Refusal :=
  .next (s.run3 (.sel d a b t u) d a b t u (fun x y z => if x ≠ 0 then y else z))

/-- The result of `addi` (R68). -/
def fAddi (i : BitVec 13) (x : Word) : Word := x + imm64 i

/-- `addi` (R68). -/
def execAddi (d a : Reg) (t : Bool) (i : BitVec 13) (s : State) : Host.Outcome State Fault Refusal :=
  .next (s.runImm (.addi d a t i) d a t (fAddi i))

/-- The result of `andi` (R68). -/
def fAndi (i : BitVec 13) (x : Word) : Word := x &&& imm64 i

/-- `andi` (R68). -/
def execAndi (d a : Reg) (t : Bool) (i : BitVec 13) (s : State) : Host.Outcome State Fault Refusal :=
  .next (s.runImm (.andi d a t i) d a t (fAndi i))

/-- The result of `ori` (R68). -/
def fOri (i : BitVec 13) (x : Word) : Word := x ||| imm64 i

/-- `ori` (R68). -/
def execOri (d a : Reg) (t : Bool) (i : BitVec 13) (s : State) : Host.Outcome State Fault Refusal :=
  .next (s.runImm (.ori d a t i) d a t (fOri i))

/-- The result of `xori` (R68). -/
def fXori (i : BitVec 13) (x : Word) : Word := x ^^^ imm64 i

/-- `xori` (R68). -/
def execXori (d a : Reg) (t : Bool) (i : BitVec 13) (s : State) : Host.Outcome State Fault Refusal :=
  .next (s.runImm (.xori d a t i) d a t (fXori i))

/-- The result of `slti` (R68). -/
def fSlti (i : BitVec 13) (x : Word) : Word := flag64 (x.slt (imm64 i))

/-- `slti` (R68). -/
def execSlti (d a : Reg) (t : Bool) (i : BitVec 13) (s : State) : Host.Outcome State Fault Refusal :=
  .next (s.runImm (.slti d a t i) d a t (fSlti i))

/-- The result of `sltiu` (R68). -/
def fSltiu (i : BitVec 13) (x : Word) : Word := flag64 (x.ult (imm64 i))

/-- `sltiu` (R68). -/
def execSltiu (d a : Reg) (t : Bool) (i : BitVec 13) (s : State) : Host.Outcome State Fault Refusal :=
  .next (s.runImm (.sltiu d a t i) d a t (fSltiu i))

/-- `shli` (R69). -/
def execShli (d a : Reg) (t : Bool) (n : Fin 64) (s : State) : Host.Outcome State Fault Refusal :=
  .next (s.runImm (.shli d a t n) d a t (fun x => x <<< n.val))

/-- `shri` (R69). -/
def execShri (d a : Reg) (t : Bool) (n : Fin 64) (s : State) : Host.Outcome State Fault Refusal :=
  .next (s.runImm (.shri d a t n) d a t (fun x => x >>> n.val))

/-- `srai` (R69). -/
def execSrai (d a : Reg) (t : Bool) (n : Fin 64) (s : State) : Host.Outcome State Fault Refusal :=
  .next (s.runImm (.srai d a t n) d a t (fun x => x.sshiftRight n.val))

/-- `roli` (R69). -/
def execRoli (d a : Reg) (t : Bool) (n : Fin 64) (s : State) : Host.Outcome State Fault Refusal :=
  .next (s.runImm (.roli d a t n) d a t (fun x => x.rotateLeft n.val))

/-- The upper immediate sext(imm << 12, 64) (R38). -/
def upper64 (i : BitVec 20) : Word := (i ++ 0#12).signExtend 64

/-- `lui` (R70). -/
def execLui (d : Reg) (i : BitVec 20) (s : State) : Host.Outcome State Fault Refusal := .next (s.run0 (.lui d i) d (upper64 i))

/-- `addpc` (R70). -/
def execAddpc (d : Reg) (i : BitVec 20) (s : State) : Host.Outcome State Fault Refusal :=
  .next (s.run0 (.addpc d i) d (s.self.pc + upper64 i))

/-- `bfx`: bits [lo + width − 1 : lo], the field w holding width − 1 (R71). -/
def bfx64 (l w : Nat) (x : Word) : Word := BitVec.ofNat 64 (x.toNat / 2 ^ l % 2 ^ (w + 1))

/-- `bfx` (R71). -/
def execBfx (d a : Reg) (t : Bool) (l w : Fin 64) (s : State) : Host.Outcome State Fault Refusal :=
  .next (s.runImm (.bfx d a t l w) d a t (bfx64 l.val w.val))

/-- `bfi`: the old d with a field replaced by the low bits of a (R71). -/
def bfi64 (l w : Nat) (o x : Word) : Word :=
  let m := (2 ^ (w + 1) - 1) * 2 ^ l
  (o &&& ~~~(BitVec.ofNat 64 m)) ||| BitVec.ofNat 64 (x.toNat % 2 ^ (w + 1) * 2 ^ l)

/-- `bfi` (R71). -/
def execBfi (d a : Reg) (t : Bool) (l w : Fin 64) (s : State) : Host.Outcome State Fault Refusal :=
  let u : Use := ⟨[(d, false), (a, t)], [], [d], []⟩
  .next (s.issue u (s.retire (.bfi d a t l w) u d (bfi64 l.val w.val (s.val d) (s.val a))))

end Sys2Proof.Machine
end

