-- ==== Sys2Proof/Machine/Translate.lean ====
section
/-! DEFINITION. Where an address leads: the stripe map, vaults and banks, page walks, translation caches and the checks of R72 (R21, R22, R72, R215, R219 to R224, R425, R426). -/

namespace Sys2Proof.Machine

/-- The stripe of a region that holds a global physical address (R426). -/
def Stripes.stripe (r : Stripes) (pa : Nat) : Option Nat :=
  let z := 2 ^ (12 + r.k)
  if r.valid && r.base ≤ pa && pa < r.base + r.size * z then some ((pa - r.base) / z) else none

/-- The home cube and cube-local address that a descriptor gives an address in it (R426). -/
def Stripes.home (r : Stripes) (settab : SMap Nat) (pa : Nat) : Nat × Nat :=
  let z := 2 ^ (12 + r.k)
  let o := pa - r.base
  let s := o / z
  let i := if r.perm then (s + s / r.n) % r.n else s % r.n
  (smGet 0 settab (r.setbase + i), r.lb + s / r.n * z + o % z)

/-- The home of an address under this cube's map: stripes below the cursor of a moving region follow the next descriptor (R426, R429). -/
def State.home (s : State) (pa : Nat) : Option (Nat × Nat) :=
  match s.regions.find? (fun r => (r.2.cur.stripe pa).isSome) with
  | some (_, r) =>
    match r.next with
    | some q => if r.moving && (r.cur.stripe pa).any (· < r.cursor) then some (q.home s.settab pa) else some (r.cur.home s.settab pa)
    | none => some (r.cur.home s.settab pa)
  | none => none

/-- The host window of the global physical space (R448). -/
def hostWindow (pa : Nat) : Bool := decide (pa / 2 ^ 48 = 15)

/-- The six-bit exclusive or of the hashed layout (R219). -/
def hashVault (l : Nat) : Nat :=
  (bits l 5 0) ^^^ (bits l 11 6) ^^^ (bits l 17 12) ^^^ (bits l 23 18) ^^^ (bits l 28 24)

/-- Vault, die, bank group, bank, row and byte in the row. -/
structure Place where
  vault : Nat
  die   : Nat
  group : Nat
  bank  : Nat
  row   : Nat
  byte  : Nat
  deriving DecidableEq, Repr

/-- Whether firmware has made a slice bank-linear (R219). -/
def State.isLinear (s : State) (slice : Nat) : Bool := smGet false s.linear slice

/-- Where the bytes of a cube-local address lie (R219). -/
def State.place (s : State) (la : Nat) : Place :=
  let sl := la / 2 ^ 36
  let o := la % 2 ^ 36
  if s.isLinear sl then
    ⟨bits o 35 30, 2 * sl + bits o 29 29, bits o 28 27, bits o 26 25, bits o 24 10, bits o 9 0⟩
  else
    let l := bits o 35 7
    let q := bits l 28 6 * 128 + o % 128
    ⟨hashVault l, 2 * sl + bits q 29 29, bits q 28 27, bits q 26 25, bits q 24 10, bits q 9 0⟩

/-- The number of a bank within its vault (R350). -/
def Place.bankNo (p : Place) : Nat := 16 * p.die + 4 * p.group + p.bank

/-- A translation cache (R223). -/
def State.tlb (s : State) (u : Nat) : List TlbEntry := smGet [] s.tlbs u

/-- The number of entries of a translation cache (R223). -/
def tlbSize (u : Nat) : Nat := if u < 128 then 512 else 128

/-- The entry that translates an address, if any. -/
def State.tlbHit (s : State) (u tenant va : Nat) : Option TlbEntry :=
  (s.tlb u).find? (fun e => e.tenant == tenant && e.page == va / e.size * e.size)

/-- An entry installed; a full cache loses an entry that the spec does not name (R223). -/
def State.tlbInstall (s : State) (u : Nat) (e : TlbEntry) : State :=
  let l := (s.tlb u).filter (fun f => !(f.tenant == e.tenant && f.page == e.page && f.size == e.size))
  if tlbSize u ≤ l.length then
    let (i, s) := s.choose l.length
    { s with tlbs := smPut [] s.tlbs u (l.eraseIdx i ++ [e]) }
  else { s with tlbs := smPut [] s.tlbs u (l ++ [e]) }

/-- The tenant bits T of a leaf (R221). -/
def attrTenant (a : Nat) : Nat := bits a 15 12
/-- G: guardable. -/
def attrG (a : Nat) : Bool := bitAt a 6
/-- J: journaled. -/
def attrJ (a : Nat) : Bool := bitAt a 7
/-- B: bank-linear. -/
def attrB (a : Nat) : Bool := bitAt a 8
/-- M: migrate. -/
def attrM (a : Nat) : Bool := bitAt a 5
/-- C: cacheable. -/
def attrC (a : Nat) : Bool := bitAt a 4
/-- U: user. -/
def attrU (a : Nat) : Bool := bitAt a 3
/-- W: writable. -/
def attrW (a : Nat) : Bool := bitAt a 2

/-- The PROT subcode of an access after translation, if any (R222). -/
def protSub (tenant attr : Nat) (user store : Bool) : Option Nat :=
  if attrTenant attr ≠ tenant then some 3
  else if user && !attrU attr then some 2
  else if store && !attrW attr then some 1
  else none

/-- What stops an access to a translated address, cause and subcode: XLAT for an address in no region, then PROT by the leaf, then PROT for a page of the host window that the access may not use (R25, R221, R426, R448). -/
def State.pageStop (s : State) (tenant pa attr : Nat) (user store hostOk : Bool) : Option (Nat × Nat) :=
  if !hostWindow pa && (s.home pa).isNone then some (0x06, 3)
  else
    match protSub tenant attr user store with
    | some sub => some (0x07, sub)
    | none => if hostWindow pa && !hostOk then some (0x07, 5) else none

/-- A miss: the walk is joined or queued, and the context waits (R223, R224). -/
def State.miss (s : State) (u tenant va : Nat) : State :=
  let page := va / 65536
  let k := s.me
  if 32 ≤ (s.walks.filter (fun w => w.tlbs.contains u)).length
      && !(s.walks.any (fun w => w.tenant == tenant && w.va / 65536 == page && w.tlbs.contains u)) then
    s.parkMe .missSlot
  else
    let ws :=
      if s.walks.any (fun w => w.tenant == tenant && w.va / 65536 == page) then
        s.walks.map (fun w => if w.tenant == tenant && w.va / 65536 == page then
          { w with tlbs := if w.tlbs.contains u then w.tlbs else w.tlbs ++ [u], waiters := w.waiters ++ [k] } else w)
      else s.walks ++ [{ tenant := tenant, va := va, tlbs := [u], waiters := [k], stale := [], asked := false }]
    { s with walks := ws }.parkMe (.walk tenant page)

/-- What kind of storage an access reaches, with the state after its checks. -/
inductive Acc where
  | stop (s : State)
  | localMem (o : Nat)
  | tile (w o : Nat)
  | virt (va pa attr : Nat)
  deriving Repr

/-- The base of the own local memory's addresses (R21). -/
def localBase : Nat := 0xF000000000000000

/-- Stored bits and view bytes of a window's element (R216). -/
def windowBits (w : Nat) : Nat := match w with
  | 0 => 8
  | 1 => 16
  | 2 => 16
  | 3 => 8
  | 4 => 8
  | _ => 4

/-- The view size of a window's element (R216). -/
def windowView (w : Nat) : Nat := if w = 0 then 1 else 4

/-- The scratch size of a tile (R211). -/
def State.scratchSize (s : State) (t : Nat) : Nat := (12 - (s.tile t).n) * 131072

/-- View bytes per block of a plane view format (R297). -/
def planeVB (f : Nat) : Nat := match f with
  | 0 => 128
  | 1 => 64
  | 2 => 64
  | 3 => 32
  | 4 => 128
  | 5 => 32
  | _ => 16

/-- The record length of the plane window (R297). -/
def planeLen (kindB : Bool) (p : Nat) : Nat :=
  if kindB then 16 + 32 * (if p ≤ 8 then 1 else 2) else 16 * ((p + 1 + 3) / 4)

/-- Whether an offset of the plane window is legal (R297). -/
def planeOk (scratch o : Nat) : Bool :=
  let f := bits o 26 24
  let p := bits o 30 27 + 1
  let b := o % 2 ^ 21 / planeVB f
  f ≠ 7 && bits o 23 21 == 0 && decide ((b + 1) * planeLen (bitAt o 31) p ≤ scratch)

/-- Whether a view offset of a window is legal for n view bytes (R215). -/
def windowOk (scratch w o n : Nat) : Bool :=
  if w = 6 then planeOk scratch o && planeOk scratch (o + n - 1)
  else decide (((o + n - 1) / windowView w + 1) * windowBits w ≤ scratch * 8)

/-- The subcode with which a walk for the page of an address has failed, when the access is made again (R366). -/
def Ctx.walkFault (x : Ctx) (va : Nat) : Option Nat :=
  match x.xfault with
  | some (page, sub) => if page = va / 65536 then some sub else none
  | none => none

/-- What stops an access before its address is looked at: an acquiring atomic of the thread that has not completed (R240), an on-die address of a moth (R228), and misalignment (R21). -/
def State.accessStop (s : State) (ea al : Nat) : Option State :=
  let acqs := (s.reqs.filter (fun r => r.agent == s.agent && r.acq != 0)).map (·.id)
  if acqs ≠ [] then some (s.parkMe (.reqs acqs))
  else if s.self.home.isSome && ea / 2 ^ 60 == 15 then some (s.parkMe .homeward)
  else if ea % al ≠ 0 then some (s.trap 0x04 0 (BitVec.ofNat 64 ea))
  else none

/-- The checks of R72 for an access of n bytes: alignment, address kind, translation and permission (R21, R22, R23, R215, R217, R222, R302, R448).
An access behind an acquiring atomic waits for it (R240); a moth's on-die access takes it home (R228).
`hostOk` says that the access may use a page of the host window. -/
def State.access (s : State) (ea n al : Nat) (store hostOk : Bool) : Acc :=
  let x := s.self
  let v : Word := BitVec.ofNat 64 ea
  let user := decide (x.priv = .user)
  let core := s.cur.1
  let addr := Acc.stop (s.trap 0x05 0 v)
  match s.accessStop ea al with
  | some t => .stop t
  | none =>
  if ea / 2 ^ 60 = 15 then
    if localBase ≤ ea ∧ ea + n ≤ localBase + 65536 then
      let o := ea - localBase
      if user && decide (0xD000 < o + n) then .stop (s.trap 0x07 4 v)
      else if user && store && decide (core < 256) && decide (0xCE00 < o + n) && decide (o < 0xD000) then .stop (s.trap 0x07 4 v)
      else .localMem o
    else if kindOf core = .a ∧ ea / 2 ^ 36 = 0xF800000 ∧ bits ea 35 32 ≤ 6 then
      let w := bits ea 35 32
      let o := ea % 2 ^ 32
      if 1 ≤ w ∧ w ≤ 5 ∧ n < 4 then .stop (s.trap 0x04 0 v)
      else if w = 6 ∧ n < 128 ∧ (store ∨ n < 4 ∨ (bits o 26 24 ≠ 0 ∧ bits o 26 24 ≠ 4)) then .stop (s.trap 0x04 0 v)
      else if windowOk (s.scratchSize (tileOf core)) w o n then .tile w o
      else addr
    else addr
  else if kindOf core = .e then addr
  else if ea / 2 ^ 56 ≠ 0 then addr
  else
    match x.walkFault ea with
    | some sub => .stop ((s.setSelf { x with xfault := none }).trap 0x06 sub v)
    | none =>
      match s.tlbHit (unitOf core) x.tenant ea with
      | none => .stop (s.miss (unitOf core) x.tenant ea)
      | some e =>
        let pa := e.pa + ea % e.size
        match s.pageStop x.tenant pa e.attr user store hostOk with
        | some (cause, sub) => .stop (s.trap cause sub v)
        | none => .virt ea pa e.attr

end Sys2Proof.Machine
end

