-- ==== Sys2Proof/Machine/Dram.lean ====
section
/-! DEFINITION. DRAM behind its check words, the error registers, the undo journal with its guard holds and checkpoint intervals, and raising events of a steward (R246, R247, R259 to R261, R335, R336, R368, R392 to R402, R410, R487, R488). -/

namespace Sys2Proof.Machine

/-! ### Steward events -/

/-- A steward event of a tenant without payload. -/
def StewEvent.of (tenant cause sub : Nat) (val : Nat) : StewEvent :=
  { tenant := tenant, fw := false, cause := cause, sub := sub, val := BitVec.ofNat 64 val, orphan := false
    seq := 0, words := [], cmd := 0, src := 0 }

/-- A supervisor message raised inside the cube, with what s3 and s4 hold (R370, R403). -/
def StewEvent.msg (tenant sub val w3 w4 : Nat) : StewEvent :=
  { StewEvent.of tenant 0x23 sub val with words := [0, BitVec.ofNat 64 w3, BitVec.ofNat 64 w4] }

/-- Raise an event inside the cube: it takes an entry of the core's queue, or waits at its source when the queue is full (R368). -/
def State.raise (s : State) (core : Nat) (e : StewEvent) : State :=
  let c := s.core core
  if c.queue.length < 32 ∧ c.waiting = [] then s.setCore core { c with queue := c.queue ++ [e] }
  else s.setCore core { c with waiting := c.waiting ++ [e] }

/-- Raise an event at every tenant of a list. -/
def State.raiseAll (s : State) (core : Nat) (f : Nat → StewEvent) : List Nat → State
  | [] => s
  | t :: ts => (s.raise core (f t)).raiseAll core f ts

/-- The elements of a list without repetition, the first kept. -/
def distinct : List Nat → List Nat
  | [] => []
  | x :: xs => x :: (distinct xs).filter (· ≠ x)

/-- What the cube sends outside. -/
def State.sendOut (s : State) (op : Instr) (a : EvArg) : State := { s with outbox := ⟨op, a⟩ :: s.outbox }

/-- The packet delivery contexts of the cube (R417). -/
def pdcLimit : Nat := 65536

/-- A packet put on a context: it leaves, and is kept until it is acknowledged (R418, R419). -/
def Pdc.load (p : Pdc) (num : Nat) (e : Ev) (now : Nat) : Pdc :=
  { p with sent := p.sent ++ [⟨num, e, now + 16000, 16000⟩], used := now, since := if p.sent.isEmpty then now else p.since }

/-- The key of a peer and class. -/
def pdcKey (cube mode : Nat) : Nat := 4 * cube + mode

/-- A packet leaves on the peer's context of its class, on a new one, or in place of the least recently used one without an unacknowledged packet; nothing when there is none (R418). -/
def State.putPacket (s : State) (cube mode : Nat) (op : Instr) (a : EvArg) : Option State :=
  let n := smGet 0 s.sendNo (pdcKey cube mode)
  let e : Ev := ⟨op, { a with peer := some cube, seq := some (mode, n, s.time) }⟩
  let out (l : List Pdc) : State := { s with pdcs := l, outbox := e :: s.outbox, sendNo := smPut 0 s.sendNo (pdcKey cube mode) (n + 1) }
  let new := (Pdc.mk cube mode [] s.time s.time).load n e s.time
  if s.pdcs.any (fun p => p.peer == cube && p.mode == mode) then
    some (out (s.pdcs.map (fun (p : Pdc) => if p.peer = cube ∧ p.mode = mode then p.load n e s.time else p)))
  else if s.pdcs.length < pdcLimit then some (out (s.pdcs ++ [new]))
  else
    match s.pdcs.filter (fun p => p.sent.isEmpty) with
    | [] => none
    | q :: qs =>
      let v := qs.foldl (fun (b : Pdc) p => if p.used < b.used then p else b) q
      some (out (s.pdcs.filter (fun p => p ≠ v) ++ [new]))

/-- A packet for another cube in class U, O, I or C (0 to 3): it leaves, or waits behind the packets that wait for the same peer and class, or for a context (R418, R420). DESIGN CHOICE, unsafe: log entry 10. -/
def State.sendTo (s : State) (cube mode : Nat) (op : Instr) (a : EvArg) : State :=
  let wait : State := { s with pdcWait := s.pdcWait ++ [(mode, ⟨op, { a with peer := some cube }⟩)] }
  if s.pdcWait.any (fun p => p.1 == mode && p.2.arg.peer == some cube) then wait
  else (s.putPacket cube mode op a).getD wait

/-- The cancel filter holds a job (R459). -/
def State.cancelled (s : State) (tenant job : Nat) : Bool := s.filters.any (fun f => f.tenant == tenant && f.job == job)

/-! ### Check words -/

/-- A power of two. -/
def isPow2 (n : Nat) : Bool := n != 0 && 2 ^ Nat.log2 n == n

/-- P(0), …, P(127): the integers from 3 to 136 that are no power of two (R487). -/
def dataPos : List Nat := (List.range 137).filter (fun n => decide (3 ≤ n) && !isPow2 n)

/-- The exclusive or of the positions of the one bits of d, which stands shifted to its bit i. -/
def xorPos (d : Nat) : List Nat → Nat
  | [] => 0
  | p :: ps => (if d % 2 = 1 then p else 0) ^^^ xorPos (d / 2) ps

/-- The check word that a write computes for a half (R487). -/
def checkWord (d : Nat) : Nat :=
  let p := xorPos d dataPos
  p + (popCount d 128 + popCount p 8) % 2 * 256

/-- The syndrome of a half and its check word (R487). -/
def syndrome (d c : Nat) : Nat :=
  (c % 256 ^^^ xorPos d dataPos) + (popCount d 128 + popCount c 9) % 2 * 256 + c / 512 * 512

/-- The check word written with a sector that is to read uncorrectable (R487, R488). -/
def badWord (d : Nat) : Nat := checkWord d + 0x7F * 512

/-- What a read of a half gives: the data, and whether they were corrected or are uncorrectable. -/
inductive HalfRead where
  | clean (d : Nat)
  | corrected (d : Nat)
  | uncorrectable (s : Nat)
  deriving DecidableEq, Repr

/-- The result of reading a half with a check word (R487). -/
def readHalf (d c : Nat) : HalfRead :=
  let s := syndrome d c
  if s = 0 then .clean d
  else if s / 512 = 0 ∧ bitAt s 8 then
    let p := s % 256
    if p = 0 ∨ isPow2 p then .corrected d
    else match dataPos.findIdx? (· == p) with
      | some i => .corrected (d ^^^ 2 ^ i)
      | none => .uncorrectable s
  else .uncorrectable s

/-- The stored data of the sector at a cube-local address. -/
def State.rawSector (s : State) (la : Nat) : Nat := ofBytes (Memory.read s.mem (la / 16 * 16) 16)

/-- Added to a check word of the table, it says that the half is uncorrectable until a write covers it whole, whatever its syndrome: an injection, or a partial write to an uncorrectable half (R410). -/
def eccStuck : Nat := 65536

/-- The stored check word of a sector; 0 in the table stands for the computed one. -/
def State.checkOf (s : State) (la : Nat) : Nat :=
  match smGet 0 s.ecc (la / 16) with
  | 0 => checkWord (s.rawSector la)
  | n + 1 => n % eccStuck

/-- The read of a sector of DRAM. -/
def State.sectorRead (s : State) (la : Nat) : HalfRead :=
  match smGet 0 s.ecc (la / 16) with
  | 0 => .clean (s.rawSector la)
  | n + 1 => if n < eccStuck then readHalf (s.rawSector la) n else .uncorrectable (syndrome (s.rawSector la) (n % eccStuck))

/-- A count that saturates at 255. -/
def sat255 (n : Nat) : Nat := min n 255

/-- BERR after a corrected error (R336). -/
def berrCorrected (b : Nat) : Nat := b % 2 ^ 48 + sat255 (bits b 55 48 + 1) * 2 ^ 48 + bits b 63 56 * 2 ^ 56

/-- BERR after an uncorrectable error at a place (R336). -/
def berrLog (b syn : Nat) (p : Place) : Nat :=
  p.row + p.byte / 32 * 2 ^ 15 + p.byte / 16 % 2 * 2 ^ 20 + 2 ^ 21 + syn * 2 ^ 32
    + bits b 55 48 * 2 ^ 48 + sat255 (bits b 63 56 + 1) * 2 ^ 56

/-- The key of the BERR of a place. -/
def Place.berrKey (p : Place) : Nat := p.vault * 192 + p.bankNo

/-- The state after a read's error, if any, has been logged (R335, R336). -/
def State.logRead (s : State) (la : Nat) (r : HalfRead) : State :=
  let p := s.place la
  let b := smGet 0 s.berr p.berrKey
  match r with
  | .clean _ => s
  | .corrected _ => { s with berr := smPut 0 s.berr p.berrKey (berrCorrected b) }
  | .uncorrectable syn => { s with berr := smPut 0 s.berr p.berrKey (berrLog b syn p) }

/-- The 16 bytes that a read gives, and whether they are uncorrectable. -/
def State.sectorBytes (s : State) (la : Nat) : HalfRead → List Byte × Bool
  | .clean d => (toBytes d 16, false)
  | .corrected d => (toBytes d 16, false)
  | .uncorrectable _ => (toBytes (s.rawSector la) 16, true)

/-- A write of bytes at offsets within one sector: a whole write, and any write to a readable sector, makes fresh check bits; a partial write to an uncorrectable one keeps the old ones (R410, R487). -/
def State.sectorWrite (s : State) (la : Nat) (bs : List (Nat × Byte)) (bad : Bool) : State :=
  let base := la / 16 * 16
  let whole := (upTo 16).all (fun o => bs.any (fun q => q.1 == o))
  let old := s.checkOf la
  let r := s.sectorRead la
  let mem := match r with
    | .corrected d => Memory.write s.mem base (toBytes d 16)
    | _ => s.mem
  let t := { s with mem := Memory.writeAt mem base bs }
  if bad then { t with ecc := smPut 0 t.ecc (la / 16) (badWord (t.rawSector la) + 1) }
  else if whole then { t with ecc := smPut 0 t.ecc (la / 16) 0 }
  else
    match r with
    | .uncorrectable _ => { t with ecc := smPut 0 t.ecc (la / 16) (old + eccStuck + 1) }
    | _ => { t with ecc := smPut 0 t.ecc (la / 16) 0 }

/-! ### The undo journal -/

/-- The records that a vault's region holds (R392). -/
def State.jcap (s : State) (v : Nat) : Nat :=
  let n := smGet 0 s.jsize v
  (if n = 0 then 3 else n) * 33554432 / 144

/-- The guard pool of a vault (R392). -/
def State.jguard (s : State) (v : Nat) : Nat := s.jcap v / 4

/-- The records of a vault. -/
def State.jrecs (s : State) (v : Nat) : List JRec := s.journal.filter (fun r => r.vault == v)

/-- Guard records of a vault. -/
def State.jguards (s : State) (v : Nat) : Nat := ((s.jrecs v).filter (·.guard)).length

/-- Checkpoint records of a vault. -/
def State.jckpts (s : State) (v : Nat) : Nat := ((s.jrecs v).filter (fun r => !r.guard)).length

/-- The general pool has a free record (R392, R402). -/
def State.jroom (s : State) (v : Nat) : Bool :=
  decide (s.jckpts v + (s.jguards v - s.jguard v) < s.jcap v - s.jguard v)

/-- The free records of the general pool. -/
def State.jfree (s : State) (v : Nat) : Nat := (s.jcap v - s.jguard v) - (s.jckpts v + (s.jguards v - s.jguard v))

/-- The guard record that holds a line, by the line's global physical number (R259). -/
def State.heldRec (s : State) (line : Nat) : Option JRec := s.journal.find? (fun r => r.guard && r.line == line)

/-- The launch with an identity. -/
def State.launch (s : State) (id : Nat) : Option Launch := s.launches.find? (fun l => l.id == id)

/-- A launch whose writes to G pages are provisional (R259, R395). -/
def State.guarding (s : State) (id : Nat) : Bool :=
  (s.launch id).any (fun l => l.guard == .hold && (l.st == .running || l.st == .completing))

/-- A line of a tile cache that holds provisional writes (R259). -/
def State.provisional (s : State) (c : CLine) : Bool := c.dirty != 0 && attrG c.attr && s.guarding c.launch

/-- The launch whose provisional write to a line is still in a tile cache, or on its way home (R259). -/
def State.heldDirty (s : State) (line : Nat) : Option Nat :=
  if s.launches.any (fun l => l.guard == .hold) then
    match s.tiles.findSome? (fun e => e.2.lines.find? (fun c => c.line == line && s.provisional c)) with
    | some c => some c.launch
    | none => (s.reqs.find? (fun r => r.kind == .writeBack && r.pa / 128 == line && attrG r.attr && s.guarding r.launch)).map (·.launch)
  else none

/-- The launch that holds a line: from its first write on (R259). -/
def State.heldBy (s : State) (line : Nat) : Option Nat :=
  match s.heldRec line with
  | some r => some r.launch
  | none => s.heldDirty line

/-- A line is held by a launch other than the given one (R259, R260). -/
def State.heldByOther (s : State) (line launch : Nat) : Bool := (s.heldBy line).any (· != launch)

/-- The state with one launch replaced by its image. -/
def State.mapLaunch (s : State) (id : Nat) (f : Launch → Launch) : State :=
  { s with launches := s.launches.map (fun l => if l.id = id then f l else l) }

/-- The key of a tenant's interval on a vault. -/
def ivalKey (tenant v : Nat) : Nat := tenant * 64 + v

/-- A tenant's interval on a vault. -/
def State.ival (s : State) (k : Nat) : Ival := smGet Ival.zero s.ivals k

/-- The state with one interval replaced. -/
def State.setIval (s : State) (k : Nat) (x : Ival) : State := { s with ivals := smPut Ival.zero s.ivals k x }

/-- The origin A-core of a launch's rectangle, or vault core 256 when no cluster was placed (R175, R370). -/
def Launch.origin (l : Launch) : Nat := if l.placed then 2 * (16 * l.y + l.x) else 256

/-- The stall of a vault begins, unless one lasts already (R402). -/
def State.stallOn (s : State) (v : Nat) : State :=
  if smGet 0 s.stalls v = 0 then { s with stalls := smPut 0 s.stalls v (s.time + 1) } else s

/-- JOURNAL-HIGH at 75 % of the records, armed again below 60 %; a free record ends a stall (R402, R403). -/
def State.jwatch (s : State) (v : Nat) : State :=
  let s : State := if s.jroom v then { s with stalls := smPut 0 s.stalls v 0 } else s
  let n := (s.jrecs v).length
  let c := s.jcap v
  if smGet false s.jhigh v then
    if n * 100 < c * 60 then { s with jhigh := smPut false s.jhigh v false } else s
  else if c * 75 ≤ n * 100 then
    { s.raiseAll (256 + v) (fun t => StewEvent.msg t 0x10 n v 0) (distinct ((s.jrecs v).map (·.tenant))) with
      jhigh := smPut false s.jhigh v true }
  else s

/-- The watch over every vault. -/
def State.jwatchAll (s : State) : State := (upTo 64).foldl (fun t v => t.jwatch v) s

/-- The first write to a J line after a cut: mark the dirty map, and while the cut drains append a record with the confirmed value (R399). -/
def State.ckptNote (s : State) (tenant line la attr : Nat) (old : List Byte) (bad : Nat) : State :=
  let v := (s.place la).vault
  let i := s.ival (ivalKey tenant v)
  if !attrJ attr then s
  else
    match i.st with
    | .none => s
    | .needsFull => s
    | .recording => if i.cur.contains line then s else s.setIval (ivalKey tenant v) { i with cur := line :: i.cur }
    | .draining =>
      if i.cur.contains line then s
      else
        let r : JRec := { vault := v, guard := false, tenant := tenant, launch := 0, num := i.k, line := line
                          la := la / 128 * 128, attr := attr, old := old, bad := bad }
        { s.setIval (ivalKey tenant v) { i with cur := line :: i.cur } with journal := s.journal ++ [r] }

/-- Whether a write needs a checkpoint record that the general pool cannot give: it stalls (R402). -/
def State.ckptStalls (s : State) (tenant line la attr : Nat) : Bool :=
  let v := (s.place la).vault
  let i := s.ival (ivalKey tenant v)
  attrJ attr && i.st == .draining && !i.cur.contains line && !s.jroom v

/-- The 128 bytes of the line of a cube-local address, as stored. -/
def State.lineBytes (s : State) (la : Nat) : List Byte := Memory.read s.mem (la / 128 * 128) 128

/-- The sectors of the line of a cube-local address that read uncorrectable, one bit each. -/
def State.lineBad (s : State) (la : Nat) : Nat :=
  packBits (fun i => match s.sectorRead (la / 128 * 128 + 16 * i) with
    | .uncorrectable _ => 1
    | _ => 0) 1 (upTo 8)

/-- The uncorrectable sectors of a line's confirmed value. -/
def State.confirmedBad (s : State) (line la : Nat) : Nat :=
  match s.heldRec line with
  | some r => r.bad
  | none => s.lineBad la

/-- The confirmed value of a line: the guard record's, or memory (R259). -/
def State.confirmed (s : State) (line la : Nat) : List Byte :=
  match s.heldRec line with
  | some r => r.old
  | none => s.lineBytes la

/-- Retirement: every held line of a launch takes its final value, which memory already holds, and its records are freed (R261, R395). -/
def State.retireGuard (s : State) (id : Nat) : State :=
  let mine := s.journal.filter (fun r => r.guard && r.launch == id)
  let t := mine.foldl (fun t r => t.ckptNote r.tenant r.line r.la r.attr r.old r.bad) s
  { t with journal := t.journal.filter (fun r => !(r.guard && r.launch == id)) }.jwatchAll

/-- A line's write needs a checkpoint record (R399). -/
def State.ckptNeeds (s : State) (r : JRec) : Bool :=
  let i := s.ival (ivalKey r.tenant (s.place r.la).vault)
  attrJ r.attr && i.st == .draining && !i.cur.contains r.line

/-- The first vault that has too few records for the retirement of a launch (R402). -/
def State.retireLacks (s : State) (id : Nat) : Option Nat :=
  (upTo 64).find? (fun v => decide (s.jfree v < (s.journal.filter (fun r => r.guard && r.launch == id && r.vault == v && s.ckptNeeds r)).length))

/-- Restore a line's 128 bytes as one write of whole sectors; those that were uncorrectable stay so. -/
def State.restoreLine (s : State) (la : Nat) (old : List Byte) (bad : Nat) : State :=
  (upTo 8).foldl (fun t i =>
    t.sectorWrite (la + 16 * i) ((upTo 16).map (fun o => (o, old.getD (16 * i + o) 0))) (bitAt bad i)) s

/-- No launch: the holder of the lines that a discard has still to restore. -/
def restoring : Nat := 2 ^ 60

/-- Provisional writes that have not reached their home on this cube, in tile caches, combining buffers or on their way, which a discard would undo as soon as they were performed (R261, R389). -/
def State.dropProvisional (s : State) (id : Nat) : State :=
  let clean (c : CLine) : CLine := if c.launch = id ∧ attrG c.attr then { c with valid := c.valid - (c.valid &&& c.dirty), dirty := 0 } else c
  { s with
    reqs := s.reqs.filter (fun r => !(r.launch == id && attrG r.attr && !r.sent && !r.remote
      && (r.kind == .store || r.kind == .storeFill || r.kind == .writeBack)))
    nt := s.nt.filter (fun l => !(l.launch == id && attrG l.attr))
    tiles := s.tiles.map (fun (t : Nat × TileSt) => (t.1, { t.2 with lines := (t.2.lines.map clean).filter (fun c => c.valid ≠ 0) })) }

/-- Discard: every held line of a launch is to take its guard record's value, and stays held until it has (R261, R396). -/
def State.discardGuard (s : State) (id : Nat) : State :=
  let s := s.dropProvisional id
  { s with journal := s.journal.map (fun (r : JRec) => if r.guard ∧ r.launch = id then { r with launch := restoring } else r) }

/-- The lines that discards have still to restore. -/
def State.unrestored (s : State) : List JRec := s.journal.filter (fun r => r.guard && r.launch == restoring)

/-- A line restored in one indivisible write, its record freed; it waits for a checkpoint record that it needs (R396, R402). -/
def State.restoreOne (s : State) (r : JRec) : State :=
  if s.ckptStalls r.tenant r.line r.la r.attr then s.stallOn r.vault
  else
    let s := (s.ckptNote r.tenant r.line r.la r.attr r.old r.bad).restoreLine r.la r.old r.bad
    { s with journal := s.journal.filter (fun q => q ≠ r) }.jwatch r.vault

/-- The guard of a launch is lost for want of a record: its lines retire, and the event is raised (R402, R403). -/
def State.loseGuard (s : State) (id v : Nat) : State :=
  match s.launch id with
  | none => s
  | some l =>
    let s := s.retireGuard id
    let s := s.mapLaunch id (fun l => { l with guard := .lost, lost := true })
    s.raise l.origin (StewEvent.msg l.tenant 0x12 l.lid v 0)

/-- A write as it reaches its home controller (R394). -/
structure HomeWrite where
  line   : Nat
  la     : Nat
  bytes  : List (Nat × Byte)
  bad    : Bool
  tenant : Nat
  attr   : Nat
  launch : Nat
  deriving DecidableEq, Repr

/-- The old value of the line goes into a guard record at the launch's first write to it. -/
def State.guardNote (s : State) (w : HomeWrite) : State :=
  if s.guarding w.launch && attrG w.attr && (s.heldRec w.line).isNone then
    let r : JRec := { vault := (s.place w.la).vault, guard := true, tenant := w.tenant, launch := w.launch
                      num := ((s.launch w.launch).map (·.lid)).getD 0, line := w.line
                      la := w.la / 128 * 128, attr := w.attr, old := s.lineBytes w.la, bad := s.lineBad w.la }
    { s with journal := s.journal ++ [r] }
  else s

/-- The address lies in a stripe that this cube has frozen and is copying (R429). -/
def State.frozenAt (s : State) (pa : Nat) : Bool :=
  s.regions.any (fun r => r.2.frozen && decide (0 < r.2.copied) && (r.2.cur.stripe pa).any (· == r.2.cursor))

/-- Placement of a write to one sector at its home: nothing while another launch holds the line, a record is wanting or the stripe is frozen (R260, R394, R395, R402, R429). -/
def State.placeWrite (s : State) (w : HomeWrite) : Option State :=
  let v := (s.place w.la).vault
  if s.heldByOther w.line w.launch || s.frozenAt (w.line * 128) then none
  else
    let needs := s.guarding w.launch && attrG w.attr && (s.heldRec w.line).isNone
    let full := !decide (s.jguards v < s.jguard v) && !s.jroom v
    if needs && full && decide (0 < s.jckpts v) then none
    else
      let s := if needs && full then s.loseGuard w.launch v else s
      if s.ckptStalls w.tenant w.line w.la w.attr then none
      else
        let s := s.ckptNote w.tenant w.line w.la w.attr (s.confirmed w.line w.la) (s.confirmedBad w.line w.la)
        let s := s.guardNote w
        some ((s.sectorWrite w.la w.bytes w.bad).jwatch v)

/-- Whether the write is kept waiting by another launch's hold. -/
def State.writeHeld (s : State) (w : HomeWrite) : Bool := s.heldByOther w.line w.launch

/-- A read of one sector by an agent of a launch: another launch's held line shows its confirmed value (R259). -/
def State.readSector (s : State) (line la launch : Nat) : (List Byte × Bool) × State :=
  match s.heldRec line with
  | some r =>
    if r.launch = launch then
      let h := s.sectorRead la
      (s.sectorBytes la h, s.logRead la h)
    else (((r.old.drop (la % 128 / 16 * 16)).take 16, bitAt r.bad (la % 128 / 16)), s)
  | none =>
    let h := s.sectorRead la
    (s.sectorBytes la h, s.logRead la h)

/-- A read of n bytes within one sector. -/
def State.readHome (s : State) (pa la n launch : Nat) : (List Byte × Bool) × State :=
  let ((b, bad), t) := s.readSector (pa / 128) la launch
  (((b.drop (la % 16)).take n, bad), t)

/-- The eight sectors of a line, each with whether it is uncorrectable. -/
def State.readLine (s : State) (pa la launch : Nat) : List (List Byte × Bool) × State :=
  (upTo 8).foldl (fun (acc, t) i =>
    let (b, t) := t.readSector (pa / 128) (la / 128 * 128 + 16 * i) launch
    (acc ++ [b], t)) ([], s)

/-! ### Table walks -/

/-- An eight-byte table entry at a global physical address (R220): read here, in no region, or homed on another cube. -/
inductive EntryRead where
  | val (e : Nat)
  | noRegion
  | remote
  deriving DecidableEq, Repr

/-- A table entry that a walker reads here: it is no agent of a launch, so that it obtains the confirmed value of a held line (R259). DESIGN CHOICE, safe: log entry 93. -/
def State.entryHere (s : State) (pa la : Nat) : Nat :=
  let x := (s.readSector (pa / 128) la 0).1
  if x.2 then Config.badEntry pa s.free % 2 ^ 64 else ofBytes ((x.1.drop (la % 16)).take 8)

/-- A table entry read at its home (R220, R224); one of a lost cube is poisoned (R423). -/
def State.readEntry (s : State) (pa : Nat) : EntryRead :=
  if hostWindow pa then .noRegion
  else match s.home pa with
    | none => .noRegion
    | some (c, la) =>
      if c = s.cube then .val (s.entryHere pa la)
      else if s.lost.contains c then .val (Config.badEntry pa s.free % 2 ^ 64)
      else .remote

/-- The end of a walk (R220). -/
inductive WalkRes where
  | leaf (pa size attr : Nat)
  | fault (sub : Nat)
  /-- An entry on another cube has not arrived. -/
  | wait (pa : Nat)
  deriving DecidableEq, Repr

/-- The index of a level (R220). -/
def walkIndex (lv va : Nat) : Nat :=
  match lv with
  | 1 => bits va 55 48
  | 2 => bits va 47 39
  | 3 => bits va 38 30
  | 4 => bits va 29 21
  | _ => bits va 20 16

/-- The page size of a leaf at a level (R220). -/
def leafSize (lv : Nat) : Nat := match lv with
  | 3 => 2 ^ 30
  | 4 => 2 ^ 21
  | _ => 2 ^ 16

/-- What other cubes have sent, address and value in turn. -/
def farPairs : List Word → List (Nat × Nat)
  | a :: e :: r => (a.toNat, e.toNat) :: farPairs r
  | _ => []

/-- The walk from level lv on, with fuel levels left; `far` are entries that other cubes have sent, by their addresses (R220). -/
def walkFrom (s : State) (va : Nat) : Nat → Nat → Nat → List (Nat × Nat) → WalkRes
  | 0, _, _, _ => .fault 2
  | fuel + 1, lv, t, far =>
    let a := t + 8 * walkIndex lv va
    let go (e : Nat) : WalkRes :=
      if e % 2 = 0 then .fault 1
      else if e / 2 ^ 52 ≠ 0 then .fault 2
      else if bitAt e 1 then
        if bits e 11 9 ≠ 0 then .fault 2
        else if lv < 3 then .fault 2
        else
          let frame := bits e 51 16 * 65536
          if frame % leafSize lv ≠ 0 then .fault 2
          else .leaf (frame + va % leafSize lv) (leafSize lv) (e % 65536)
      else if bits e 8 2 ≠ 0 ∨ bits e 11 9 ≠ 0 then .fault 2
      else if lv = 5 then .fault 2
      else walkFrom s va fuel (lv + 1) (bits e 51 12 * 4096) far
    match s.readEntry a with
    | .noRegion => .fault 3
    | .val e => go e
    | .remote =>
      match far.find? (fun p => p.1 == a) with
      | some p => go p.2
      | none => .wait a

/-- The walk of a tenant's address (R220); a zero root faults XLAT 0x01 (R357). -/
def State.walk (s : State) (tenant va : Nat) (far : List (Nat × Nat)) : WalkRes :=
  let root := (s.tenant tenant).xroot.toNat
  if root = 0 then .fault 1 else walkFrom s va 5 1 root far

/-- The entries on this cube that a walk reads, in order: physical and local address. -/
def walkPath (s : State) (va : Nat) : Nat → Nat → Nat → List (Nat × Nat) → List (Nat × Nat)
  | 0, _, _, _ => []
  | fuel + 1, lv, t, far =>
    let a := t + 8 * walkIndex lv va
    let go (e : Nat) : List (Nat × Nat) :=
      if e % 2 = 1 ∧ bitAt e 1 = false ∧ lv < 5 then walkPath s va fuel (lv + 1) (bits e 51 12 * 4096) far else []
    match s.readEntry a with
    | .noRegion => []
    | .val e => (match s.home a with
      | some (c, la) => if c = s.cube then [(a, la)] else []
      | none => []) ++ go e
    | .remote =>
      match far.find? (fun p => p.1 == a) with
      | some p => go p.2
      | none => []

/-- The error registers after a walk that has ended (R336). -/
def State.logWalk (s : State) (tenant va : Nat) (far : List (Nat × Nat)) : State :=
  let root := (s.tenant tenant).xroot.toNat
  if root = 0 ∨ s.ecc = [] then s
  else (walkPath s va 5 1 root far).foldl (fun s e => (s.readSector (e.1 / 128) e.2 0).2) s

end Sys2Proof.Machine
end

