-- ==== Sys2Proof/Machine/Fetch.lean ====
section
/-! DEFINITION. Instruction fetch through the instruction cache (R24, R35, R243). -/

namespace Sys2Proof.Machine

/-- Lines of a 16 KiB instruction cache. -/
def icacheLines : Nat := 128

/-- A line installed in a core's instruction cache; a full cache loses a line that the spec does not name. DESIGN CHOICE, safe: log entry 7. -/
def State.icacheInstall (s : State) (c line : Nat) (b : List Byte) : State :=
  let l := (s.core c).icache.filter (fun x => x.line ≠ line)
  if icacheLines ≤ l.length then
    let (i, s) := s.choose l.length
    s.setCore c { s.core c with icache := l.eraseIdx i ++ [⟨line, b⟩] }
  else s.setCore c { s.core c with icache := l ++ [⟨line, b⟩] }

/-- The end of a fetch: the bytes of the line, or a trap or wait. -/
inductive FetchRes where
  | line (b : List Byte) (s : State)
  | stop (s : State)
  deriving Repr

/-- The bytes of fetched sectors: of an uncorrectable one the spec states no value (log entry 8). -/
def State.fetchedBytes (s : State) : List (List Byte × Bool) → List Byte × State
  | [] => ([], s)
  | (b, bad) :: r =>
    let v := if bad then toBytes (Config.value s.free).toNat 8 ++ toBytes (Config.value (s.free + 1)).toNat 8 else b
    let (l, s) := (if bad then { s with free := s.free + 2 } else s).fetchedBytes r
    (v ++ l, s)

/-- The line of a physical address: from the cache, from this cube's DRAM, or asked of another cube. -/
def State.fetchLine (s : State) (pa : Nat) : FetchRes :=
  let c := s.cur.1
  match (s.core c).icache.find? (fun l => l.line == pa / 128) with
  | some l => .line l.bytes s
  | none =>
    match s.home pa with
    | none => .stop s
    | some (cube, la) =>
      if cube = s.cube then
        let (xs, s) := s.readLine pa la s.self.launch
        let (b, s) := s.fetchedBytes xs
        .line b (s.icacheInstall c (pa / 128) b)
      else
        let (id, s) := s.fresh
        let r := { s.newReq id .load (.ifill c (pa / 128)) (pa / 128 * 128) 128 0 with remote := true }
        .stop ((s.addReq r).parkMe (.reqs [id]))

/-- A fetch at a virtual address; a failure traps at the running instruction with that address (R24, R83). -/
def State.fetch (s : State) (va : Nat) : FetchRes :=
  let x := s.self
  let v : Word := BitVec.ofNat 64 va
  if va / 2 ^ 56 ≠ 0 then .stop (s.trap 0x05 0 v)
  else
    match x.walkFault va with
    | some sub => .stop ((s.setSelf { x with xfault := none }).trap 0x06 sub v)
    | none =>
      match s.tlbHit (unitOf s.cur.1) x.tenant va with
      | none => .stop (s.miss (unitOf s.cur.1) x.tenant va)
      | some e =>
        let pa := e.pa + va % e.size
        match s.pageStop x.tenant pa e.attr (decide (x.priv = .user)) false false with
        | some (cause, sub) => .stop (s.trap cause sub v)
        | none => s.fetchLine pa

/-- The n words of a line from a byte offset on (R35). -/
def lineWords (b : List Byte) (o : Nat) : Nat → List Nat
  | 0 => []
  | n + 1 => ofBytes ((b.drop o).take 4) :: lineWords b (o + 4) n

/-- after(x) of R83: the byte after the end instruction, given the line that holds its 32-byte block. -/
def afterEnd (x : Word) (line : List Byte) : Word :=
  let y := x &&& 0xFFFFFFFFFFFFFFE0#64
  let w := (lineWords line (y.toNat % 128) 1).headD 0
  if w / 67108864 = 0x3F then y + 32 else x + 4

end Sys2Proof.Machine
end

