-- ==== Sys2Proof/Machine/Branch.lean ====
section
/-! DEFINITION. Branches, jumps, hardware loops and the full/empty instructions (R79 to R88). -/

namespace Sys2Proof.Machine

/-- The target of a branch or `jal`: 4 × sext(off) from the instruction (R38). -/
def target (pc : Word) (n : Nat) (off : BitVec n) : Word := pc + 4 * off.signExtend 64

/-- A branch that has been decided: its word, then the bit of R383, and the next pc. -/
def State.branch (s : State) (i : Instr) (taken : Bool) (t : Word) : State :=
  let x := s.self.feed i
  let x := { x with sig := crcBit x.sig taken }
  s.setSelf ((if taken then x.jump t else x.fallThrough 4).issuedAt s.cycle)

/-- A comparing branch (R79). -/
def State.runBr (s : State) (i : Instr) (a b : Reg) (o : BitVec 11) (c : Word → Word → Bool) : State :=
  s.issue ⟨[], [(a, false), (b, false)], [], []⟩
    (s.branch i (c (s.val a) (s.val b)) (target s.self.pc 11 o))

/-- A bit-testing branch (R79). -/
def State.runBrBit (s : State) (i : Instr) (a : Reg) (n : Fin 64) (o : BitVec 11) (want : Bool) : State :=
  s.issue ⟨[], [(a, false)], [], []⟩
    (s.branch i (bitAt (s.val a).toNat n.val == want) (target s.self.pc 11 o))

/-- `brEq` (R79). -/
def execBrEq (a b : Reg) (o : BitVec 11) (s : State) : Host.Outcome State Fault Refusal :=
  .next (s.runBr (.brEq a b o) a b o (fun x y => x == y))

/-- `brNe` (R79). -/
def execBrNe (a b : Reg) (o : BitVec 11) (s : State) : Host.Outcome State Fault Refusal :=
  .next (s.runBr (.brNe a b o) a b o (fun x y => x != y))

/-- `brLt` (R79). -/
def execBrLt (a b : Reg) (o : BitVec 11) (s : State) : Host.Outcome State Fault Refusal :=
  .next (s.runBr (.brLt a b o) a b o (fun x y => x.slt y))

/-- `brGe` (R79). -/
def execBrGe (a b : Reg) (o : BitVec 11) (s : State) : Host.Outcome State Fault Refusal :=
  .next (s.runBr (.brGe a b o) a b o (fun x y => y.sle x))

/-- `brLtu` (R79). -/
def execBrLtu (a b : Reg) (o : BitVec 11) (s : State) : Host.Outcome State Fault Refusal :=
  .next (s.runBr (.brLtu a b o) a b o (fun x y => x.ult y))

/-- `brGeu` (R79). -/
def execBrGeu (a b : Reg) (o : BitVec 11) (s : State) : Host.Outcome State Fault Refusal :=
  .next (s.runBr (.brGeu a b o) a b o (fun x y => y.ule x))

/-- `brBs` (R79). -/
def execBrBs (a : Reg) (n : Fin 64) (o : BitVec 11) (s : State) : Host.Outcome State Fault Refusal :=
  .next (s.runBrBit (.brBs a n o) a n o true)

/-- `brBc` (R79). -/
def execBrBc (a : Reg) (n : Fin 64) (o : BitVec 11) (s : State) : Host.Outcome State Fault Refusal :=
  .next (s.runBrBit (.brBc a n o) a n o false)

/-- `jal` (R80). -/
def execJal (d : Reg) (o : BitVec 20) (s : State) : Host.Outcome State Fault Refusal :=
  .next (s.issue ⟨[], [], [d], []⟩
    ((s.put d (s.self.pc + 4)).finishJump (.jal d o) (target s.self.pc 20 o)))

/-- `jalr`: a target with [1:0] ≠ 0 traps ALIGN and writes nothing (R24, R81). -/
def execJalr (d a : Reg) (t : Bool) (i : BitVec 13) (s : State) : Host.Outcome State Fault Refusal :=
  let v := s.val a + imm64 i
  .next (s.issue ⟨[], [(a, t)], [d], []⟩
    (if v.toNat % 4 ≠ 0 then s.trap 0x04 0 v
     else (s.put d (s.self.pc + 4)).finishJump (.jalr d a t i) v))

/-- The body of `loop` and `loopi` (R83): n iterations to the end offset e. The LOOP trap comes before the fetch of the word that decides after(end). DESIGN CHOICE, unsafe: log entry 78. -/
def State.runLoop (s : State) (i : Instr) (n : Word) (e : Nat) : State :=
  let x := s.self
  let stop := x.pc + BitVec.ofNat 64 (4 * e)
  if x.loops.length = 4 || (x.loops.head?).any (fun f => decide (f.stop < stop)) then s.trap 0x0D 0 stop
  else
    match s.fetch (stop.toNat / 32 * 32) with
    | .stop t => t
    | .line b t =>
      if n = 0 then
        t.setSelf ({ t.self.feed i with pc := afterEnd stop b, sig := 0 }.issuedAt t.cycle)
      else
        t.setSelf ({ t.self.feed i with
          loops := ⟨x.pc + 4, stop, n⟩ :: x.loops, pc := x.pc + 4, sig := 0 }.issuedAt t.cycle)

/-- `loop` (R83). -/
def execLoopR (a : Reg) (t : Bool) (e : Fin 8192) (s : State) : Host.Outcome State Fault Refusal :=
  .next (s.issue ⟨[], [(a, t)], [], []⟩ (s.runLoop (.loopR a t e) (s.val a) e.val))

/-- `loopi` (R83). -/
def execLoopi (c : Fin 16384) (e : Fin 4096) (s : State) : Host.Outcome State Fault Refusal :=
  .next (s.issue useNothing (s.runLoop (.loopi c e) (BitVec.ofNat 64 c.val) e.val))

/-- `fe.clr`: empty-idle, value and mark kept (R87). -/
def execFeClr (d : Reg) (s : State) : Host.Outcome State Fault Refusal :=
  .next (s.issue ⟨[], [], [], [d]⟩
    ((s.setSelf (s.self.setCell d.val { s.self.cell d.val with st := .idle })).finish (.feClr d)))

/-- `fe.set`: an empty-idle register becomes full with its kept value and mark (R87). -/
def execFeSet (d : Reg) (s : State) : Host.Outcome State Fault Refusal :=
  .next (s.issue ⟨[], [], [], [d]⟩
    ((s.setSelf (s.self.setCell d.val { s.self.cell d.val with st := .full })).finish (.feSet d)))

/-- The state code of R88: 0 empty-idle, 1 empty-pending, 2 full; bit 2 is the poison mark. -/
def feCode (c : Cell) : Word :=
  BitVec.ofNat 64 ((match c.st with | .idle => 0 | .pending => 1 | .full => 2) + c.poison.toNat * 4)

/-- `fe.test`: it neither parks nor traps on a, except on a port register (R88). -/
def execFeTest (d a : Reg) (s : State) : Host.Outcome State Fault Refusal :=
  let u : Use := ⟨[], [], [], [d]⟩
  let stop := heldWrite s s.me a.val
  .next (if stop then s.parkMe (.dest a)
    else s.issue u (if isPort a.val then s.trap 0x08 0 (BitVec.ofNat 64 a.val)
      else s.retire (.feTest d a) u d (feCode (s.self.cell a.val))))

end Sys2Proof.Machine
end

