-- ==== Sys2Proof/Machine/Slots.lean ====
section
/-! DEFINITION. Local memory and tile-store bytes, and the layouts of spill slots and pre-emption frames (R145 to R147, R373, R488). -/

namespace Sys2Proof.Machine

/-- On-die bytes at a key of the memory list, and whether a sector of them is uncorrectable (R488). -/
def State.dieRead (s : State) (key n : Nat) : List Byte × Bool :=
  (Memory.read s.mem key n, (upTo ((key % 16 + n + 15) / 16)).any (fun i => smGet false s.bad (key / 16 + i)))

/-- On-die bytes written; a sector written whole reads correctable again (R488). -/
def State.dieWrite (s : State) (key : Nat) (b : List Byte) : State :=
  let first := (key + 15) / 16
  let last := (key + b.length) / 16
  { s with mem := Memory.write s.mem key b
           bad := if s.bad = [] then [] else (upTo (last - first)).foldl (fun m i => smPut false m (first + i) false) s.bad }

/-- A sector of on-die memory made uncorrectable (R488). -/
def State.dieSpoil (s : State) (key : Nat) : State := { s with bad := smPut false s.bad (key / 16) true }

/-- A number stored in n bytes of a core's local memory. -/
def State.localPut (s : State) (core o n x : Nat) : State := s.dieWrite (localKey core o) (toBytes x n)

/-- A number read from n bytes of a core's local memory. -/
def State.localGet (s : State) (core o n : Nat) : Nat := ofBytes (Memory.read s.mem (localKey core o) n)

/-- The registers among s1 to s59 that a live mask names, in ascending order (R143, R145). -/
def liveRegs (m : Word) : List Nat := (upTo 60).filter (fun i => i ≠ 0 && bitAt m.toNat i)

/-- The local offset of spill slot k (R144). -/
def slotOff (k : Nat) : Nat := 0xD000 + 512 * k

/-- The two-bit code of a register's state (R145). -/
def FE.code : FE → Nat
  | .idle => 0
  | .pending => 1
  | .full => 2

/-- The state of a code (R145). -/
def FE.ofCode (n : Nat) : FE := if n = 0 then .idle else if n = 1 then .pending else .full

/-- The lower and the higher timeline class of a core (R268). -/
def tlClasses (core : Nat) : Nat × Nat := if 256 ≤ core then (0, 1) else if core % 2 = 0 then (0, 2) else (1, 3)

/-- Four frames of a loop stack, outermost first, 24 bytes each (R145, R373). -/
def framesBytes (l : List Frame) : List Byte :=
  let r := l.reverse
  (upTo 4).flatMap fun i =>
    match r[i]? with
    | some f => toBytes f.start.toNat 8 ++ toBytes f.stop.toNat 8 ++ toBytes f.left.toNat 8
    | none => toBytes 0 24

/-- n frames read back, innermost first. -/
def framesOf (b : List Byte) (n : Nat) : List Frame :=
  ((upTo n).map fun i =>
    let w (o : Nat) : Word := BitVec.ofNat 64 (ofBytes ((b.drop (24 * i + o)).take 8))
    (⟨w 0, w 8, w 16⟩ : Frame)).reverse

/-- The word at offset 0x028: bits [51:48] only in a frame (R145, R373). -/
def Ctx.slotWord (x : Ctx) (reg : Nat) (frame : Bool) : Nat :=
  x.fmode.toNat % 4 + x.fflags.toNat % 64 * 256 + x.loops.length * 65536 + x.prio * 1048576 + reg * 16777216
    + x.sig.toNat * 4294967296 + (if frame then x.priv.code * 2 ^ 48 + 2 ^ 51 else 0)

/-- The first 0xA0 bytes of a slot (R145). -/
def Ctx.slotHead (x : Ctx) (core reg : Nat) (frame : Bool) : List Byte :=
  let kept := liveRegs x.live
  let st (i : Nat) : Nat := if i = 0 ∨ 60 ≤ i ∨ !kept.contains i then 2 else (x.cell i).st.code
  let (lo, hi) := tlClasses core
  toBytes x.pc.toNat 8 ++ toBytes x.live.toNat 8
    ++ toBytes (packBits st 2 (upTo 32)) 8 ++ toBytes (packBits (fun i => st (32 + i)) 2 (upTo 32)) 8
    ++ toBytes (packBits (fun i => if kept.contains i && (x.cell i).poison then 1 else 0) 1 (upTo 64)) 8
    ++ toBytes (x.slotWord reg frame) 8
    ++ toBytes (x.timeline lo).done 8 ++ toBytes (x.timeline hi).done 8
    ++ framesBytes x.loops

/-- The live registers' values in ascending order, filled up with zeros (R145). -/
def Ctx.slotRegs (x : Ctx) (n : Nat) : List Byte :=
  takeD 0 (8 * n) ((liveRegs x.live).flatMap fun i => toBytes (x.cell i).val.toNat 8)

/-- The 512 bytes of a spill slot (R145). -/
def Ctx.slotBytes (x : Ctx) (core reg : Nat) : List Byte := x.slotHead core reg false ++ x.slotRegs 44

/-- The 1,024 bytes of a pre-emption frame (R373). -/
def Ctx.frameBytes (x : Ctx) (core reg : Nat) : List Byte :=
  x.slotHead core reg true ++ x.slotRegs 59
    ++ toBytes x.tcause.toNat 8 ++ toBytes x.tpc.toNat 8 ++ toBytes x.tval.toNat 8 ++ toBytes x.tseq.toNat 8
    ++ toBytes x.tsub.toNat 8 ++ toBytes x.sigctl.toNat 8 ++ framesBytes x.shadow ++ toBytes 0 248

/-- The n bytes at an offset of a saved image, as a number. -/
def fieldAt (b : List Byte) (o n : Nat) : Nat := ofBytes ((b.drop o).take n)

/-- The registers an image gives: live ones as saved, all others zero and full (R147). -/
def imageRegs (b : List Byte) : SMap Cell :=
  let live := BitVec.ofNat 64 (fieldAt b 8 8)
  let poison := fieldAt b 0x20 8
  let st (i : Nat) : Nat := if i < 32 then bits (fieldAt b 0x10 8) (2 * i + 1) (2 * i) else bits (fieldAt b 0x18 8) (2 * (i - 32) + 1) (2 * (i - 32))
  let rec go (rs : List Nat) (k : Nat) (m : SMap Cell) : SMap Cell :=
    match rs with
    | [] => m
    | i :: is =>
      go is (k + 1) (smPut Cell.zero m i ⟨BitVec.ofNat 64 (fieldAt b (0xA0 + 8 * k) 8), FE.ofCode (st i), bitAt poison i⟩)
  go (liveRegs live) 0 []

/-- A context loaded from a spill slot's bytes over its metadata (R147). -/
def Ctx.fromSlot (x : Ctx) (core : Nat) (b : List Byte) : Ctx :=
  let w := fieldAt b 0x28 8
  let (lo, hi) := tlClasses core
  let tl (o : Nat) : Timeline := ⟨fieldAt b o 8, fieldAt b o 8, []⟩
  { x with pc := alignPc (BitVec.ofNat 64 (fieldAt b 0 8)), live := BitVec.ofNat 64 (fieldAt b 8 8), vlive := 0
           regs := imageRegs b, fmode := BitVec.ofNat 64 (w % 4), fflags := BitVec.ofNat 64 (bits w 13 8)
           prio := bits w 21 20, sig := BitVec.ofNat 16 (bits w 47 32)
           loops := framesOf (b.drop 0x40) (bits w 18 16)
           tls := smPut Timeline.zero (smPut Timeline.zero [] lo (tl 0x30)) hi (tl 0x38), park := none }

/-- A context loaded from a pre-emption frame's bytes over its metadata, which has the commands issued on its timelines (R373, R376, R377). -/
def Ctx.fromFrame (x : Ctx) (core : Nat) (b : List Byte) : Ctx :=
  let (lo, hi) := tlClasses core
  let w := fieldAt b 0x28 8
  let word (o : Nat) : Word := BitVec.ofNat 64 (fieldAt b o 8)
  { x with pc := alignPc (word 0), live := word 8, regs := imageRegs b, fmode := BitVec.ofNat 64 (w % 4)
           fflags := BitVec.ofNat 64 (bits w 13 8), prio := bits w 21 20, sig := BitVec.ofNat 16 (bits w 47 32)
           loops := framesOf (b.drop 0x40) (bits w 18 16)
           priv := (if bits w 49 48 = 0 then .user else if bits w 49 48 = 1 then .supervisor else .firmware)
           tcause := word 0x278, tpc := word 0x280, tval := word 0x288, tseq := word 0x290, tsub := word 0x298
           sigctl := word 0x2A0, shadow := framesOf (b.drop 0x2A8) x.shadow.length, park := none
           tls := smPut Timeline.zero (smPut Timeline.zero x.tls lo { x.timeline lo with done := fieldAt b 0x30 8 }) hi
             { x.timeline hi with done := fieldAt b 0x38 8 } }

/-- The state with a result written into a spilled thread's slot: value, full state and mark; nothing for a register outside its live mask (R146). -/
def State.slotWrite (s : State) (core slot r : Nat) (v : Word) (poison : Bool) : State :=
  let o := slotOff slot
  let live := BitVec.ofNat 64 (s.localGet core (o + 8) 8)
  let kept := liveRegs live
  if r = 0 ∨ !kept.contains r then s
  else
    let k := (kept.findIdx? (· == r)).getD 0
    let so := o + 0x10 + r / 32 * 8
    let st := s.localGet core so 8
    let sh := 2 * (r % 32)
    let st' := st - bits st (sh + 1) sh * 2 ^ sh + 2 * 2 ^ sh
    let p := s.localGet core (o + 0x20) 8
    let p' := p - bits p r r * 2 ^ r + poison.toNat * 2 ^ r
    ((s.localPut core (o + 0xA0 + 8 * k) 8 v.toNat).localPut core so 8 st').localPut core (o + 0x20) 8 p'

/-- The state code of a register in a spilled thread's slot, if its live mask names it (R139). -/
def State.slotState (s : State) (core slot r : Nat) : Option FE :=
  let o := slotOff slot
  if (liveRegs (BitVec.ofNat 64 (s.localGet core (o + 8) 8))).contains r then
    some (FE.ofCode (bits (s.localGet core (o + 0x10 + r / 32 * 8) 8) (2 * (r % 32) + 1) (2 * (r % 32))))
  else none

end Sys2Proof.Machine
end

