-- ==== Sys2Proof/Machine/Cache.lean ====
section
/-! DEFINITION. The tile cache: lookup, allocation, write-back and invalidation (R211, R212, R234, R237, R241, R242). -/

namespace Sys2Proof.Machine

/-- The set of a physical address (R212). -/
def setOf (pa : Nat) : Nat := pa / 128 % 1024

/-- The sector of a physical address within its line. -/
def sectorOf (pa : Nat) : Nat := pa % 128 / 16

/-- The line of a tile cache that holds a physical address. -/
def TileSt.find (t : TileSt) (pa : Nat) : Option CLine := t.lines.find? (fun c => c.line == pa / 128)

/-- A line has a valid sector. -/
def CLine.has (c : CLine) (sec : Nat) : Bool := bitAt c.valid sec

/-- The key of byte o of a cached line (R211, R212). -/
def CLine.key (c : CLine) (t o : Nat) : Nat := wayKey t c.way (c.set * 128 + o)

/-- A tile cache with a line replaced by its image. -/
def TileSt.mapLine (t : TileSt) (line : Nat) (f : CLine → CLine) : TileSt :=
  { t with lines := t.lines.map (fun c => if c.line = line then f c else c) }

/-- A tile cache without a line. -/
def TileSt.dropLine (t : TileSt) (line : Nat) : TileSt := { t with lines := t.lines.filter (fun c => c.line ≠ line) }

/-- One bit of a mask set or cleared. -/
def setBit (m i : Nat) (b : Bool) : Nat := m - bits m i i * 2 ^ i + b.toNat * 2 ^ i

/-- The page is cacheable here: C, a way at least, and a tile core (R212, R250). -/
def State.caches (s : State) (core attr : Nat) : Bool :=
  decide (core < 256) && attrC attr && decide (0 < (s.tile (tileOf core)).n)

/-- A dirty sector on its way home, as a write-back of an agent (R212, R244); the owner of the line's writes is its launch. DEDUCED, unsafe: log entry 94. -/
def State.writeBackSector (s : State) (q : Req) (t : Nat) (c : CLine) (sec : Nat) : State :=
  let (id, s) := s.fresh
  let pa := c.line * 128 + 16 * sec
  let (b, bad) := s.dieRead (c.key t (16 * sec)) 16
  let rem := match s.home pa with | some (h, _) => decide (h ≠ s.cube) | none => false
  s.addReq { q with id := id, grp := id, kind := .writeBack, dest := .none, pa := pa, size := 16, data := b, mask := upTo 16
                    poison := bad, sampled := false, attr := c.attr, tenant := attrTenant c.attr, launch := c.launch
                    remote := rem, sent := false, since := 0 }

/-- Stores of a tile's cores that have issued and are not in the tile cache yet go on home once they are (R237, R242). -/
def State.pushStores (s : State) (t : Nat) (hit : Nat → Bool) : State :=
  { s with reqs := s.reqs.map (fun (r : Req) =>
      if r.kind = .storeFill ∧ r.core < 256 ∧ tileOf r.core = t ∧ hit (r.pa / 16) then { r with through := true } else r) }

/-- A line's dirty sectors written back; it stays valid and clean (R242). -/
def State.writeBackLine (s : State) (q : Req) (t : Nat) (c : CLine) : State :=
  let s := (upTo 8).foldl (fun s i => if bitAt c.dirty i then s.writeBackSector q t c i else s) s
  s.setTile t ((s.tile t).mapLine c.line (fun c => { c with dirty := 0 }))

/-- A line invalidated without a write-back. -/
def State.dropLine (s : State) (t line : Nat) : State := s.setTile t ((s.tile t).dropLine line)

/-- A line written back and invalidated. -/
def State.flushLine (s : State) (q : Req) (t : Nat) (c : CLine) : State :=
  (s.writeBackLine q t c).dropLine t c.line

/-- Every dirty sector of a tile cache written back (R237). -/
def State.writeBackTile (s : State) (q : Req) (t : Nat) : State :=
  ((s.tile t).lines.foldl (fun s c => if c.dirty = 0 then s else s.writeBackLine q t c) s).pushStores t (fun _ => true)

/-- Every line of a tile cache written back and invalidated (R211). -/
def State.flushTile (s : State) (q : Req) (t : Nat) : State :=
  (s.tile t).lines.foldl (fun s c => s.flushLine q t c) s

/-- Every valid clean sector of a tile cache invalidated (R237). -/
def State.acquireTile (s : State) (t : Nat) : State :=
  let x := s.tile t
  s.setTile t { x with lines := (x.lines.map (fun c => { c with valid := c.dirty })).filter (fun c => c.valid ≠ 0) }

/-- The way a new line of a set takes: a free one, or a victim among all ways, which pseudo-LRU picks by a history the spec leaves open (R212). -/
def State.victimWay (s : State) (t set : Nat) : Nat × State :=
  let x := s.tile t
  match (upTo x.n).find? (fun w => !x.lines.any (fun c => c.way == w && c.set == set)) with
  | some w => (w, s)
  | none => s.choose x.n

/-- A line allocated with no valid sector; a victim's dirty sectors are written back (R212). -/
def State.allocLine (s : State) (q : Req) (t pa attr : Nat) : State :=
  match (s.tile t).find pa with
  | some _ => s
  | none =>
    let (w, s) := s.victimWay t (setOf pa)
    let s := match (s.tile t).lines.find? (fun c => c.way == w && c.set == setOf pa) with
      | some c => s.flushLine q t c
      | none => s
    let c : CLine := { way := w, set := setOf pa, line := pa / 128, valid := 0, dirty := 0, attr := attr, launch := q.launch }
    s.setTile t { s.tile t with lines := (s.tile t).lines ++ [c] }

/-- A sector of a present line filled with correct data, if it is not valid yet (R212). DESIGN CHOICE, unsafe: log entry 13. -/
def State.fillSector (s : State) (t pa : Nat) (b : List Byte) : State :=
  match (s.tile t).find pa with
  | none => s
  | some c =>
    let i := sectorOf pa
    if c.has i then s
    else
      let s := s.dieWrite (c.key t (16 * i)) b
      s.setTile t ((s.tile t).mapLine c.line (fun c => { c with valid := setBit c.valid i true }))

/-- Bytes written into a valid sector of a present line, which becomes dirty (R212). -/
def State.cacheWrite (s : State) (t pa : Nat) (b : List Byte) (attr launch : Nat) : State :=
  match (s.tile t).find pa with
  | none => s
  | some c =>
    let i := sectorOf pa
    let s := s.dieWrite (c.key t (pa % 128)) b
    s.setTile t ((s.tile t).mapLine c.line
      (fun c => { c with valid := setBit c.valid i true, dirty := setBit c.dirty i true, attr := attr, launch := launch }))

/-- A valid sector's bytes for an address, if the tile cache holds them. -/
def State.cacheHit (s : State) (t pa n : Nat) : Option (List Byte × Bool) :=
  match (s.tile t).find pa with
  | none => none
  | some c => if c.has (sectorOf pa) then some (s.dieRead (c.key t (pa % 128)) n) else none

/-- One sector written back if dirty, and invalidated (R234, R241). -/
def State.evictSector (s : State) (q : Req) (t pa : Nat) : State :=
  match (s.tile t).find pa with
  | none => s
  | some c =>
    let i := sectorOf pa
    let s := if bitAt c.dirty i then s.writeBackSector q t c i else s
    let c' := { c with valid := setBit c.valid i false, dirty := setBit c.dirty i false }
    if c'.valid = 0 then s.dropLine t c.line else s.setTile t ((s.tile t).mapLine c.line (fun _ => c'))

/-- A clean copy of a sector in a tile cache invalidated, as when an own bypassing write has been placed (R246). -/
def State.dropClean (s : State) (t pa : Nat) : State :=
  match (s.tile t).find pa with
  | none => s
  | some c => if bitAt c.dirty (sectorOf pa) then s
    else
      let c' := { c with valid := setBit c.valid (sectorOf pa) false }
      if c'.valid = 0 then s.dropLine t c.line else s.setTile t ((s.tile t).mapLine c.line (fun _ => c'))

/-! ### Order of requests -/

/-- The bytes a request touches: a whole line for a fill. -/
def Req.span (r : Req) : Nat × Nat :=
  match r.kind with
  | .fill => (r.pa / 128 * 128, 128)
  | .storeFill => (r.pa / 16 * 16, 16)
  | _ => (r.pa, r.size)

/-- Two requests touch a common sector. -/
def Req.meets (r q : Req) : Bool :=
  let (a, n) := r.span
  let (b, m) := q.span
  decide (a / 16 ≤ (b + m - 1) / 16) && decide (b / 16 ≤ (a + n - 1) / 16) && decide (0 < n) && decide (0 < m)

/-- Two requests of one tile's cores, or of one vault core and its engine (R244). -/
def Req.sameTile (q r : Req) : Bool :=
  if q.core < 256 then decide (r.core < 256) && tileOf q.core == tileOf r.core else q.core == r.core

/-- A command's write at tile scope, still on its way to a home on this cube (R254). -/
def Req.ofCommand (r : Req) : Bool := decide (2 ^ 50 ≤ r.agent) && r.kind == .store && !r.remote

/-- A write or atomic that goes past the tile cache. -/
def Req.passes (r : Req) : Bool :=
  match r.kind with
  | .store => true
  | .amo _ => true
  | _ => false

/-- A write or atomic that is still to be performed. -/
def Req.writes (r : Req) : Bool :=
  !r.sampled && (match r.kind with
    | .store => true
    | .storeFill => true
    | .amo _ => true
    | _ => false)

/-- A request that brings a sector into the tile cache. DEDUCED, unsafe: log entry 20. -/
def Req.brings (r : Req) : Bool := r.kind == .fill || r.kind == .storeFill

/-- Whether q has to be performed before r: one agent's accesses to a sector in the order of issue, those of one context to a remote sector too, write-backs of a tile before its later accesses and before any request that brings the sector in again, and requests that bring a sector in and those that go past the cache in the order of issue, so that no fill puts a value back that an atomic or write has replaced (R212, R246, R248, R254). -/
def Req.before (q r : Req) : Bool :=
  !q.sampled && q.kind != .status && q.meets r
    && (if r.kind == .writeBack then decide (q.id < r.id) && q.sameTile r && (q.kind == .writeBack || q.ofCommand)
        else if q.kind == .writeBack then q.sameTile r && (r.brings || decide (q.id < r.id))
        else decide (q.id < r.id)
          && (q.agent == r.agent || (q.remote && q.core == r.core && q.ctx == r.ctx)
            || (q.sameTile r && !r.ofCommand && (q.kind == .storeFill || q.ofCommand || (q.passes && r.brings) || (q.brings && r.passes)))))

/-- The requests that a release of an agent at a scope waits for: its own and, at cube scope or wider, every write-back of its tile, since it has read or written some of those values there (R237, R249, R255). -/
def State.relReqs (s : State) (agent core scope : Nat) : List Req :=
  s.reqs.filter (fun r => r.kind != .status && (r.agent == agent
    || (decide (1 ≤ scope) && decide (core < 256) && decide (r.core < 256) && r.kind == .writeBack && tileOf r.core == tileOf core)))

/-- A guarded write to a line waits behind the writes of other agents that were issued before it, so that none of them meets the hold after it has issued (R260). DEDUCED, unsafe: log entry 14. -/
def State.guardBehind (s : State) (id pa attr launch : Nat) : Bool :=
  s.guarding launch && attrG attr && (s.heldBy (pa / 128)).isNone
    && s.reqs.any (fun q => decide (q.id < id) && q.pa / 128 == pa / 128 && q.launch != launch && q.writes && !q.remote)

/-- Another launch's dirty sectors of a line go home before a guarded write claims it (R259). -/
def State.claimLine (s : State) (q : Req) (t pa launch : Nat) : State :=
  match (s.tile t).find pa with
  | none => s
  | some c => if c.dirty ≠ 0 ∧ c.launch ≠ launch ∧ s.guarding launch then s.writeBackLine q t c else s

/-- Another launch's provisional writes stand in the tile's copy of a line (R259). -/
def State.lineTaken (s : State) (t pa launch : Nat) : Bool :=
  ((s.tile t).find pa).any (fun c => c.launch != launch && s.provisional c)

/-- An incomplete partner vector access of a thread, or on the bank of context k (R230). -/
def Req.onPartner (r : Req) (k uid : Nat) : Bool :=
  match r.dest with
  | .vec c i _ _ => r.agent == uid || ctxKey c i == k
  | _ => r.pv && (r.agent == uid || ctxKey (partner r.core) r.ctx == k)

/-- No earlier request stands in the way. -/
def State.unblocked (s : State) (r : Req) : Bool := !s.reqs.any (fun q => q.before r)

/-- The running thread has a request in flight to a sector of [pa, pa + n). -/
def State.ownPending (s : State) (pa n : Nat) : Bool :=
  s.reqs.any (fun q => q.agent == s.agent && !q.sampled && q.kind != .status && q.meets (s.newReq 0 .load .none pa n 0))

/-- The home of an address is another cube, or host memory. -/
def State.isRemote (s : State) (pa : Nat) : Bool :=
  hostWindow pa || (match s.home pa with | some (c, _) => decide (c ≠ s.cube) | none => false)

/-- The cube-local address of an address homed here. -/
def State.localAddr (s : State) (pa : Nat) : Nat := match s.home pa with | some (_, la) => la | none => 0

/-- The cube that a request goes to. -/
def State.homeCube (s : State) (pa : Nat) : Nat := match s.home pa with | some (c, _) => c | none => s.cube

/-- A write that could not be placed waits for a record, when the general pool of its vault is full (R402). -/
def State.noteStall (s : State) (pa : Nat) : State :=
  let v := (s.place (s.localAddr pa)).vault
  if s.isRemote pa || s.jroom v then s else s.stallOn v

end Sys2Proof.Machine
end

