-- ==== Sys2Proof/Machine/Flags.lean ====
section
/-! DEFINITION. The number formats, their rounding and the six flags (R92 to R107). -/

namespace Sys2Proof.Machine

/-- The three binary floating-point formats (R94). -/
inductive Fmt where
  | f32
  | f16
  | bf16
  deriving DecidableEq, Repr

/-- Width of the exponent field. PRESUMED, unsafe: log entry 70. -/
def Fmt.ew : Fmt → Nat
  | .f32 => 8
  | .f16 => 5
  | .bf16 => 8

/-- Width of the fraction field. -/
def Fmt.fw : Fmt → Nat
  | .f32 => 23
  | .f16 => 10
  | .bf16 => 7

/-- The exponent bias. -/
def Fmt.bias : Fmt → Nat
  | .f32 => 127
  | .f16 => 15
  | .bf16 => 127

/-- The width of an encoding. -/
def Fmt.width (f : Fmt) : Nat := 1 + f.ew + f.fw

/-- The default NaN (R96). -/
def Fmt.nan : Fmt → Nat
  | .f32 => 0x7FC00000
  | .f16 => 0x7E00
  | .bf16 => 0x7FC0

/-- The poison value (R96). -/
def Fmt.poison : Fmt → Nat
  | .f32 => 0x7FC00BAD
  | .f16 => 0x7EBA
  | .bf16 => 0x7FCB

/-- The sign bit of an encoding. -/
def Fmt.signBit (f : Fmt) : Nat := 2 ^ (f.ew + f.fw)

/-- Infinity of a sign. -/
def Fmt.inf (f : Fmt) (neg : Bool) : Nat := neg.toNat * f.signBit + (2 ^ f.ew - 1) * 2 ^ f.fw

/-- The largest finite value of a sign. -/
def Fmt.maxFinite (f : Fmt) (neg : Bool) : Nat := f.inf neg - 1

/-- Zero of a sign. -/
def Fmt.zero (f : Fmt) (neg : Bool) : Nat := neg.toNat * f.signBit

/-- A finite number (−1)^neg × m × 2^e. -/
structure Num where
  neg : Bool
  m   : Nat
  e   : Int
  deriving DecidableEq, Repr

/-- What an encoding means (R95, R96). -/
inductive FVal where
  | poison
  | snan
  | qnan
  | inf (neg : Bool)
  | num (n : Num)
  deriving DecidableEq, Repr

/-- The value of an encoding (R94 to R96). -/
def Fmt.val (f : Fmt) (x : Nat) : FVal :=
  let x := x % 2 ^ f.width
  let neg := bitAt x (f.ew + f.fw)
  let ex := bits x (f.ew + f.fw - 1) f.fw
  let fr := x % 2 ^ f.fw
  if x = f.poison then .poison
  else if ex = 2 ^ f.ew - 1 then
    if fr = 0 then .inf neg
    else if bitAt fr (f.fw - 1) then .qnan else .snan
  else if ex = 0 then .num ⟨neg, fr, 1 - (f.bias : Int) - f.fw⟩
  else .num ⟨neg, 2 ^ f.fw + fr, (ex : Int) - f.bias - f.fw⟩

/-- Flag bits of `fflags` (R18, R105). -/
def flInvalid : Nat := 1
/-- Divide-by-zero. -/
def flDivZero : Nat := 2
/-- Overflow. -/
def flOverflow : Nat := 4
/-- Underflow. -/
def flUnderflow : Nat := 8
/-- Inexact. -/
def flInexact : Nat := 16
/-- Poison. -/
def flPoison : Nat := 32

/-- A result with the flags it raises. -/
structure FRes where
  bits  : Nat
  flags : Nat
  deriving DecidableEq, Repr

/-- Bit length of a number. -/
def bitLen (m : Nat) : Nat := if m = 0 then 0 else Nat.log2 m + 1

/-- Whether a quotient q with remainder r of half and a sticky rest is rounded away from zero (R103).
`cmp` is 0, 1 or 2 for a rest below, at or above one half, and `exact` says that there is no rest. -/
def roundsUp (rm : Nat) (neg odd : Bool) (exact : Bool) (cmp : Nat) : Bool :=
  match rm with
  | 0 => cmp == 2 || (cmp == 1 && odd)
  | 1 => false
  | 2 => !exact && !neg
  | _ => !exact && neg

/-- m × 2^e (plus a rest below one unit when sticky) rounded to a multiple of 2^l: the multiple, and whether it was exact. -/
def quantize (rm : Nat) (neg : Bool) (m : Nat) (e : Int) (sticky : Bool) (l : Int) : Nat × Bool :=
  if l ≤ e then
    let q := m * 2 ^ (e - l).toNat
    (if roundsUp rm neg (q % 2 == 1) (!sticky) 0 then q + 1 else q, !sticky)
  else
    let p := 2 ^ (l - e).toNat
    let q := m / p
    let r := m % p
    let exact := r == 0 && !sticky
    let cmp := if 2 * r < p then 0 else if 2 * r = p && !sticky then 1 else 2
    (if roundsUp rm neg (q % 2 == 1) exact cmp then q + 1 else q, exact)

/-- The overflow result of R104. -/
def overflowRes (f : Fmt) (rm : Nat) (neg : Bool) : FRes :=
  let toInf := match rm with
    | 0 => true
    | 1 => false
    | 2 => !neg
    | _ => neg
  ⟨if toInf then f.inf neg else f.maxFinite neg, flOverflow + flInexact⟩

/-- An exact value rounded once to a format (R104, R105). -/
def roundTo (f : Fmt) (rm : Nat) (neg : Bool) (m : Nat) (e : Int) (sticky : Bool) : FRes :=
  if m = 0 ∧ !sticky then ⟨f.zero neg, 0⟩
  else
    let top : Int := e + (bitLen m : Int) - 1
    let emin : Int := 1 - (f.bias : Int)
    let free : Int := top - f.fw
    let l : Int := if free < emin - f.fw then emin - f.fw else free
    let (q, exact) := quantize rm neg m e sticky l
    let (qf, _) := quantize rm neg m e sticky free
    let tiny : Bool := decide (top < emin) && (decide (top + 1 < emin) || decide (qf < 2 ^ (f.fw + 1)))
    let ex : Int := l + f.fw + f.bias
    let mag : Nat := (ex * (2 ^ f.fw : Nat) + q - (2 ^ f.fw : Nat)).toNat
    if (2 ^ f.ew - 1) * 2 ^ f.fw ≤ mag then overflowRes f rm neg
    else ⟨neg.toNat * f.signBit + mag,
      (if exact then 0 else flInexact) + (if tiny && !exact then flUnderflow else 0)⟩

/-- A number rounded to a format. -/
def roundNum (f : Fmt) (rm : Nat) (n : Num) : FRes := roundTo f rm n.neg n.m n.e false

/-- A signed integer scaled by 2^e rounded to a format; an exact zero has the given sign. -/
def roundInt (f : Fmt) (rm : Nat) (v : Int) (e : Int) (zneg : Bool) : FRes :=
  if v = 0 then ⟨f.zero zneg, 0⟩ else roundTo f rm (decide (v < 0)) v.natAbs e false

/-- The signed mantissa of a number at exponent e, which is not above its own. -/
def Num.at (n : Num) (e : Int) : Int :=
  let v : Int := (n.m * 2 ^ (n.e - e).toNat : Nat)
  if n.neg then -v else v

/-- Exact comparison of two numbers: a < b. -/
def Num.lt (a b : Num) : Bool :=
  let e := min a.e b.e
  decide (a.at e < b.at e)

/-- Exact equality of two numbers' values. -/
def Num.eqv (a b : Num) : Bool :=
  let e := min a.e b.e
  decide (a.at e = b.at e)

/-- An exact sum rounded once; an exact zero of opposite signs is −0 only in RDN (R104). -/
def addNum (f : Fmt) (rm : Nat) (a b : Num) : FRes :=
  let e := min a.e b.e
  let v := a.at e + b.at e
  roundInt f rm v e (if a.neg = b.neg then a.neg else rm == 3)

/-- An exact product. -/
def mulNum (a b : Num) : Num := ⟨a.neg != b.neg, a.m * b.m, a.e + b.e⟩

/-- A number with its sign inverted. -/
def Num.opp (a : Num) : Num := { a with neg := !a.neg }

/-- A value with its sign inverted. -/
def FVal.opp : FVal → FVal
  | .inf n => .inf (!n)
  | .num n => .num n.opp
  | .poison => .poison
  | .snan => .snan
  | .qnan => .qnan

/-- Poison of a format, with its flag alone (R97). -/
def poisonRes (f : Fmt) : FRes := ⟨f.poison, flPoison⟩
/-- The default NaN with invalid. -/
def invalidRes (f : Fmt) : FRes := ⟨f.nan, flInvalid⟩
/-- The default NaN without a flag. -/
def quietRes (f : Fmt) : FRes := ⟨f.nan, 0⟩

/-- The first two cases of R97 over the inputs; `inv` is the third, `k` the computation. -/
def settle (f : Fmt) (xs : List FVal) (inv : Bool) (k : FRes) : FRes :=
  if xs.any (· == .poison) then poisonRes f
  else if xs.any (· == .snan) then invalidRes f
  else if inv then invalidRes f
  else if xs.any (· == .qnan) then quietRes f
  else k

/-- Addition of two values (R97, R104, R109). -/
def fpAddV (f : Fmt) (rm : Nat) (a b : FVal) : FRes :=
  let inv := match a, b with
    | .inf x, .inf y => x != y
    | _, _ => false
  settle f [a, b] inv <|
    match a, b with
    | .inf x, _ => ⟨f.inf x, 0⟩
    | _, .inf y => ⟨f.inf y, 0⟩
    | .num x, .num y => addNum f rm x y
    | _, _ => quietRes f

/-- The exact product of two values as a value, with the invalid case 0 × ∞. -/
def mulV (a b : FVal) : FVal × Bool :=
  match a, b with
  | .inf x, .inf y => (.inf (x != y), false)
  | .inf x, .num n => (.inf (x != n.neg), n.m == 0)
  | .num n, .inf y => (.inf (n.neg != y), n.m == 0)
  | .num x, .num y => (.num (mulNum x y), false)
  | x, .num _ => (x, false)
  | x, .inf _ => (x, false)
  | _, y => (y, false)

/-- `fadd` (R109). -/
def fpAdd (f : Fmt) (rm a b : Nat) : FRes := fpAddV f rm (f.val a) (f.val b)

/-- `fsub` (R109). -/
def fpSub (f : Fmt) (rm a b : Nat) : FRes := fpAddV f rm (f.val a) (f.val b).opp

/-- `fmul` (R109). -/
def fpMul (f : Fmt) (rm a b : Nat) : FRes :=
  let x := f.val a
  let y := f.val b
  let (p, inv) := mulV x y
  settle f [x, y] inv <|
    match p with
    | .inf s => ⟨f.inf s, 0⟩
    | .num n => roundNum f rm n
    | _ => quietRes f

/-- a × b + c rounded once, over values (R110). -/
def fpFmaV (f : Fmt) (rm : Nat) (x y c : FVal) : FRes :=
  let (p, inv) := mulV x y
  let clash := match p, c with
    | .inf s, .inf t => s != t
    | _, _ => false
  settle f [x, y, c] (inv || clash) <|
    match p, c with
    | .inf s, _ => ⟨f.inf s, 0⟩
    | _, .inf t => ⟨f.inf t, 0⟩
    | .num n, .num m => addNum f rm n m
    | _, _ => quietRes f

/-- `fma` (R110). -/
def fpFma (f : Fmt) (rm a b c : Nat) : FRes := fpFmaV f rm (f.val a) (f.val b) (f.val c)

/-- `fms` (R110). -/
def fpFms (f : Fmt) (rm a b c : Nat) : FRes := fpFmaV f rm (f.val a) (f.val b) (f.val c).opp

/-- −(a × b) + c (R191). -/
def fpFnma (f : Fmt) (rm a b c : Nat) : FRes := fpFmaV f rm (f.val a).opp (f.val b) (f.val c)

/-- `fdiv` (R109). -/
def fpDiv (f : Fmt) (rm a b : Nat) : FRes :=
  let x := f.val a
  let y := f.val b
  let inv := match x, y with
    | .inf _, .inf _ => true
    | .num n, .num m => n.m == 0 && m.m == 0
    | _, _ => false
  settle f [x, y] inv <|
    match x, y with
    | .inf s, .num m => ⟨f.inf (s != m.neg), 0⟩
    | .num n, .inf t => ⟨f.zero (n.neg != t), 0⟩
    | .num n, .num m =>
      if m.m = 0 then ⟨f.inf (n.neg != m.neg), flDivZero⟩
      else
        let k := f.fw + 3 + bitLen m.m
        let d := n.m * 2 ^ k
        roundTo f rm (n.neg != m.neg) (d / m.m) (n.e - m.e - k) (d % m.m != 0)
    | _, _ => quietRes f

/-- The integer square root, one bit at a time from bit i − 1 down, above r. -/
def isqrtFrom (n : Nat) : Nat → Nat → Nat
  | 0, r => r
  | i + 1, r => if (r + 2 ^ i) * (r + 2 ^ i) ≤ n then isqrtFrom n i (r + 2 ^ i) else isqrtFrom n i r

/-- The integer square root. -/
def isqrt (n : Nat) : Nat := isqrtFrom n ((bitLen n + 1) / 2) 0

/-- `fsqrt` (R109). -/
def fpSqrt (f : Fmt) (rm a : Nat) : FRes :=
  let x := f.val a
  let inv := match x with
    | .inf s => s
    | .num n => n.neg && n.m != 0
    | _ => false
  settle f [x] inv <|
    match x with
    | .inf s => ⟨f.inf s, 0⟩
    | .num n =>
      if n.m = 0 then ⟨f.zero n.neg, 0⟩
      else
        let odd : Nat := (n.e % 2).toNat
        let m := n.m * 2 ^ (odd + 2 * (f.fw + 3))
        let e : Int := (n.e - odd) / 2 - (f.fw + 3)
        let r := isqrt m
        roundTo f rm false r e (r * r != m)
    | _ => quietRes f

/-- Whether encoding a is the lesser of two encodings of numbers or infinities, −0 below +0 (R111). -/
def fpBelow (f : Fmt) (a b : Nat) : Bool :=
  let x := a % 2 ^ f.width
  let y := b % 2 ^ f.width
  let mx := x % f.signBit
  let my := y % f.signBit
  match bitAt x (f.ew + f.fw), bitAt y (f.ew + f.fw) with
  | true, true => my < mx
  | true, false => true
  | false, true => false
  | false, false => mx < my

/-- `fmin` (R111) when `wantMax` is false, `fmax` when it is true. -/
def fpMinMax (f : Fmt) (wantMax : Bool) (a b : Nat) : FRes :=
  let x := f.val a
  let y := f.val b
  let nanX := x == .snan || x == .qnan
  let nanY := y == .snan || y == .qnan
  let sig := if x == .snan || y == .snan then flInvalid else 0
  if x == .poison || y == .poison then poisonRes f
  else if nanX && nanY then ⟨f.nan, sig⟩
  else if nanX then ⟨b % 2 ^ f.width, sig⟩
  else if nanY then ⟨a % 2 ^ f.width, sig⟩
  else
    let less := fpBelow f a b
    ⟨(if less != wantMax then a else b) % 2 ^ f.width, 0⟩

/-- `fneg` and `fabs` (R112); `g` acts on an encoding that is no NaN. -/
def fpSign (f : Fmt) (g : Nat → Nat) (a : Nat) : FRes :=
  match f.val a with
  | .poison => poisonRes f
  | .snan => invalidRes f
  | .qnan => quietRes f
  | _ => ⟨g (a % 2 ^ f.width), 0⟩

/-- `fneg` (R112). -/
def fpNeg (f : Fmt) (a : Nat) : FRes :=
  fpSign f (fun x => if x < f.signBit then x + f.signBit else x - f.signBit) a

/-- `fabs` (R112). -/
def fpAbs (f : Fmt) (a : Nat) : FRes := fpSign f (fun x => x % f.signBit) a

/-- The class bit of an encoding (R113). -/
def fpClass (f : Fmt) (a : Nat) : Nat :=
  match f.val a with
  | .inf true => 1
  | .inf false => 128
  | .snan => 256
  | .qnan => 512
  | .poison => 1024
  | .num n =>
    let normal := decide (2 ^ f.fw ≤ n.m)
    match n.neg, n.m, normal with
    | true, 0, _ => 8
    | false, 0, _ => 16
    | true, _, true => 2
    | true, _, false => 4
    | false, _, true => 64
    | false, _, false => 32

/-- The relation of two values that are no NaN: a < b, and a = b. -/
def fpLtEq (a b : FVal) : Bool × Bool :=
  match a, b with
  | .inf x, .inf y => (x && !y, x == y)
  | .inf x, _ => (x, false)
  | _, .inf y => (!y, false)
  | .num n, .num m => (n.lt m, n.eqv m)
  | _, _ => (false, false)

/-- The comparisons of R114. -/
inductive FRel where
  | eq
  | lt
  | le
  deriving DecidableEq, Repr

/-- `fcmp` (R114): 1 or 0, with the flags. -/
def fpCmp (f : Fmt) (rel : FRel) (a b : Nat) : FRes :=
  let x := f.val a
  let y := f.val b
  if x == .poison || y == .poison then ⟨0, flPoison⟩
  else if x == .snan || y == .snan then ⟨0, flInvalid⟩
  else if x == .qnan || y == .qnan then ⟨0, if rel = .eq then 0 else flInvalid⟩
  else
    let (l, e) := fpLtEq x y
    let h := match rel with
      | .eq => e
      | .lt => l
      | .le => l || e
    ⟨h.toNat, 0⟩

/-- cvt_f of a value (R107). -/
def cvtV (f : Fmt) (rm : Nat) (x : FVal) : FRes :=
  settle f [x] false <|
    match x with
    | .inf s => ⟨f.inf s, 0⟩
    | .num n => roundNum f rm n
    | _ => quietRes f

/-- cvt_f between formats (R107). -/
def cvtF (src dst : Fmt) (rm a : Nat) : FRes := cvtV dst rm (src.val a)

/-- cvt_f of an integer (R107). -/
def cvtIntF (dst : Fmt) (rm : Nat) (v : Int) : FRes := roundInt dst rm v 0 false

/-- cvt_i and cvt_u8: the value rounded to an integer and clamped to [lo, hi] (R107). -/
def cvtI (src : Fmt) (rm : Nat) (lo hi : Int) (a : Nat) : Int × Nat :=
  match src.val a with
  | .poison => (lo, flPoison)
  | .snan => (hi, flInvalid)
  | .qnan => (hi, flInvalid)
  | .inf s => (if s then lo else hi, flInvalid)
  | .num n =>
    let (q, exact) := quantize rm n.neg n.m n.e false 0
    let v : Int := if n.neg then -(q : Int) else q
    if hi < v then (hi, flInvalid)
    else if v < lo then (lo, flInvalid)
    else (v, if exact then 0 else flInexact)

/-- sat(x, n) (R93). -/
def sat (x : Int) (n : Nat) : Int := min (max x (-(2 : Int) ^ (n - 1))) ((2 : Int) ^ (n - 1) - 1)

/-- satu8(x) (R93). -/
def satu8 (x : Int) : Int := min (max x 0) 255

/-- The number of leading zeros of a body in its 7 bits. -/
def tf8z (body : Nat) : Nat := 7 - bitLen body

/-- The magnitude of a TF8 body in units of 2^−19 (R98, R99). -/
def tf8Mag (body : Nat) : Nat :=
  let z := tf8z body
  if body = 0 then 0
  else if z ≤ 4 then
    let tail := body % 2 ^ (6 - z)
    let e := tail / 2 ^ (4 - z)
    let fr := tail % 2 ^ (4 - z)
    (2 ^ (4 - z) + fr) * 2 ^ (e + 19 - 4 * z - (4 - z))
  else if z = 5 then 2 ^ (body % 2 + 1)
  else 1

/-- The value of a TF8 code (R98). -/
def tf8Val (c : Nat) : FVal :=
  let body := c % 128
  if body = 0 then (if bitAt c 7 then .qnan else .num ⟨false, 0, 0⟩)
  else .num ⟨bitAt c 7, tf8Mag body, -19⟩

/-- wide_tf8 (R102): exact, 0x80 gives the default NaN, no flag. -/
def wideTf8 (f : Fmt) (c : Nat) : Nat :=
  match tf8Val c with
  | .num n => (roundNum f 0 n).bits
  | _ => f.nan

/-- Comparison of m × 2^e with k × 2^−20: 0 below, 1 equal, 2 above. -/
def cmpUnits (m : Nat) (e : Int) (k : Nat) : Nat :=
  let (x, y) := if 0 ≤ e + 20 then (m * 2 ^ (e + 20).toNat, k) else (m, k * 2 ^ (-(e + 20)).toNat)
  if x < y then 0 else if x = y then 1 else 2

/-- The body nearest to a magnitude, ties to the even body: the bodies below whose upper midpoint it lies (R101). -/
def tf8Body (m : Nat) (e : Int) : Nat → Nat
  | 0 => 0
  | b + 1 =>
    let c := cmpUnits m e (tf8Mag b + tf8Mag (b + 1))
    if c = 2 || (c = 1 && b % 2 == 1) then b + 1 else tf8Body m e b

/-- cvt_tf8 of a value (R101). -/
def cvtTf8V (x : FVal) : FRes :=
  match x with
  | .poison => ⟨0x80, flPoison⟩
  | .snan => ⟨0x80, flInvalid⟩
  | .qnan => ⟨0x80, 0⟩
  | .inf s => ⟨s.toNat * 128 + 127, flOverflow + flInexact⟩
  | .num n =>
    if cmpUnits n.m n.e (2 * tf8Mag 127) = 2 then ⟨n.neg.toNat * 128 + 127, flOverflow + flInexact⟩
    else
      let b := tf8Body n.m n.e 127
      let exact := cmpUnits n.m n.e (2 * tf8Mag b) == 1
      let tiny := n.m != 0 && cmpUnits n.m n.e 2 == 0
      ⟨if b = 0 then 0 else n.neg.toNat * 128 + b,
        (if exact then 0 else flInexact) + (if tiny then flUnderflow else 0)⟩

/-- cvt_tf8 from a format (R101). -/
def cvtTf8 (src : Fmt) (a : Nat) : FRes := cvtTf8V (src.val a)

end Sys2Proof.Machine
end

