-- ==== Sys2Proof/Machine/Windows.lean ====
section
/-! DEFINITION. Scratch bytes and the windows of the tile store, the plane window included (R211, R215 to R217, R297 to R302). -/

namespace Sys2Proof.Machine

/-! ### Scratch bytes -/

/-- n stored bytes of a tile's scratch from offset o on. -/
def State.scratchBytes (s : State) (t o : Nat) : Nat → List Byte
  | 0 => []
  | n + 1 => Memory.byte s.mem (scratchKey t o) :: s.scratchBytes t (o + 1) n

/-- A sector of scratch in [o, o + n) is uncorrectable. -/
def State.scratchBad (s : State) (t o n : Nat) : Bool :=
  s.bad != [] && (upTo ((o + n + 15) / 16 - o / 16)).any (fun i => smGet false s.bad (scratchKey t (o / 16 * 16 + 16 * i) / 16))

/-- Scratch bytes read, with whether they are uncorrectable. -/
def State.scratchRead (s : State) (t o n : Nat) : List Byte × Bool := (s.scratchBytes t o n, s.scratchBad t o n)

/-- Memory with bytes put at scratch offsets. -/
def scratchPut (m : List Host.Cell) (t o : Nat) : List Byte → List Host.Cell
  | [] => m
  | b :: bs => scratchPut (Memory.put m (scratchKey t o) b) t (o + 1) bs

/-- Scratch bytes written; a sector written whole reads correctable again (R488). -/
def State.scratchWrite (s : State) (t o : Nat) (b : List Byte) : State :=
  let first := (o + 15) / 16
  let last := (o + b.length) / 16
  let clear := (upTo (last - first)).foldl (fun m i => smPut false m (scratchKey t (16 * (first + i)) / 16) false) s.bad
  { s with mem := scratchPut s.mem t o b, bad := if s.bad = [] then [] else clear }

/-- Every sector of scratch that [o, o + n) touches made uncorrectable (R488). -/
def State.scratchSpoil (s : State) (t o n : Nat) : State :=
  let put := (upTo ((o + n + 15) / 16 - o / 16)).foldl
    (fun m i => smPut false m (scratchKey t (o / 16 * 16 + 16 * i) / 16) true) s.bad
  { s with bad := put }

/-! ### Plane records -/

/-- Element size of a plane view format in bits (R297). -/
def viewBits (f : Nat) : Nat := planeVB f / 4

/-- A decoded view element: what R300 takes it for. -/
inductive ViewVal where
  | poison
  | bad
  | fp (n : Num)
  | int (v : Int)
  deriving DecidableEq, Repr

/-- A value for R300: a NaN or infinity is bad, and a subnormal is zero. -/
def viewFp (f : Fmt) (x : Nat) : ViewVal :=
  match f.val x with
  | .poison => .poison
  | .num n => if bits x (f.ew + f.fw - 1) f.fw = 0 then .fp ⟨n.neg, 0, 0⟩ else .fp n
  | _ => .bad

/-- A view element decoded (R300). -/
def viewVal (f x : Nat) : ViewVal :=
  match f with
  | 0 => viewFp .f32 x
  | 1 => viewFp .f16 x
  | 2 => viewFp .bf16 x
  | 3 => match tf8Val x with
    | .num n => .fp n
    | _ => .bad
  | 4 => .int (sextInt x 32)
  | 5 => .int (sextInt x 8)
  | _ => .int (sextInt x 4)

/-- A plane record's contents: exponent, flags and mantissas (R298, R299). -/
structure PRec where
  e  : Nat
  fl : Nat
  ms : List Int
  deriving DecidableEq, Repr

/-- rnd_int of an element over 2^(e − 127), ties to even. -/
def planeMant (x : ViewVal) (e : Int) : Int :=
  match x with
  | .fp n =>
    let (q, _) := quantize 0 n.neg n.m n.e false (e - 127)
    if n.neg then -(q : Int) else q
  | _ => 0

/-- The loop of R300 that raises the exponent until every mantissa fits. -/
def planeFit (xs : List ViewVal) (p : Nat) : Nat → Int → Nat → PRec
  | 0, e, fl => ⟨e.toNat, fl, xs.map (fun x => planeMant x e)⟩
  | fuel + 1, e, fl =>
    if 255 < e then ⟨255, 4, xs.map (fun x => sat (planeMant x 255) p)⟩
    else
      let ms := xs.map (fun x => planeMant x e)
      if ms.all (fun m => m ≤ (2 : Int) ^ (p - 1) - 1) then ⟨e.toNat, fl, ms⟩
      else planeFit xs p fuel (e + 1) 4

/-- The conversion of a block of decoded elements (R300, R315); the format tells integer views. -/
def planeConvert (f p : Nat) (xs : List ViewVal) : PRec :=
  let fl := if xs.any (· == .poison) then 3 else if xs.any (· == .bad) then 1 else 0
  let zeros := xs.map (fun _ => (0 : Int))
  if fl ≠ 0 then ⟨0, fl, zeros⟩
  else if 4 ≤ f then
    let vs := xs.map (fun x => match x with | .int v => v | _ => 0)
    let ms := vs.map (fun v => sat v p)
    ⟨127, if ms = vs then 0 else 4, ms⟩
  else
    let logs := xs.filterMap (fun x => match x with
      | .fp n => if n.m = 0 then none else some ((bitLen n.m : Int) - 1 + n.e)
      | _ => none)
    match logs with
    | [] => ⟨0, 0, zeros⟩
    | l :: ls =>
      let e := ls.foldl max l + 127 - ((p : Int) - 2)
      planeFit xs p 600 (if e < 0 then 0 else e) 0

/-- The conversion of a block of view elements (R300). -/
def planeEncode (f p : Nat) (raw : List Nat) : PRec := planeConvert f p (raw.map (viewVal f))

/-- Bit k of a mantissa in two's complement. -/
def mantBit (m : Int) (k : Nat) : Nat := wrapN m 32 / 2 ^ k % 2

/-- The bytes of a record (R298, R299). -/
def PRec.bytes (r : PRec) (kindB : Bool) (p : Nat) : List Byte :=
  let l := planeLen kindB p
  let b := if kindB then
      toBytes r.e 1 ++ toBytes r.fl 1 ++ toBytes 0 14
        ++ (if p ≤ 8 then r.ms.map (fun m => BitVec.ofInt 8 m)
            else r.ms.map (fun m => BitVec.ofInt 8 (m / 256)) ++ r.ms.map (fun m => BitVec.ofInt 8 m))
    else
      (upTo p).flatMap (fun k => toBytes (packBits (fun t => mantBit (r.ms.getD t 0) k) 1 (upTo 32)) 4)
        ++ toBytes r.e 1 ++ toBytes r.fl 1
  takeD 0 l b

/-- The contents of a record's bytes (R298, R299). -/
def PRec.of (kindB : Bool) (p : Nat) (b : List Byte) : PRec :=
  if kindB then
    let at_ (i : Nat) : Nat := (b.getD i 0).toNat
    ⟨at_ 0, at_ 1, (upTo 32).map (fun t =>
      if p ≤ 8 then sextInt (at_ (16 + t)) 8 else sextInt (at_ (16 + t)) 8 * 256 + (at_ (48 + t) : Int))⟩
  else
    let plane (k : Nat) : Nat := fieldAt b (4 * k) 4
    ⟨fieldAt b (4 * p) 1, fieldAt b (4 * p + 1) 1, (upTo 32).map (fun t =>
      sextInt (packBits (fun k => plane k / 2 ^ t % 2) 1 (upTo p)) p)⟩

/-- The value that element t of a record stands for (R299, R301). -/
def PRec.val (r : PRec) (t : Nat) : FVal :=
  if bitAt r.fl 1 then .poison
  else if bitAt r.fl 0 then .qnan
  else
    let m := r.ms.getD t 0
    .num ⟨decide (m < 0), m.natAbs, (r.e : Int) - 127⟩

/-- A value rounded to an integer and clamped (R301, R107). -/
def intOf (lo hi : Int) : FVal → Int
  | .poison => lo
  | .num n =>
    let (q, _) := quantize 0 n.neg n.m n.e false 0
    let v : Int := if n.neg then -(q : Int) else q
    if hi < v then hi else if v < lo then lo else v
  | .inf s => if s then lo else hi
  | _ => hi

/-- An element of a record in a view format (R301). -/
def PRec.view (r : PRec) (f t : Nat) : Nat :=
  match f with
  | 0 => (cvtV .f32 0 (r.val t)).bits
  | 1 => (cvtV .f16 0 (r.val t)).bits
  | 2 => (cvtV .bf16 0 (r.val t)).bits
  | 3 => (cvtTf8V (r.val t)).bits
  | 4 => wrapN (intOf (-(2 : Int) ^ 31) ((2 : Int) ^ 31 - 1) (r.val t)) 32
  | 5 => wrapN (intOf (-128) 127 (r.val t)) 8
  | _ => wrapN (intOf (-8) 7 (r.val t)) 4

/-- The fields of a plane-window offset (R297). -/
structure PlaneAt where
  kindB : Bool
  p     : Nat
  f     : Nat
  v     : Nat
  deriving DecidableEq, Repr

/-- The decoded offset. -/
def planeAt (o : Nat) : PlaneAt := ⟨bitAt o 31, bits o 30 27 + 1, bits o 26 24, o % 2 ^ 21⟩

/-- n elements of a list of bits-wide fields in a number. -/
def unpack (x w n : Nat) : List Nat := (upTo n).map (fun i => bits x (w * i + w - 1) (w * i))

/-- Block b of a plane view read as one number of 8 × VB bits (R301). -/
def State.planeBlock (s : State) (t : Nat) (q : PlaneAt) (b : Nat) : Nat × Bool :=
  let l := planeLen q.kindB q.p
  let (bs, bad) := s.scratchRead t (b * l) l
  let r := PRec.of q.kindB q.p bs
  (packBits (fun i => r.view q.f i) (viewBits q.f) (upTo 32), bad)

/-- n view bytes of the plane window from an offset (R301, R302). -/
def State.planeRead (s : State) (t o n : Nat) : List Byte × Bool :=
  let q := planeAt o
  let vb := planeVB q.f
  let b0 := q.v / vb
  let blocks := (upTo ((q.v + n - 1) / vb + 1 - b0)).map (fun i => s.planeBlock t q (b0 + i))
  let bytes := blocks.flatMap (fun r => toBytes r.1 vb)
  ((bytes.drop (q.v - b0 * vb)).take n, blocks.any (·.2))

/-- Whole blocks written through the plane window (R300, R302). -/
def State.planeWrite (s : State) (t o : Nat) (b : List Byte) : State :=
  let q := planeAt o
  let vb := planeVB q.f
  let l := planeLen q.kindB q.p
  (upTo (b.length / vb)).foldl (fun s i =>
    let raw := unpack (ofBytes ((b.drop (i * vb)).take vb)) (viewBits q.f) 32
    s.scratchWrite t ((q.v / vb + i) * l) ((planeEncode q.f q.p raw).bytes q.kindB q.p)) s

/-- The sectors of scratch, by offset, that whole blocks through the plane window become (R300, R302). -/
def planePieces (o : Nat) (b : List Byte) : List (Nat × List Byte) :=
  let q := planeAt o
  let vb := planeVB q.f
  let l := planeLen q.kindB q.p
  (upTo (b.length / vb)).flatMap fun i =>
    let raw := unpack (ofBytes ((b.drop (i * vb)).take vb)) (viewBits q.f) 32
    let bs := (planeEncode q.f q.p raw).bytes q.kindB q.p
    (upTo (l / 16)).map (fun j => ((q.v / vb + i) * l + 16 * j, (bs.drop (16 * j)).take 16))

/-! ### Windows 0 to 5 -/

/-- A stored element decoded into its view (R216). -/
def windowDecode (w x : Nat) : Nat :=
  match w with
  | 1 => (cvtF .f16 .f32 0 x).bits
  | 2 => (cvtF .bf16 .f32 0 x).bits
  | 3 => wideTf8 .f32 x
  | 4 => wrapN (sextInt x 8) 32
  | 5 => wrapN (sextInt x 4) 32
  | _ => x

/-- A view element encoded for storing (R216). -/
def windowEncode (w x : Nat) : Nat :=
  match w with
  | 1 => (cvtF .f32 .f16 0 x).bits
  | 2 => (cvtF .f32 .bf16 0 x).bits
  | 3 => (cvtTf8 .f32 x).bits
  | 4 => wrapN (sat (sextInt x 32) 8) 8
  | 5 => wrapN (sat (sextInt x 32) 4) 4
  | _ => x

/-- Stored element j of a window. -/
def State.elemRead (s : State) (t w j : Nat) : Nat × Bool :=
  let sb := windowBits w
  let (b, bad) := s.scratchRead t (j * sb / 8) ((sb + 7) / 8)
  let x := ofBytes b
  (windowDecode w (if w = 5 then x / (if j % 2 = 0 then 1 else 16) % 16 else x), bad)

/-- The code of stored element j of a window written; an INT4 write keeps the other nibble (R217). -/
def State.elemStore (s : State) (t w j v : Nat) : State :=
  let sb := windowBits w
  if w = 5 then
    let old := ofBytes (s.scratchBytes t (j / 2) 1)
    s.scratchWrite t (j / 2) (toBytes (if j % 2 = 0 then old / 16 * 16 + v else old % 16 + 16 * v) 1)
  else s.scratchWrite t (j * sb / 8) (toBytes v (sb / 8))

/-- Stored element j of a window written with a view element. -/
def State.elemWrite (s : State) (t w j x : Nat) : State := s.elemStore t w j (windowEncode w x)

/-- n view bytes read through a window (R216, R217). -/
def State.windowRead (s : State) (t w o n : Nat) : List Byte × Bool :=
  if w = 6 then s.planeRead t o n
  else if w = 0 then s.scratchRead t o n
  else
    let es := (upTo (n / 4)).map (fun i => s.elemRead t w (o / 4 + i))
    (es.flatMap (fun e => toBytes e.1 4), es.any (·.2))

/-- View bytes written through a window (R216, R217). -/
def State.windowWrite (s : State) (t w o : Nat) (b : List Byte) : State :=
  if w = 6 then s.planeWrite t o b
  else if w = 0 then s.scratchWrite t o b
  else (upTo (b.length / 4)).foldl (fun s i => s.elemWrite t w (o / 4 + i) (ofBytes ((b.drop (4 * i)).take 4))) s

/-- The stored bytes behind n view bytes of a window: offset and length. -/
def windowSpan (w o n : Nat) : Nat × Nat :=
  if w = 6 then
    let q := planeAt o
    let vb := planeVB q.f
    let l := planeLen q.kindB q.p
    (q.v / vb * l, ((q.v + n - 1) / vb + 1 - q.v / vb) * l)
  else
    let a := o / windowView w * windowBits w / 8
    (a, ((o + n - 1) / windowView w * windowBits w + windowBits w + 7) / 8 - a)

/-- The started matrix command, if any, whose registered range meets [o, o + n) of a tile's scratch (R317). -/
def State.rangeHeld (s : State) (t o n : Nat) : Option Nat :=
  (s.cmds.find? (fun c => c.cls == .matrix && c.unit == t && c.st == .started
    && c.ranges.any (fun r => decide (r.1 < o + n) && decide (o < r.1 + r.2)))).map (·.id)

end Sys2Proof.Machine
end

