-- ==== Sys2Proof/Machine/Fence.lean ====
section
/-! DEFINITION. The actions of fences, the combining buffer's write-outs, and the instructions `fence`, `drain`, `cwb`, `cinv` and `cflush` (R233 to R237, R242, R243, R249 to R251). -/

namespace Sys2Proof.Machine

/-- A write-back request of the running thread, to be filled in. -/
def State.template (s : State) : Req := s.newReq 0 .writeBack .none 0 0 0

/-- The requests of an agent that are still to be performed. -/
def State.reqsOf (s : State) (agent : Nat) : List Req := s.reqs.filter (fun r => r.agent == agent && r.kind != .status)

/-- Loads and atomics. -/
def Req.reads (r : Req) : Bool :=
  match r.kind with
  | .load => true
  | .fill => true
  | .amo _ => true
  | _ => false

/-- The sector writes of a buffered line (R234). -/
def NtLine.sectors (l : NtLine) : List (Nat × List (Nat × Byte)) :=
  (upTo 8).filterMap fun i =>
    match l.bytes.filter (fun b => b.1 / 16 == i) with
    | [] => none
    | bs => some (i, bs.map (fun b => (b.1 % 16, b.2)))

/-- The data of a masked sector write. -/
def maskData (bs : List (Nat × Byte)) : List Byte :=
  (upTo 16).map (fun o => ((bs.find? (fun b => b.1 == o)).map (·.2)).getD 0)

/-- A buffer line written out past the tile cache (R234). -/
def State.writeOut (s : State) (l : NtLine) : State :=
  let q := { s.template with core := l.core, ctx := l.ctx, agent := l.agent, launch := l.launch, tenant := l.tenant, attr := l.attr }
  let s := { s with nt := s.nt.filter (fun m => m ≠ l) }
  let s := if l.core < 256 then (upTo 8).foldl (fun s i => s.evictSector q (tileOf l.core) (l.line * 128 + 16 * i)) s else s
  l.sectors.foldl (fun s (i, bs) =>
    let pa := l.line * 128 + 16 * i
    let (id, s) := s.fresh
    s.addReq { q with id := id, grp := id, kind := .store, pa := pa, size := 16, data := maskData bs
                      mask := bs.map (·.1), remote := s.isRemote pa, nt := true }) s

/-- The buffer lines of a thread. -/
def State.ntOf (s : State) (agent : Nat) : List NtLine := s.nt.filter (fun l => l.agent == agent)

/-- Every buffer line of a thread written out (R234). -/
def State.writeOutAll (s : State) (agent : Nat) : State := (s.ntOf agent).foldl (fun s l => s.writeOut l) s

/-- The release part of a fence that acts at issue: at cube scope or wider an A-core writes back its tile's dirty sectors (R237). -/
def State.releaseStart (s : State) (scope : Nat) : State :=
  if 1 ≤ scope ∧ s.cur.1 < 256 ∧ kindOf s.cur.1 = .a then s.writeBackTile s.template (tileOf s.cur.1) else s

/-- The acquire part of a fence (R237). -/
def State.acquire (s : State) (scope : Nat) : State :=
  if 1 ≤ scope ∧ s.cur.1 < 256 ∧ kindOf s.cur.1 = .a then s.acquireTile (tileOf s.cur.1) else s

/-- The running context waits for requests, marking that its first part is done. -/
def State.waitFor (s : State) (ids : List Nat) : State :=
  s.setSelf { s.self with park := some (.reqs ids), since := s.cycle, memo := [1] }

/-- The first part of the running instruction is done. -/
def State.second (s : State) : Bool := s.self.memo == [1]

/-- The running thread's loads and atomics that have not returned, if a release has to see them return before it writes back what they may have read (R237, R255). -/
def State.readsOut (s : State) (scope : Nat) : List Req :=
  if 1 ≤ scope ∧ s.cur.1 < 256 ∧ s.self.memo ≠ [10] then (s.reqsOf s.agent).filter (·.reads) else []

/-- The requests that a fence of the running thread waits for, once its cache action has begun (R230, R237). -/
def State.fenceReqs (s : State) (rel : Bool) (scope : Nat) : List Req :=
  if rel then s.relReqs s.agent s.cur.1 scope else (s.reqsOf s.agent).filter (fun r => r.reads || r.pv)

/-- A fence of release and acquire parts at a scope, then k (R237).
The context waits in the issue stage for its loads, then for what the release part has to see performed. -/
def State.fenced (s : State) (rel acq : Bool) (scope : Nat) (k : State → State) : State :=
  let go (s : State) : State := k (if acq then s.acquire scope else s)
  if s.second then go s
  else
    match (if rel then s.readsOut scope else []) with
    | r :: rs => s.setSelf { s.self with park := some (.reqs ((r :: rs).map (·.id))), since := s.cycle, memo := [10] }
    | [] =>
      let s := if rel then s.releaseStart scope else s
      match s.fenceReqs rel scope with
      | [] => go s
      | own => s.waitFor (own.map (·.id))

/-- `fence.acq` (R237). -/
def execFenceAcq (sx : Fin 4) (s : State) : Host.Outcome State Fault Refusal :=
  .next (s.issue useNothing (s.fenced false true sx.val (fun s => s.finish (.fenceAcq sx))))

/-- `fence.rel` (R237). -/
def execFenceRel (sx : Fin 4) (s : State) : Host.Outcome State Fault Refusal :=
  .next (s.issue useNothing (s.fenced true false sx.val (fun s => s.finish (.fenceRel sx))))

/-- `fence.ar` (R237). -/
def execFenceAr (sx : Fin 4) (s : State) : Host.Outcome State Fault Refusal :=
  .next (s.issue useNothing (s.fenced true true sx.val (fun s => s.finish (.fenceAr sx))))

/-- `drain`: the thread's buffer lines are written out, and it waits until they and its earlier write-outs are performed (R235). -/
def execDrain (sx : Fin 4) (s : State) : Host.Outcome State Fault Refusal :=
  let fin (s : State) : State := s.finish (.drain sx)
  .next (s.issue useNothing
    (if s.second then fin s
     else
       let s := s.writeOutAll s.agent
       let own := (s.reqsOf s.agent).filter (·.nt)
       if own = [] then fin s else s.waitFor (own.map (·.id))))

/-- What a cache-maintenance instruction does with the line of an address (R242). -/
inductive Maint where
  | wb | inv | flush
  deriving DecidableEq, Repr

/-- The line's cache action (R242); a line that is absent, an uncached page, and a core without a data cache give no effect. DEDUCED, unsafe: log entry 16. -/
def State.maintain (s : State) (m : Maint) (pa attr : Nat) : State :=
  let t := tileOf s.cur.1
  if !s.caches s.cur.1 attr then s
  else
    match (s.tile t).find pa with
    | none => s
    | some c =>
      match m with
      | .wb => s.writeBackLine s.template t c
      | .inv => s.dropLine t c.line
      | .flush => s.flushLine s.template t c

/-- The buffer line of the running thread that holds an address is written out before it goes on (R234). -/
def State.ntConflict (s : State) (pa : Nat) : Option State :=
  match s.nt.find? (fun l => l.agent == s.agent && l.line == pa / 128) with
  | some l =>
    let t := s.writeOut l
    let own := (t.reqsOf t.agent).filter (fun r => r.kind == .store && r.pa / 128 == pa / 128)
    some (t.parkMe (.reqs (own.map (·.id))))
  | none => none

/-- The running thread's stores to a line that are not in the tile cache yet. -/
def State.storesTo (s : State) (pa : Nat) : List Nat :=
  (s.reqs.filter (fun r => r.agent == s.agent && r.kind == .storeFill && r.pa / 128 == pa / 128)).map (·.id)

/-- `cwb`, `cinv` and `cflush` after their address check; they act behind the thread's own stores to the line (R242). -/
def State.runMaint (s : State) (i : Instr) (a : Reg) (t : Bool) (m : Maint) : State :=
  let va := (s.val a).toNat / 128 * 128
  s.issue ⟨[], [(a, t)], [], []⟩
    (if va / 2 ^ 60 = 15 then s.trap 0x05 0 (BitVec.ofNat 64 va)
     else match s.access va 1 1 (m == .inv) false with
      | .stop t => t
      | .localMem _ => s
      | .tile _ _ => s
      | .virt _ pa attr =>
        match s.ntConflict pa with
        | some t => t
        | none => if s.storesTo pa ≠ [] then s.parkMe (.reqs (s.storesTo pa)) else (s.maintain m pa attr).finish i)

/-- `cwb` (R242). -/
def execCwb (a : Reg) (t : Bool) (s : State) : Host.Outcome State Fault Refusal :=
  .next (s.runMaint (.cwb a t) a t .wb)

/-- `cinv` (R242). -/
def execCinv (a : Reg) (t : Bool) (s : State) : Host.Outcome State Fault Refusal :=
  .next (s.runMaint (.cinv a t) a t .inv)

/-- `cflush` (R242). -/
def execCflush (a : Reg) (t : Bool) (s : State) : Host.Outcome State Fault Refusal :=
  .next (s.runMaint (.cflush a t) a t .flush)

/-- A line leaves the instruction caches of a tile's two cores, or of a vault core; one on its way there is not kept when it arrives (R243). -/
def State.invalidateCode (s : State) (pa : Nat) : State :=
  let late (c : Nat) (r : Req) : Req := if r.dest = .ifill c (pa / 128) then { r with dest := .none } else r
  let drop (s : State) (c : Nat) : State :=
    { s.setCore c { s.core c with icache := (s.core c).icache.filter (fun l => l.line ≠ pa / 128) } with reqs := s.reqs.map (late c) }
  if 256 ≤ s.cur.1 then drop s s.cur.1 else drop (drop s s.cur.1) (partner s.cur.1)

/-- `cinv.i` (R243). -/
def execCinvI (a : Reg) (t : Bool) (s : State) : Host.Outcome State Fault Refusal :=
  let va := (s.val a).toNat / 128 * 128
  .next (s.issue ⟨[], [(a, t)], [], []⟩
    (if va / 2 ^ 60 = 15 then s.trap 0x05 0 (BitVec.ofNat 64 va)
     else match s.access va 1 1 false false with
      | .stop t => t
      | .localMem _ => s
      | .tile _ _ => s
      | .virt _ pa _ => (s.invalidateCode pa).finish (.cinvI a t)))

end Sys2Proof.Machine
end

