-- ==== Sys2Proof/Machine/Reloc.lean ====
section
/-! DEFINITION. Relocation of threads to vault cores: departure, arrival, refusal, loading and return of moths, and forwarding stubs (R135, R225 to R229, R361). -/

namespace Sys2Proof.Machine

/-- The lifetime of a forwarding stub in ns (R135). -/
def stubLife : Nat := 100000

/-- A stub taken on a core for a thread that has left, if one of the 32 is free (R135). -/
def State.takeStub (s : State) (core name cube dest : Nat) : State :=
  let c := s.core core
  let l := c.stubs.filter (fun b => b.name ≠ name)
  if l.length < 32 then s.setCore core { c with stubs := l ++ [⟨name, cube, dest, s.time⟩] } else s

/-- What a directory entry of a thread holds: cube and core (R134, R135). -/
def threadEntry (cube core : Nat) : Nat := cube * 512 + core + 1

/-- The core of a thread's birth, from its name (R133). -/
def birthCore (name : Nat) : Nat := bits name 17 9

/-- The tenant's directory with a thread's new place; an entry for the birth core is deleted (R135). -/
def State.enterDir (s : State) (tenant name cube core : Nat) : State :=
  let t := s.tenant tenant
  let e := if birthCore name = core ∧ bits name 30 18 = cube then 0 else threadEntry cube core
  s.setTenant tenant { t with dir := smPut 0 t.dir name e }

/-- The context without the registers that its live mask leaves out, as it arrives elsewhere (R122, R226). -/
def Ctx.shed (x : Ctx) : Ctx :=
  let kept := liveRegs x.live
  { x with regs := x.regs.filter (fun r => kept.contains r.1), vlive := 0, park := none, memo := [], stay := false }

/-- At most 44 of s1 to s59 are live (R143, R225). -/
def Ctx.fits (x : Ctx) : Bool := decide ((liveRegs x.live).length ≤ 44)

/-- The cube and vault where an access relocates its thread to, if it does (R225). -/
def State.movesTo (s : State) (pa attr : Nat) : Option (Nat × Nat) :=
  let x := s.self
  if x.priv = .user && (kindOf s.cur.1 = .a || x.home.isSome) && attrM attr && !x.stay && x.fits && !hostWindow pa then
    match s.home pa with
    | none => none
    | some (c, la) =>
      let v := (s.place la).vault
      if c = s.cube ∧ s.cur.1 = 256 + v then none else some (c, v)
  else none

/-- Every pending producer, timeline and partner vector access of the running thread is done (R225). -/
def State.drained (s : State) : Bool :=
  let x := s.self
  x.regs.all (fun r => r.2.st != .pending)
    && x.tls.all (fun t => t.2.done == t.2.issued)
    && !s.reqs.any (fun r => r.agent == s.agent && (r.pv || (match r.dest with | .vec _ _ _ _ => true | _ => false)))

/-- The header words of a relocation packet (R226). DEDUCED, unsafe: log entry 68. -/
def Ctx.packetWords (x : Ctx) (h : MothHome) : List Word :=
  [x.name, x.tenant, x.job, x.lid, x.prio, h.cube, h.core, h.ctx].map (BitVec.ofNat 64)

/-- The words of a packet that brings a moth home: the header, and the trap that it takes there (R228, R361). -/
def Ctx.returnWords (x : Ctx) (h : MothHome) : List Word :=
  x.packetWords h ++ (match x.trapHome with
    | some t => [BitVec.ofNat 64 t.cause, BitVec.ofNat 64 t.sub, t.val, t.tpc, BitVec.ofNat 64 t.seq, BitVec.ofNat 64 t.late.toNat]
    | none => [])

/-- The trap that a packet brings home (R361). -/
def trapOfWords (ws : List Word) : Option HomeTrap :=
  match ws.drop 8 with
  | [c, sub, v, p, q, l] => some ⟨c.toNat, sub.toNat, v, p, q.toNat, l != 0⟩
  | _ => none

/-- The relocation packet leaves; the context waits for the answer (R226). -/
def State.sendAway (s : State) (c v : Nat) : State :=
  let x := s.self
  let h : MothHome := x.home.getD ⟨s.cube, s.cur.1, s.cur.2⟩
  let m := { x.shed with home := some h, chain := 0 }
  let s := s.enterDir x.tenant x.name c (256 + v)
  let s := s.setSelf { x with park := some .reloc, memo := [8, c] }
  if c = s.cube then
    { s with stored := s.stored ++ [{ core := 256 + v, slot := 25, frame := false, held := false, ready := true, reg := 0, goal := 256 + v, ret := false, recOf := 0, msgs := [], pins := 0, vops := [], rep := none, ctx := m }] }
  else s.sendTo c 1 .relocationArrival { EvArg.zero with a := x.uid, b := 2, c := v, bytes := x.slotBytes s.cur.1 0, words := x.packetWords h }

/-- Departure: the thread is drained, performs the actions of `fence.rel domain`, and the packet is sent (R225, R226). -/
def State.depart (s : State) (c v : Nat) : State :=
  if s.second then s.sendAway c v
  else if !s.drained then s.parkMe .drained
  else
    let s := (s.writeOutAll s.agent).releaseStart 2
    match s.relReqs s.agent s.cur.1 2 with
    | [] => s.sendAway c v
    | own => s.waitFor (own.map (·.id))

/-- The context of a thread that waits for the answer to its relocation packet. -/
def State.departing (s : State) (uid : Nat) : Option Nat :=
  (s.ctxs.find? (fun e => e.2.occ && e.2.uid == uid && e.2.park == some .reloc)).map (·.1)

/-- The packet has been accepted: the home context is held, any other is freed, and a stub is taken (R226). -/
def State.departed (s : State) (uid cube core : Nat) : State :=
  match s.departing uid with
  | none => s
  | some k =>
    let x := s.ctx k
    let s := s.takeStub (k / 16) x.name cube core
    if x.home.isSome then s.setCtx k x.freed else s.setCtx k { x with park := some .away }

/-- The packet has been refused: the thread's directory entry names its core again, and the access is made from there (R134, R227). -/
def State.stays (s : State) (uid : Nat) : State :=
  match s.departing uid with
  | none => s
  | some k =>
    let x := s.ctx k
    (s.enterDir x.tenant x.name s.cube (k / 16)).setCtx k { x with park := none, stay := true, memo := [] }

/-- Threads in a vault core's relocation inbox (R226). -/
def State.inbox (s : State) (core : Nat) : List Stored := s.stored.filter (fun t => t.core == core && t.slot == 24)

/-- A thread that a packet of another cube brings (R226). -/
def inboundMoth (id : Nat) (a : EvArg) : Stored :=
  let w (i : Nat) : Nat := (a.words.getD i 0).toNat
  let x := { Ctx.free with occ := true, uid := id, name := w 0, tenant := w 1, job := w 2, lid := w 3
                           home := some ⟨w 5, w 6, w 7⟩ }
  { core := 256 + a.c, goal := 256 + a.c, slot := 24, frame := false, held := false, ready := true, reg := 0, ret := false, recOf := 0, msgs := [], pins := 0, vops := [], rep := none
    ctx := { x.fromSlot (256 + a.c) a.bytes with prio := w 4 } }

/-- RELOCATION_ARRIVAL (R226).
Argument: a, the thread; b = 1, the answer of another cube, with its cube and vault in c and d; b = 2, a packet from another cube for vault c; else the packet in flight on this cube. -/
def execRelocationArrival (s : State) : Host.Outcome State Fault Refusal :=
  let g := s.arg
  .next (
    if g.b = 1 then s.departed g.a g.c (256 + g.d)
    else if g.b = 2 then
      if (s.inbox (256 + g.c)).length < 16 ∧ !s.cancelled (g.words.getD 1 0).toNat (g.words.getD 2 0).toNat then
        let (id, s) := s.fresh
        let s := s.enterDir (g.words.getD 1 0).toNat (g.words.getD 0 0).toNat s.cube (256 + g.c)
        { s with stored := s.stored ++ [inboundMoth id g] }.sendTo (g.peer.getD 0) 1 .relocationArrival { EvArg.zero with a := g.a, b := 1, c := s.cube, d := g.c }
      else s.sendTo (g.peer.getD 0) 1 .relocationRefusal { EvArg.zero with a := g.a }
    else
      match s.stored.find? (fun t => t.slot == 25 && !t.ret && t.ctx.uid == g.a) with
      | none => s
      | some t =>
        let rest := s.stored.filter (fun u => u ≠ t)
        if (s.inbox t.core).length < 16 ∧ !s.cancelled t.ctx.tenant t.ctx.job then
          ({ s with stored := rest ++ [{ t with slot := 24 }] }).departed g.a s.cube t.core
        else { s with stored := rest ++ [{ t with slot := 27 }] })

/-- RELOCATION_REFUSAL (R227).
Argument: a, the thread. -/
def execRelocationRefusal (s : State) : Host.Outcome State Fault Refusal :=
  .next ({ s with stored := s.stored.filter (fun t => !(t.slot == 27 && t.ctx.uid == s.arg.a)) }.stays s.arg.a)

/-- A moth leaves its vault core for home: the release first, then the packet (R228). -/
def State.goHome (s : State) : State :=
  let x := s.self
  let send (s : State) : State :=
    match x.home with
    | none => s.setSelf { x with park := none }
    | some h =>
      let m := { x.shed with trapHome := x.trapHome }
      let s := s.setSelf x.freed
      let s := s.takeStub s.cur.1 x.name h.cube h.core
      let s := s.enterDir x.tenant x.name h.cube h.core
      if h.cube = s.cube then
        { s with stored := s.stored ++ [{ core := h.core, slot := 25, frame := false, held := false, ready := true, goal := h.core, reg := 0, ret := true, recOf := 0, msgs := [], pins := 0, vops := [], rep := none, ctx := m }] }
      else s.sendTo h.cube 1 .mothReturn { EvArg.zero with a := x.name, b := 1, c := h.core, d := h.ctx, bytes := x.slotBytes s.cur.1 0, words := x.returnWords h }
  if x.memo = [2] then send s
  else
    let s := s.writeOutAll s.agent
    match s.reqsOf s.agent with
    | [] => send s
    | own => s.setSelf { x with park := some (.reqs (own.map (·.id))), since := s.cycle, memo := [2] }

/-- The held home context of a thread. -/
def State.heldHome (s : State) (uid : Nat) : Option Nat :=
  (s.ctxs.find? (fun e => e.2.occ && e.2.uid == uid && e.2.park == some .away)).map (·.1)

/-- A returned thread in its home context: what the packet brings over what the context has kept; then the acquire, and a trap that it brought home (R228, R361). -/
def State.landHome (s : State) (k : Nat) (m : Ctx) : State :=
  let h := s.ctx k
  let lo := (tlClasses (k / 16)).1
  let x := { h with regs := m.regs, live := m.live, vlive := 0, pc := m.pc, fmode := m.fmode, fflags := m.fflags
                    loops := m.loops, sig := m.sig, prio := m.prio, park := none, memo := [], stay := false
                    tls := smPut Timeline.zero h.tls lo (m.timeline lo), groups := m.groups, dying := h.dying || m.dying }
  let s := s.setCtx k x
  let s := if k / 16 < 256 then s.acquireTile (tileOf (k / 16)) else s
  match m.trapHome with
  | some t =>
    -- what a moth of a cluster's launch has consumed on another cube
    if t.cause = 0x13 ∧ t.sub = 1 ∧ inCluster s (k / 16) x then s.consume (k / 16) (k % 16) t.cause
    else takeTrapAt s (k / 16) (k % 16) t.cause t.sub t.val t.tpc t.seq t.late
  | none => s

/-- The held home context that a packet of another cube names, with the thread's name. -/
def State.heldAt (s : State) (core ctx name : Nat) : Option Nat :=
  let x := s.ctx (ctxKey core ctx)
  if x.occ && x.park == some .away && x.name == name then some (ctxKey core ctx) else none

/-- MOTH_RETURN (R228).
Argument: a, the thread of this cube that has left its vault core; b = 1, a packet from another cube for the thread named a, held in context d of core c, with its state in `bytes`; b = 2, that moth has ended there and its held context is freed. -/
def execMothReturn (s : State) : Host.Outcome State Fault Refusal :=
  let g := s.arg
  .next (
    match (if g.b = 0 then s.heldHome g.a else s.heldAt g.c g.d g.a) with
    | none => s
    | some k =>
      if g.b = 2 then s.setCtx k (s.ctx k).freed
      else if g.b = 1 then
        let m := { (s.ctx k).fromSlot 256 g.bytes with trapHome := trapOfWords g.words }
        (s.enterDir (s.ctx k).tenant (s.ctx k).name s.cube (k / 16)).landHome k m
      else
        match s.stored.find? (fun t => t.slot == 25 && t.ret && t.ctx.uid == g.a) with
        | none => s
        | some t => { s with stored := s.stored.filter (fun u => u ≠ t) }.landHome k t.ctx)

/-- The free user contexts of a core. DESIGN CHOICE, safe: log entry 18. -/
def State.freeCtxs (s : State) (core : Nat) : List Nat := (upTo 8).filter (fun i => !(s.ctx (ctxKey core i)).occ)

/-- MOTH_LOAD: a thread of the inbox is loaded into a granted context and makes its access there (R226).
Argument: a, the thread. -/
def execMothLoad (s : State) : Host.Outcome State Fault Refusal :=
  .next (
    match s.stored.find? (fun t => t.slot == 24 && t.ctx.uid == s.arg.a) with
    | none => s
    | some t =>
      match s.freeCtxs t.core with
      | [] => s
      | f :: fs =>
        let (i, s) := s.pick f (f :: fs)
        { s with stored := s.stored.filter (fun u => u ≠ t) }.setCtx (ctxKey t.core i)
          { t.ctx with occ := true, issued := s.cycle })

/-- `home`: a moth returns and goes on after it; any other thread passes on (R229). -/
def execHome (s : State) : Host.Outcome State Fault Refusal :=
  .next (if s.self.home.isSome then s.parkMe .homeward else s.issue useNothing (s.finish .home))

/-- STUB_EXPIRY: stubs older than 100 µs are freed (R135).
Argument: a, the core. -/
def execStubExpiry (s : State) : Host.Outcome State Fault Refusal :=
  let c := s.core s.arg.a
  .next (s.setCore s.arg.a { c with stubs := c.stubs.filter (fun b => decide (s.time < b.taken + stubLife)) })

end Sys2Proof.Machine
end

