-- ==== Sys2Proof/Machine/Mem.lean ====
section
/-! DEFINITION. Loads, stores, non-temporal stores, queue transfers and atomics (R72 to R78, R212, R215 to R217, R225, R233, R234, R238 to R241). -/

namespace Sys2Proof.Machine

/-- The effective address of an access of n bytes (R72). -/
def effAddr (a : Word) (off : BitVec 10) (n : Nat) : Nat := (a + off.signExtend 64 * BitVec.ofNat 64 n).toNat

/-- A loaded number widened into its register (R73). -/
def Widen.word (w : Widen) (x : Nat) : Word := if w.signed then sext64 x (8 * w.bytes) else BitVec.ofNat 64 x

/-- The bytes of the running thread's buffer lines that an access of n bytes meets, by offset (R234). -/
def State.buffered (s : State) (pa n : Nat) : List (Nat × Byte) :=
  match s.nt.find? (fun l => l.agent == s.agent && l.line == pa / 128) with
  | none => []
  | some l => (l.bytes.filter (fun b => decide (pa % 128 ≤ b.1) && decide (b.1 < pa % 128 + n))).map
      (fun b => (b.1 - pa % 128, b.2))

/-- Bytes with some replaced at offsets. -/
def overlay (b : List Byte) (o : List (Nat × Byte)) : List Byte := o.foldl (fun b p => b.set p.1 p.2) b

/-- n bytes with the given ones at their offsets, zero elsewhere. -/
def spread (o : List (Nat × Byte)) (n : Nat) : List Byte := overlay (List.replicate n 0) o

/-- The request of a load from a virtual address: from a valid sector of the tile cache, as a fill, or from the home (R212, R259). -/
def State.loadReq (s : State) (dest : Dest) (pa n attr : Nat) : State :=
  let (id, s) := s.fresh
  let r := { s.newReq id .load dest pa n attr with remote := s.isRemote pa }
  let o := s.buffered pa n
  let r := { r with data := spread o n, mask := o.map (·.1) }
  if s.caches s.cur.1 attr && !hostWindow pa && !s.heldByOther (pa / 128) s.self.launch then
    match (if s.ownPending pa n then none else s.cacheHit (tileOf s.cur.1) pa n) with
    | some (b, bad) => s.addReq { r with sampled := true, data := overlay b o, poison := bad, remote := false }
    | none => s.addReq { r with kind := .fill }
  else s.addReq r

/-- A result that is already known, delivered later: the long-latency load from a tile store (R9). -/
def State.readyReq (s : State) (dest : Dest) (b : List Byte) (bad : Bool) : State :=
  let (id, s) := s.fresh
  s.addReq { s.newReq id .load dest 0 b.length 0 with sampled := true, data := b, poison := bad }

/-- `ld` (R72, R73). -/
def State.runLoad (s : State) (i : Instr) (d a : Reg) (t : Bool) (off : BitVec 10) (w : Widen) : State :=
  let n := w.bytes
  s.issue ⟨[], [(a, t)], [], [d]⟩
    (match s.access (effAddr (s.val a) off n) n n false true with
    | .stop t => t
    | .localMem o =>
      let (b, bad) := s.dieRead (localKey s.cur.1 o) n
      (s.putMarked d (w.word (ofBytes b)) bad).finish i
    | .tile win o =>
      let (b, bad) := s.windowRead (tileOf s.cur.1) win o n
      ((s.await d s.nid).readyReq (s.longDest d w) b bad).finish i
    | .virt _ pa attr =>
      match s.movesTo pa attr with
      | some (c, v) => s.depart c v
      | none =>
        ((s.await d s.nid).loadReq (s.longDest d w) pa n attr).finish i)

/-- A store's request, past the tile cache or into it. -/
def State.storeReq (s : State) (kind : ReqKind) (va pa attr : Nat) (b : List Byte) : State :=
  let (id, s) := s.fresh
  s.addReq { s.newReq id kind .none pa b.length attr with data := b, mask := upTo b.length, remote := s.isRemote pa, va := va }

/-- Bytes of one sector stored to a virtual address: into the tile cache, at once or behind what has to come first, or on their way home (R74, R212, R260). -/
def State.storeVirt (s : State) (va pa attr : Nat) (b : List Byte) : State :=
  let t := tileOf s.cur.1
  let put (s : State) : State := (s.claimLine s.template t pa s.self.launch).cacheWrite t pa b attr s.self.launch
  if s.caches s.cur.1 attr then
    if s.ownPending pa b.length || s.guardBehind s.nid pa attr s.self.launch then s.storeReq .storeFill va pa attr b
    else if (s.cacheHit t pa b.length).isSome then put s
    else if b.length = 16 then put (s.allocLine s.template t pa attr)
    else s.storeReq .storeFill va pa attr b
  else s.storeReq .store va pa attr b

/-- A store to a virtual address meets a line that another launch holds: at its home, or in the tile's own cache (R259, R260). -/
def State.storeHeld (s : State) (pa attr : Nat) : Bool :=
  if s.caches s.cur.1 attr then s.lineTaken (tileOf s.cur.1) pa s.self.launch else s.heldByOther (pa / 128) s.self.launch

/-- A store to a checked address, then k; it waits for a matrix command that reads the bytes (R317), for a line that a launch guard holds (R260), and behind its own buffer line (R234). -/
def State.storeTo (s : State) (acc : Acc) (b : List Byte) (moves : Bool) (k : State → State) : State :=
  match acc with
  | .stop t => t
  | .localMem o => k (s.dieWrite (localKey s.cur.1 o) b)
  | .tile w o =>
    let t := tileOf s.cur.1
    let (so, sn) := windowSpan w o b.length
    match s.rangeHeld t so sn with
    | some id => s.parkMe (.event id)
    | none => k (s.windowWrite t w o b)
  | .virt va pa attr =>
    match (if moves then s.movesTo pa attr else none) with
    | some (c, v) => s.depart c v
    | none =>
      match s.ntConflict pa with
      | some t => t
      | none =>
        if s.storeHeld pa attr then s.parkMe (.guard (pa / 128) va)
        else k (s.storeVirt va pa attr b)

/-- `st` (R72, R74, R76). -/
def State.runStore (s : State) (i : Instr) (d a : Reg) (t : Bool) (off : BitVec 10) (n : Nat) : State :=
  s.issue ⟨[], [(a, t), (d, false)], [], []⟩
    (s.storeTo (s.access (effAddr (s.val a) off n) n n true false) (toBytes (s.val d).toNat n) true
      (fun s => s.finish i))

/-- The lines of a core's combining buffer. -/
def State.ntLines (s : State) (core : Nat) : List NtLine := s.nt.filter (fun l => l.core == core)

/-- The line of the buffer that was first allocated. -/
def State.ntOldest (s : State) (core : Nat) : Option NtLine := (s.ntLines core).head?

/-- Bytes put into the combining buffer (R233); a full line is written out at once (R234). -/
def State.ntPut (s : State) (pa attr : Nat) (bs : List (Nat × Byte)) : State :=
  let core := s.cur.1
  let merge (l : NtLine) : NtLine :=
    { l with bytes := (l.bytes.filter (fun b => !bs.any (fun c => c.1 == b.1))) ++ bs, when_ := s.cycle, attr := attr }
  let done (s : State) (l : NtLine) : State := if l.bytes.length = 128 then s.writeOut l else s
  match s.nt.find? (fun l => l.agent == s.agent && l.core == core && l.line == pa / 128) with
  | some l => done { s with nt := s.nt.map (fun m => if m = l then merge l else m) } (merge l)
  | none =>
    let s := if 4 ≤ (s.ntLines core).length then
        match s.ntOldest core with
        | some l => s.writeOut l
        | none => s
      else s
    let l : NtLine := { core := core, ctx := s.cur.2, agent := s.agent, launch := s.self.launch, line := pa / 128
                        bytes := bs, when_ := s.cycle, tenant := s.self.tenant, attr := attr }
    done { s with nt := s.nt ++ [l] } l

/-- `st.nt` (R233): on-die as `st`, otherwise into the combining buffer. -/
def State.runStoreNt (s : State) (i : Instr) (d a : Reg) (t : Bool) (off : BitVec 10) (n : Nat) : State :=
  s.issue ⟨[], [(a, t), (d, false)], [], []⟩
    (let acc := s.access (effAddr (s.val a) off n) n n true false
     let b := toBytes (s.val d).toNat n
     match acc with
     | .virt _ pa attr =>
       match s.movesTo pa attr with
       | some (c, v) => s.depart c v
       | none => (s.ntPut pa attr ((upTo n).map (fun o => (pa % 128 + o, b.getD o 0)))).finish i
     | acc => s.storeTo acc b true (fun s => s.finish i))

/-- The queue transfers are made with the partner; the steward has none (R148). -/
def queueCond (s : State) (port : Nat) : Option Cond :=
  if hasPartner s.cur.1 s.cur.2 then none else some ⟨0x08, 0, BitVec.ofNat 64 port⟩

/-- `ldq` (R77); it may not use a page of the host window (R448). DESIGN CHOICE, unsafe: log entry 77. -/
def State.runLdq (s : State) (i : Instr) (a : Reg) (t : Bool) (off : BitVec 10) (n : Nat) : State :=
  s.issueWith ⟨[], [(a, t)], [], []⟩ (queueCond s 61)
    (let full := decide (32 ≤ (s.pinQ s.poutKey).length)
     let push (s : State) (e : QEnt) : State := s.setPinQ s.poutKey (s.pinQ s.poutKey ++ [e])
     let now (s : State) (r : List Byte × Bool) : State :=
       (push s ⟨0, true, BitVec.ofNat 64 (ofBytes r.1), r.2⟩).finish i
     match s.access (effAddr (s.val a) off n) n n false false with
     | .stop t => t
     | .localMem o => if full then s.parkMe .pout else now s (s.dieRead (localKey s.cur.1 o) n)
     | .tile w o => if full then s.parkMe .pout else now s (s.windowRead (tileOf s.cur.1) w o n)
     | .virt _ pa attr =>
       if full then s.parkMe .pout
       else ((push s ⟨s.nid, false, 0, false⟩).loadReq (.queue false s.poutKey ⟨n, false⟩) pa n attr).finish i)

/-- `stq` (R78). -/
def State.runStq (s : State) (i : Instr) (a : Reg) (t : Bool) (off : BitVec 10) (n : Nat) : State :=
  s.issueWith ⟨[], [(a, t)], [], []⟩ (queueCond s 60)
    (let ea := effAddr (s.val a) off n
     let go (acc : Acc) : State :=
       match s.portHead 60 with
       | some e =>
         if !e.filled then s.parkMe .pin
         else if e.poison then (s.pop 60).trap 0x09 2 (BitVec.ofNat 64 ea)
         else s.storeTo acc (toBytes e.val.toNat n) false (fun s => (s.pop 60).finish i)
       | none => s.parkMe .pin
     match s.access ea n n true false with
     | .stop t => t
     | acc => go acc)

/-! ### Atomics -/

/-- What an atomic writes for an old value; nothing when `cas` does not match (R239). -/
def amoNew (op : AmoOp) (size old : Nat) (v w : Nat) : Option Nat :=
  let m := 2 ^ (8 * size)
  let a := sextInt old (8 * size)
  let b := sextInt v (8 * size)
  match op with
  | .add => some ((old + v) % m)
  | .and => some (old &&& v)
  | .or => some (old ||| v)
  | .xor => some (old ^^^ v)
  | .min => some (if b < a then v else old)
  | .max => some (if a < b then v else old)
  | .minu => some (Nat.min old v)
  | .maxu => some (Nat.max old v)
  | .swap => some v
  | .cas => if old = v then some w else none
  | .fadd => some (fpAdd .f32 0 old v).bits

/-- The operand registers of an atomic (R50, R239). -/
def amoSrcs (op : AmoOp) (size : Nat) (d : Reg) : List (Reg × Bool) :=
  let r (k : Nat) : Reg × Bool := (Fin.ofNat 64 (d.val + k), false)
  if op = .cas then (if size = 16 then [r 0, r 1, r 2, r 3] else [r 0, r 1]) else [r 0]

/-- The result registers. -/
def amoDsts (size : Nat) (d : Reg) : List Reg := if size = 16 then [d, Fin.ofNat 64 (d.val + 1)] else [d]

/-- The value operand, or the expected one of `cas`. -/
def State.amoV (s : State) (size : Nat) (d : Reg) : Nat :=
  let r (k : Nat) : Nat := (s.val (Fin.ofNat 64 (d.val + k))).toNat
  if size = 16 then r 0 + r 1 * 2 ^ 64 else r 0 % 2 ^ (8 * size)

/-- The replacement of `cas`. -/
def State.amoW (s : State) (size : Nat) (d : Reg) : Nat :=
  let r (k : Nat) : Nat := (s.val (Fin.ofNat 64 (d.val + k))).toNat
  if size = 16 then r 2 + r 3 * 2 ^ 64 else r 1 % 2 ^ (8 * size)

/-- A context with an old value and mark written to the result registers. -/
def Ctx.amoResult (x : Ctx) (size : Nat) (d : Reg) (old : Nat) (bad : Bool) : Ctx :=
  if size = 16 then
    (x.setCell d.val ⟨BitVec.ofNat 64 old, .full, bad⟩).setCell (d.val + 1) ⟨BitVec.ofNat 64 (old / 2 ^ 64), .full, bad⟩
  else x.setCell d.val ⟨BitVec.ofNat 64 old, .full, bad⟩

/-- Orders of R50: 0 none, 1 acquire, 2 release, 3 both. -/
def amoAcq (r : Nat) : Bool := r % 2 == 1
/-- The order has a release. -/
def amoRel (r : Nat) : Bool := decide (2 ≤ r)

/-- Before an atomic is sent: the sector's dirty copy goes home and no copy stays; stores of the tile to it that are still to land go home too (R241). -/
def State.sendSector (s : State) (t pa : Nat) : State := (s.evictSector s.template t pa).pushStores t (· == pa / 16)

/-- The checks of an atomic's address: an aligned one in the tile store is ADDR whatever its window (R238). -/
def State.amoAccess (s : State) (ea size : Nat) : Acc :=
  match s.accessStop ea size with
  | some t => .stop t
  | none =>
    if kindOf s.cur.1 = .a ∧ ea / 2 ^ 36 = 0xF800000 then .stop (s.trap 0x05 0 (BitVec.ofNat 64 ea))
    else s.access ea size size true false

/-- An atomic (R238 to R241): r is its order and c its scope. -/
def State.runAmo (s : State) (i : Instr) (op : AmoOp) (size : Nat) (d a : Reg) (r c : Nat) (t : Bool) : State :=
  s.issue ⟨[], (a, t) :: amoSrcs op size d, [], amoDsts size d⟩
    (let ea := (s.val a).toNat
     let v := s.amoV size d
     let w := s.amoW size d
     let rel (s : State) (k : State → State) : State := if amoRel r then s.fenced true false c k else k s
     match s.amoAccess ea size with
     | .stop t => t
     | .tile _ _ => s.trap 0x05 0 (BitVec.ofNat 64 ea)
     | .localMem o =>
       rel s fun s =>
         let key := localKey s.cur.1 o
         let (b, bad) := s.dieRead key size
         let old := ofBytes b
         let s := if bad then s else match amoNew op size old v w with
           | some x => s.dieWrite key (toBytes x size)
           | none => s
         let s := if amoAcq r then s.acquire c else s
         (s.setSelf (s.self.amoResult size d old bad)).finish i
     | .virt _ pa attr =>
       match s.movesTo pa attr with
       | some (h, u) => s.depart h u
       | none =>
         match s.ntConflict pa with
         | some t => t
         | none =>
           rel s fun s =>
             if s.heldByOther (pa / 128) s.self.launch then s.parkMe (.guard (pa / 128) ea)
             else
               let s := if s.caches s.cur.1 attr then s.sendSector (tileOf s.cur.1) pa else s
               let (id, s) := s.fresh
               let dest : Dest := if size = 16 then .pair d else if d.val = 0 then .none else .reg d ⟨size, false⟩
               let s := s.addReq { s.newReq id (.amo op) dest pa size attr with
                 data := toBytes v size ++ toBytes w size, mask := [], acq := if amoAcq r then c + 1 else 0
                 remote := s.isRemote pa, va := ea }
               let x := s.self.pend d.val
               (s.setSelf (if size = 16 then x.pend (d.val + 1) else x)).finish i)

end Sys2Proof.Machine
end

