-- ==== Sys2Proof/Machine/MemInstr.lean ====
section
/-! DEFINITION. The meanings of loads, stores, queue transfers and atomics (R73, R74, R77, R78, R233, R239). -/

namespace Sys2Proof.Machine

/-- `ld.b` (R73). -/
def execLdB (d a : Reg) (t : Bool) (o : BitVec 10) (s : State) : Host.Outcome State Fault Refusal :=
  .next (s.runLoad (.ldB d a t o) d a t o ⟨1, true⟩)

/-- `ld.bu` (R73). -/
def execLdBu (d a : Reg) (t : Bool) (o : BitVec 10) (s : State) : Host.Outcome State Fault Refusal :=
  .next (s.runLoad (.ldBu d a t o) d a t o ⟨1, false⟩)

/-- `ld.h` (R73). -/
def execLdH (d a : Reg) (t : Bool) (o : BitVec 10) (s : State) : Host.Outcome State Fault Refusal :=
  .next (s.runLoad (.ldH d a t o) d a t o ⟨2, true⟩)

/-- `ld.hu` (R73). -/
def execLdHu (d a : Reg) (t : Bool) (o : BitVec 10) (s : State) : Host.Outcome State Fault Refusal :=
  .next (s.runLoad (.ldHu d a t o) d a t o ⟨2, false⟩)

/-- `ld.w` (R73). -/
def execLdW (d a : Reg) (t : Bool) (o : BitVec 10) (s : State) : Host.Outcome State Fault Refusal :=
  .next (s.runLoad (.ldW d a t o) d a t o ⟨4, true⟩)

/-- `ld.wu` (R73). -/
def execLdWu (d a : Reg) (t : Bool) (o : BitVec 10) (s : State) : Host.Outcome State Fault Refusal :=
  .next (s.runLoad (.ldWu d a t o) d a t o ⟨4, false⟩)

/-- `ld.d` (R73). -/
def execLdD (d a : Reg) (t : Bool) (o : BitVec 10) (s : State) : Host.Outcome State Fault Refusal :=
  .next (s.runLoad (.ldD d a t o) d a t o ⟨8, false⟩)

/-- `st.b` (R74). -/
def execStB (d a : Reg) (t : Bool) (o : BitVec 10) (s : State) : Host.Outcome State Fault Refusal :=
  .next (s.runStore (.stB d a t o) d a t o 1)

/-- `st.h` (R74). -/
def execStH (d a : Reg) (t : Bool) (o : BitVec 10) (s : State) : Host.Outcome State Fault Refusal :=
  .next (s.runStore (.stH d a t o) d a t o 2)

/-- `st.w` (R74). -/
def execStW (d a : Reg) (t : Bool) (o : BitVec 10) (s : State) : Host.Outcome State Fault Refusal :=
  .next (s.runStore (.stW d a t o) d a t o 4)

/-- `st.d` (R74). -/
def execStD (d a : Reg) (t : Bool) (o : BitVec 10) (s : State) : Host.Outcome State Fault Refusal :=
  .next (s.runStore (.stD d a t o) d a t o 8)

/-- `st.nt.b` (R233). -/
def execStNtB (d a : Reg) (t : Bool) (o : BitVec 10) (s : State) : Host.Outcome State Fault Refusal :=
  .next (s.runStoreNt (.stNtB d a t o) d a t o 1)

/-- `st.nt.h` (R233). -/
def execStNtH (d a : Reg) (t : Bool) (o : BitVec 10) (s : State) : Host.Outcome State Fault Refusal :=
  .next (s.runStoreNt (.stNtH d a t o) d a t o 2)

/-- `st.nt.w` (R233). -/
def execStNtW (d a : Reg) (t : Bool) (o : BitVec 10) (s : State) : Host.Outcome State Fault Refusal :=
  .next (s.runStoreNt (.stNtW d a t o) d a t o 4)

/-- `st.nt.d` (R233). -/
def execStNtD (d a : Reg) (t : Bool) (o : BitVec 10) (s : State) : Host.Outcome State Fault Refusal :=
  .next (s.runStoreNt (.stNtD d a t o) d a t o 8)

/-- `ldq.w` (R77). -/
def execLdqW (a : Reg) (t : Bool) (o : BitVec 10) (s : State) : Host.Outcome State Fault Refusal :=
  .next (s.runLdq (.ldqW a t o) a t o 4)

/-- `ldq.d` (R77). -/
def execLdqD (a : Reg) (t : Bool) (o : BitVec 10) (s : State) : Host.Outcome State Fault Refusal :=
  .next (s.runLdq (.ldqD a t o) a t o 8)

/-- `stq.w` (R78). -/
def execStqW (a : Reg) (t : Bool) (o : BitVec 10) (s : State) : Host.Outcome State Fault Refusal :=
  .next (s.runStq (.stqW a t o) a t o 4)

/-- `stq.d` (R78). -/
def execStqD (a : Reg) (t : Bool) (o : BitVec 10) (s : State) : Host.Outcome State Fault Refusal :=
  .next (s.runStq (.stqD a t o) a t o 8)

/-- The width code of an atomic as bytes (R50). -/
def amoSize (w : Fin 4) : Nat := 4 * 2 ^ w.val

/-- `amo.add` (R239). -/
def execAmoAdd (d a : Reg) (r c w : Fin 4) (t : Bool) (s : State) : Host.Outcome State Fault Refusal :=
  .next (s.runAmo (.amoAdd d a r c w t) .add (amoSize w) d a r.val c.val t)

/-- `amo.and` (R239). -/
def execAmoAnd (d a : Reg) (r c w : Fin 4) (t : Bool) (s : State) : Host.Outcome State Fault Refusal :=
  .next (s.runAmo (.amoAnd d a r c w t) .and (amoSize w) d a r.val c.val t)

/-- `amo.or` (R239). -/
def execAmoOr (d a : Reg) (r c w : Fin 4) (t : Bool) (s : State) : Host.Outcome State Fault Refusal :=
  .next (s.runAmo (.amoOr d a r c w t) .or (amoSize w) d a r.val c.val t)

/-- `amo.xor` (R239). -/
def execAmoXor (d a : Reg) (r c w : Fin 4) (t : Bool) (s : State) : Host.Outcome State Fault Refusal :=
  .next (s.runAmo (.amoXor d a r c w t) .xor (amoSize w) d a r.val c.val t)

/-- `amo.min` (R239). -/
def execAmoMin (d a : Reg) (r c w : Fin 4) (t : Bool) (s : State) : Host.Outcome State Fault Refusal :=
  .next (s.runAmo (.amoMin d a r c w t) .min (amoSize w) d a r.val c.val t)

/-- `amo.max` (R239). -/
def execAmoMax (d a : Reg) (r c w : Fin 4) (t : Bool) (s : State) : Host.Outcome State Fault Refusal :=
  .next (s.runAmo (.amoMax d a r c w t) .max (amoSize w) d a r.val c.val t)

/-- `amo.minu` (R239). -/
def execAmoMinu (d a : Reg) (r c w : Fin 4) (t : Bool) (s : State) : Host.Outcome State Fault Refusal :=
  .next (s.runAmo (.amoMinu d a r c w t) .minu (amoSize w) d a r.val c.val t)

/-- `amo.maxu` (R239). -/
def execAmoMaxu (d a : Reg) (r c w : Fin 4) (t : Bool) (s : State) : Host.Outcome State Fault Refusal :=
  .next (s.runAmo (.amoMaxu d a r c w t) .maxu (amoSize w) d a r.val c.val t)

/-- `amo.swap` (R239). -/
def execAmoSwap (d a : Reg) (r c w : Fin 4) (t : Bool) (s : State) : Host.Outcome State Fault Refusal :=
  .next (s.runAmo (.amoSwap d a r c w t) .swap (amoSize w) d a r.val c.val t)

/-- `amo.cas` (R239). -/
def execAmoCas (d a : Reg) (r c w : Fin 4) (t : Bool) (s : State) : Host.Outcome State Fault Refusal :=
  .next (s.runAmo (.amoCas d a r c w t) .cas (amoSize w) d a r.val c.val t)

/-- `amo.fadd.w` (R239). -/
def execAmoFadd (d a : Reg) (r c : Fin 4) (t : Bool) (s : State) : Host.Outcome State Fault Refusal :=
  .next (s.runAmo (.amoFadd d a r c t) .fadd 4 d a r.val c.val t)

end Sys2Proof.Machine
end

