-- ==== Sys2Proof/Machine/VecUse.lean ====
section
/-! DEFINITION. What vector instructions read and write, the order of the vector unit, and the advancing of a repetition's fields (R179, R180, R201, R202, R230). -/

namespace Sys2Proof.Machine

/-- Vector and predicate registers read, and the one written (R179). -/
structure VUse where
  vr : List Nat
  pr : List Nat
  vd : Option Nat
  pd : Option Nat
  deriving DecidableEq, Repr

/-- The governing predicate as a source; p0 is constant (R177). -/
def predSrc (p : PReg) : List Nat := if p = 0 then [] else [p.val]

/-- A destination counts as read where it is merged (R179). -/
def mergedIn (p : PReg) (d : Nat) : List Nat := if p = 0 then [] else [d]

/-- An instruction that writes a vector register by merging. -/
def useV (v : VReg) (srcs : List VReg) (p : PReg) : VUse := ⟨srcs.map (·.val) ++ mergedIn p v.val, predSrc p, some v.val, none⟩

/-- An instruction that always reads its destination. -/
def useAcc (v : VReg) (srcs : List VReg) (p : PReg) : VUse := ⟨v.val :: srcs.map (·.val), predSrc p, some v.val, none⟩

/-- An instruction that writes a predicate. -/
def useP (q : PReg) (vs : List VReg) (ps : List PReg) (p : PReg) : VUse :=
  ⟨vs.map (·.val), ps.flatMap predSrc ++ predSrc p ++ mergedIn p q.val, none, some q.val⟩

/-- An instruction that writes a scalar register. -/
def useS (vs : List VReg) (ps : List PReg) (p : PReg) : VUse := ⟨vs.map (·.val), ps.flatMap predSrc ++ predSrc p, none, none⟩

/-- The vector registers that an instruction uses; nothing for a scalar one. -/
def vuse : Instr → VUse
  | .vaddInt v a b _ p => useV v [a, b] p
  | .vsubInt v a b _ p => useV v [a, b] p
  | .vmulInt v a b _ p => useV v [a, b] p
  | .vminInt v a b _ p => useV v [a, b] p
  | .vmaxInt v a b _ p => useV v [a, b] p
  | .vabsInt v a _ p => useV v [a] p
  | .vnegInt v a _ p => useV v [a] p
  | .vdot v a b p => useAcc v [a, b] p
  | .vaddFp v a b _ p => useV v [a, b] p
  | .vsubFp v a b _ p => useV v [a, b] p
  | .vmulFp v a b _ p => useV v [a, b] p
  | .vfma v a b _ p => useAcc v [a, b] p
  | .vfms v a b _ p => useAcc v [a, b] p
  | .vfnma v a b _ p => useAcc v [a, b] p
  | .vdiv v a b _ p => useV v [a, b] p
  | .vsqrt v a _ p => useV v [a] p
  | .vminFp v a b _ p => useV v [a, b] p
  | .vmaxFp v a b _ p => useV v [a, b] p
  | .vabsFp v a _ p => useV v [a] p
  | .vnegFp v a _ p => useV v [a] p
  | .vclass v a _ p => useV v [a] p
  | .vand v a b _ p => useV v [a, b] p
  | .vor v a b _ p => useV v [a, b] p
  | .vxor v a b _ p => useV v [a, b] p
  | .vandn v a b _ p => useV v [a, b] p
  | .vshl v a b _ p => useV v [a, b] p
  | .vshr v a b _ p => useV v [a, b] p
  | .vsra v a b _ p => useV v [a, b] p
  | .vcmpEq q a b _ p => useP q [a, b] [] p
  | .vcmpNe q a b _ p => useP q [a, b] [] p
  | .vcmpLt q a b _ p => useP q [a, b] [] p
  | .vcmpLe q a b _ p => useP q [a, b] [] p
  | .vcmpGt q a b _ p => useP q [a, b] [] p
  | .vcmpGe q a b _ p => useP q [a, b] [] p
  | .vsel v a b _ p => ⟨[a.val, b.val], predSrc p, some v.val, none⟩
  | .vperm v a b _ p => useV v [a, b] p
  | .vslide v a b _ p => useV v [a, b] p
  | .vzip v a b _ p => useV v [a, b] p
  | .vunzip v a b _ p => useV v [a, b] p
  | .vredsum _ a _ p => useS [a] [] p
  | .vredmax _ a _ p => useS [a] [] p
  | .vredmin _ a _ p => useS [a] [] p
  | .vcvt v a _ p _ => useV v [a] p
  | .pand q r u _ p => useP q [] [r, u] p
  | .por q r u _ p => useP q [] [r, u] p
  | .pxor q r u _ p => useP q [] [r, u] p
  | .pnot q r _ p => useP q [] [r] p
  | .pset q _ p => useP q [] [] p
  | .pcnt _ r _ p => useS [] [r] p
  | .pfirst _ r _ p => useS [] [r] p
  | .vbcast v _ _ p => useV v [] p
  | .vext _ a _ _ => useS [a] [] 0
  | .vins v _ _ _ p => useAcc v [] p
  | _ => ⟨[], [], none, none⟩

/-- The fields of a body word that name vector or scalar registers, by mask bit (R201): scalar words by their uses, vector words by opcode and function. -/
def bodyMasks (w : Nat) : List Nat :=
  let op := w / 67108864
  let f := w % 32
  if op < 0x20 then [4, 2, 1].filter (fun m => (bodyScalars w).any (fun q => q.1 == m))
  else if op = 0x20 then (if f = 5 ∨ f = 6 then [4, 2] else [4, 2, 1])
  else if op = 0x21 then (if f = 7 ∨ 10 ≤ f then [4, 2] else [4, 2, 1])
  else if op = 0x23 then (if f < 8 then [2, 1] else [4, 2, 1])
  else if op = 0x25 ∨ op = 0x26 then [4, 2]
  else if op = 0x27 then (if f = 4 ∨ f = 5 then [4] else [])
  else if op = 0x29 then (if f = 0 then [4, 2] else [4, 2, 1])
  else [4, 2, 1]

/-- The place of a field in a word, and its size. -/
def fieldPlace (w m : Nat) : Nat × Nat :=
  if w / 67108864 < 0x20 then (if m = 4 then 2 ^ 20 else if m = 2 then 2 ^ 14 else 2 ^ 8, 64)
  else (if m = 4 then 2 ^ 21 else if m = 2 then 2 ^ 16 else 2 ^ 11, 32)

/-- A body word as pass k runs it (R201). -/
def Rep.passWord (r : Rep) (k w : Nat) : Nat :=
  (bodyMasks w).foldl (fun v m =>
    let (p, n) := fieldPlace w m
    let f := w / p % n
    v - f * p + r.field k m f * p) w

/-- The instruction of a body word in a pass. -/
def Rep.passInstr (r : Rep) (k w : Nat) : Option Instr :=
  match Sys2Proof.Dec.word .e (r.passWord k w) with
  | .ok i => some i
  | _ => none

/-- What the passes of a repetition use. -/
def Rep.uses (r : Rep) : List VUse :=
  (upTo (min r.n 32)).flatMap fun k => r.body.filterMap fun w => (r.passInstr k w).map vuse

/-- A repetition still hands on instances. -/
def Rep.running (r : Rep) : Bool := decide (r.pass < r.n)

/-- The vector work of a bank, in dispatch order. -/
def State.vwork (s : State) (k : Nat) : List VOp := s.vops.filter (fun o => ctxKey o.core o.ctx == k)

/-- The incomplete writers of a vector register of a bank: instructions, repetitions and partner loads (R179). -/
def State.vwriters (s : State) (k v : Nat) : List Nat :=
  ((s.vwork k).filter (fun o => (vuse o.instr).vd == some v)).map (·.id)
    ++ (s.reps.filter (fun r => r.key == k && r.uses.any (fun u => u.vd == some v))).map (·.id)
    ++ (s.reqs.filter (fun q => match q.dest with
        | .vec c i x _ => ctxKey c i == k && x == v
        | _ => false)).map (·.grp)

/-- A partner load that was issued before place `ord` has still to write a register of a bank. -/
def State.loadBefore (s : State) (k v ord : Nat) : Bool :=
  s.reqs.any (fun q => decide (q.grp < ord) && (match q.dest with
    | .vec c i x _ => ctxKey c i == k && x == v
    | _ => false))

/-- A partner load of group g may write its register: the readers and writers dispatched before it have started and completed (R230). -/
def State.bankReady (s : State) (k v g : Nat) : Bool :=
  !(s.vwork k).any (fun o => decide (o.ord < g) && ((vuse o.instr).vd == some v || (o.out.isNone && (vuse o.instr).vr.contains v)))
    && !s.reps.any (fun r => r.key == k && decide (r.id < g) && r.running && r.uses.any (fun u => u.vd == some v || u.vr.contains v))
    && !s.loadBefore k v g

/-- A scalar source of a pass is full and no earlier instance has still to write it (R202). -/
def State.passSource (s : State) (o : VOp) (before : List VOp) (r : Nat) : Bool :=
  decide (((s.ctx (ctxKey o.core o.ctx)).cell r).st = .full) && !before.any (fun q => r ≠ 0 && scalarDest q.instr == some r)

/-- An unstarted vector instruction or pass may start (R179, R182, R202): all before it have started, and the writers of what it reads have completed. -/
def State.mayStart (s : State) (o : VOp) : Bool :=
  let k := ctxKey o.core o.ctx
  let before := (s.vwork k).takeWhile (fun q => q.id ≠ o.id)
  let u := vuse o.instr
  o.out.isNone && agentOf o.core o.ctx (s.ctx k) == o.agent && (s.ctx k).stopped.isNone
    && before.all (fun q => q.out.isSome)
    && !s.reps.any (fun r => r.key == k && decide (r.id < o.ord) && r.running)
    && u.vr.all (fun v => !before.any (fun q => (vuse q.instr).vd == some v) && !s.loadBefore k v o.ord)
    && u.pr.all (fun p => !before.any (fun q => (vuse q.instr).pd == some p))
    && (!o.isPass || ((scalarSrcs o.instr).all (s.passSource o before)
        && (match scalarDest o.instr with
          | some d => decide (((s.ctx k).cell d).st ≠ .pending)
          | none => true)))

/-- The oldest unstarted vector work of the contexts of a core that may start (R182). -/
def State.startable (s : State) (core : Nat) : List VOp := s.vops.filter (fun o => o.core == core && s.mayStart o)

/-- The work that the vector unit of a core starts next: the steward's, else that of the highest class, in rotation after the last context of the class (R123, R182). -/
def State.vectorNext (s : State) (core : Nat) : Option VOp :=
  let l := s.startable core
  match l.find? (fun o => o.ctx == 8) with
  | some o => some o
  | none =>
    match l with
    | [] => none
    | o :: r =>
      let prio (o : VOp) : Nat := (s.ctx (ctxKey o.core o.ctx)).prio
      let q := r.foldl (fun m o => min m (prio o)) (prio o)
      let same := l.filter (fun o => prio o == q)
      let last := smGet 8 (s.core core).vlast q
      let after := same.filter (fun o => decide (last < o.ctx))
      (if after = [] then same else after).foldl (fun m o => match m with
        | none => some o
        | some p => if o.ctx < p.ctx then some o else m) none

/-- A started instruction may complete: earlier writers of its destination have (R179). -/
def State.mayComplete (s : State) (o : VOp) : Bool :=
  let k := ctxKey o.core o.ctx
  let before := (s.vwork k).takeWhile (fun q => q.id ≠ o.id)
  let u := vuse o.instr
  o.out.isSome
    && (match u.vd with
      | some v => !before.any (fun q => (vuse q.instr).vd == some v) && !s.loadBefore k v o.ord
      | none => true)
    && (match u.pd with
      | some p => !before.any (fun q => (vuse q.instr).pd == some p)
      | none => true)
    && (match scalarDest o.instr with
      | some d => !before.any (fun q => scalarDest q.instr == some d)
      | none => true)

/-- A context's free dispatch-ring entry (R186). -/
def State.ringRoom (s : State) (core : Nat) : Bool := decide ((s.core core).ring.length < 64)

/-- The context's vector queue has room (R181). -/
def State.vectorRoom (s : State) (core ctx : Nat) : Bool :=
  s.ringRoom core && decide (((s.vwork (ctxKey core ctx)).filter (fun o => !o.isPass && o.out.isNone)).length < 16)

/-- An entry put into a core's dispatch ring (R186), before those of its context that were dispatched after it: passes take their entries late (R202). -/
def State.ringPut (s : State) (core : Nat) (e : RingEntry) : State :=
  let before (q : RingEntry) : Bool := !(q.agent == e.agent && decide (0 < (q.seq + 65536 - e.seq) % 65536) && decide ((q.seq + 65536 - e.seq) % 65536 < 32768))
  let r := (s.core core).ring
  s.setCore core { s.core core with ring := r.takeWhile before ++ [e] ++ r.dropWhile before }

/-- The ring entry of a dispatch freed (R186). -/
def State.ringFree (s : State) (core agent seq : Nat) : State :=
  s.setCore core { s.core core with ring := (s.core core).ring.filter (fun e => !(e.agent == agent && e.seq == seq && e.fault.isNone)) }

/-- The late fault of a dispatch recorded in its entry (R186, R187). -/
def State.ringFault (s : State) (core agent seq : Nat) (l : Late) : State :=
  s.setCore core { s.core core with ring := (s.core core).ring.map (fun (e : RingEntry) =>
    if e.agent = agent ∧ e.seq = seq ∧ e.fault.isNone then { e with fault := some l } else e) }

/-- The running context's next dispatch: its number (R185) and the state with it taken. -/
def State.nextSeq (s : State) (n : Nat) : Nat × State :=
  (s.self.dseq, s.setSelf { s.self with dseq := (s.self.dseq + n) % 65536 })

/-- The ring entry of the running context's dispatch. -/
def State.ringEntry (s : State) (seq pass : Nat) (pc : Word) (w kind : Nat) : RingEntry :=
  { agent := s.agent, ctx := s.cur.2, name := s.self.name, tenant := s.self.tenant, seq := seq, pass := pass, pc := pc
    word := w, kind := kind, user := decide (s.self.priv = .user), fault := none, orphan := false }

end Sys2Proof.Machine
end

