-- ==== Sys2Proof/Machine/Complete.lean ====
section
/-! DEFINITION. Requests being performed: completions into registers, writes placed at their homes, page walks, and the events that end waits (R9, R12, R146, R212, R220, R224, R234, R239, R248, R260, R366, R394, R402, R422, R427). -/

namespace Sys2Proof.Machine

/-! ### Where results go -/

/-- The context in which an agent runs on this cube. -/
def State.ctxOfAgent (s : State) (agent : Nat) : Option Nat :=
  if 2 ^ 40 ≤ agent then some (ctxKey (agent - 2 ^ 40) 8)
  else (s.ctxs.find? (fun e => e.2.occ && e.2.uid == agent && e.2.park != some .away && e.1 % 16 != 8)).map (·.1)

/-- The stored image of an agent's thread. -/
def State.storedOf (s : State) (agent : Nat) : Option Stored := s.stored.find? (fun t => t.ctx.uid == agent)

/-- A result written into a thread's register, wherever the thread is: its context, its slot, or its relocation image (R9, R146, R376). -/
def State.writeThread (s : State) (agent r : Nat) (v : Word) (poison : Bool) : State :=
  match s.ctxOfAgent agent with
  | some k => s.setCtx k ((s.ctx k).setCell r ⟨v, .full, poison⟩)
  | none =>
    match s.storedOf agent with
    | none => s
    | some t =>
      let put (f : Stored → Stored) (s : State) : State := { s with stored := s.stored.map (fun u => if u = t then f u else u) }
      if 24 ≤ t.slot then put (fun u => { u with ctx := u.ctx.setCell r ⟨v, .full, poison⟩ }) s
      else
        let named := (s.slotState t.core t.slot r).isSome
        put (fun u => if named && u.reg == r then { u with ready := true } else u) (s.slotWrite t.core t.slot r v poison)

/-- A reserved queue entry filled (R77). -/
def State.fillEntry (s : State) (chain : Bool) (k id : Nat) (v : Word) (poison : Bool) : State :=
  let f (q : List QEnt) : List QEnt := q.map (fun e => if e.id = id && !e.filled then ⟨id, true, v, poison⟩ else e)
  if chain then s.setUpQ k (f (s.upQ k)) else s.setPinQ k (f (s.pinQ k))

/-- A vector bank. -/
def State.vbank (s : State) (k : Nat) : VBank := smGet VBank.zero s.vbanks k

/-- The state with a vector bank replaced. -/
def State.setVbank (s : State) (k : Nat) (b : VBank) : State := { s with vbanks := smPut VBank.zero s.vbanks k b }

/-- A vector register at allocation. -/
def VCell.zero : VCell := ⟨0, false⟩

/-- A vector register of a bank. -/
def VBank.cell (b : VBank) (v : Nat) : VCell := smGet VCell.zero b.v v

/-- A bank with a vector register replaced; the write gives it a parity that fits. -/
def VBank.setCell (b : VBank) (v : Nat) (c : VCell) : VBank := { b with v := smPut VCell.zero b.v v c, bad := smPut false b.bad v false }

/-- A vector register carries a poison mark, or fails its parity check, which counts as one (R407). -/
def VBank.marked (b : VBank) (v : Nat) : Bool := (b.cell v).poison || smGet false b.bad v

/-- The parts of one partner vector load, all sampled, written into the register at once: a poisoned part marks the whole register (R230, R232). -/
def State.vectorLand (s : State) (r : Req) (core ctx v : Nat) : State :=
  let parts := s.reqs.filter (fun q => q.grp == r.grp)
  let b := s.vbank (ctxKey core ctx)
  let old := toBytes (b.cell v).val.toNat 128
  let new := parts.foldl (fun bs q => match q.dest with
    | .vec _ _ _ off => overlay bs ((upTo q.data.length).map (fun i => (off + i, q.data.getD i 0)))
    | _ => bs) old
  let c : VCell := ⟨BitVec.ofNat 1024 (ofBytes new), parts.any (·.poison)⟩
  { s.setVbank (ctxKey core ctx) (b.setCell v c) with reqs := s.reqs.filter (fun q => q.grp ≠ r.grp) }

/-- A request removed. -/
def State.dropReq (s : State) (id : Nat) : State := { s with reqs := s.reqs.filter (fun q => q.id ≠ id) }

/-- A request replaced by its image. -/
def State.mapReq (s : State) (id : Nat) (f : Req → Req) : State :=
  { s with reqs := s.reqs.map (fun q => if q.id = id then f q else q) }

/-- A request with an identity. -/
def State.req (s : State) (id : Nat) : Option Req := s.reqs.find? (fun q => q.id == id)

/-- An acquiring atomic has completed: the acquire of its tile (R240). -/
def State.acquireFor (s : State) (r : Req) : State :=
  if 2 ≤ r.acq && decide (r.core < 256) && kindOf r.core == .a then s.acquireTile (tileOf r.core) else s

/-- A fault of one of a command's own accesses, remembered until the command ends; one that stops it goes before DATA (R284, R290). -/
def State.noteFault (s : State) (agent sub : Nat) : State :=
  { s with cmds := s.cmds.map (fun (c : Cmd) =>
      if agent = 2 ^ 50 + c.id && (c.fault.isNone || (sub != 5 && c.fault.any (fun l => l.sub == 5))) then { c with fault := some ⟨0x12, sub, 0⟩ } else c) }

/-- A store placed in a valid sector of the tile cache: done, or on its way home as the sector's write-back (R212, R237). -/
def State.landStore (s : State) (r : Req) : State :=
  let t := tileOf r.core
  let s := (s.claimLine { r with kind := .writeBack, dest := .none, acq := 0 } t r.pa r.launch).cacheWrite t r.pa r.data r.attr r.launch
  match (if r.through then (s.tile t).find r.pa else none) with
  | none => s.dropReq r.id
  | some c =>
    let i := sectorOf r.pa
    let (b, bad) := s.dieRead (c.key t (16 * i)) 16
    (s.setTile t ((s.tile t).mapLine c.line (fun c => { c with dirty := setBit c.dirty i false }))).mapReq r.id (fun q =>
      { q with kind := .writeBack, pa := r.pa / 16 * 16, size := 16, data := b, mask := upTo 16, poison := bad, tenant := attrTenant r.attr
               sent := false, since := 0, through := false })

/-- The result of a request delivered; the parts of a vector load gather first. -/
def State.deliver (s : State) (r : Req) (b : List Byte) (poison : Bool) : State :=
  match r.dest with
  | .vec core ctx v _ =>
    let s := s.mapReq r.id (fun q => { q with sampled := true, data := b, poison := poison })
    if s.reqs.any (fun q => q.grp == r.grp && !q.sampled) || !s.bankReady (ctxKey core ctx) v r.grp then s else s.vectorLand r core ctx v
  | .none => ((if poison && decide (2 ^ 50 ≤ r.agent) then s.noteFault r.agent 5 else s).dropReq r.id).acquireFor r
  | .reg d w => ((s.dropReq r.id).writeThread r.agent d.val (w.word (ofBytes b)) poison).acquireFor r
  | .pair d =>
    (((s.dropReq r.id).writeThread r.agent d.val (BitVec.ofNat 64 (ofBytes b)) poison).writeThread r.agent (d.val + 1)
      (BitVec.ofNat 64 (ofBytes (b.drop 8))) poison).acquireFor r
  | .queue chain k w => (s.dropReq r.id).fillEntry chain k r.id (w.word (ofBytes b)) poison
  | .ifill core line =>
    let (l, s) := if poison then s.fetchedBytes (List.replicate 8 ([], true)) else (b, s)
    (s.dropReq r.id).icacheInstall core line l

/-! ### Semaphores -/

/-- The key of semaphore k of a tile (R274). -/
def semKey (tile k : Nat) : Nat := 16 * tile + k

/-- A semaphore. -/
def State.sem (s : State) (key : Nat) : Sem := smGet Sem.zero s.sems key

/-- The state with a semaphore replaced. -/
def State.setSem (s : State) (key : Nat) (x : Sem) : State := { s with sems := smPut Sem.zero s.sems key x }

/-- The waiting order examined: the oldest waiter takes while the value allows (R276). -/
def State.settleSem (s : State) (key : Nat) : Nat → State
  | 0 => s
  | fuel + 1 =>
    let x := s.sem key
    match x.order with
    | [] => s
    | w :: r =>
      if w.n ≤ x.val then
        let y := { x with val := x.val - w.n, order := r, taken := if w.isCmd then x.taken else x.taken ++ [w.who] }
        let s := s.setSem key y
        let s := if w.isCmd then { s with cmds := s.cmds.map (fun (c : Cmd) => if c.id = w.who then { c with waited := 2 } else c) } else s
        s.settleSem key fuel
      else s

/-- The waiting order examined to its end. -/
def State.examineSem (s : State) (key : Nat) : State := s.settleSem key ((s.sem key).order.length + 1)

/-- An addition, saturating at 32 bits, and then the waiting order (R274, R277). -/
def State.addSem (s : State) (key n : Nat) : State :=
  (s.setSem key { s.sem key with val := min ((s.sem key).val + n) 0xFFFFFFFF }).examineSem key

/-- A waiter joins the order, and the order is examined (R276). -/
def State.joinSem (s : State) (key : Nat) (w : SemWait) : State :=
  (s.setSem key { s.sem key with order := (s.sem key).order ++ [w] }).examineSem key

/-- Waiters leave the orders that they stand in, and what is then the oldest waiter of such an order is examined (R276, R277). -/
def State.dropWaiters (s : State) (p : SemWait → Bool) : State :=
  (s.sems.filter (fun e => e.2.order.any p)).foldl (fun s e =>
    (s.setSem e.1 { s.sem e.1 with order := (s.sem e.1).order.filter (fun w => !p w) }).examineSem e.1) s

/-- A `sem.wait` of a context has been taken, and its instruction has not gone on yet. -/
def State.semTaken (s : State) (k : Nat) : Bool := s.sems.any (fun e => e.2.taken.contains k)

/-- A context's `sem.wait` leaves its waiting order, and issues again when the thread goes on (R276, R372). -/
def State.leaveSems (s : State) (k : Nat) : State :=
  let s := s.dropWaiters (fun w => !w.isCmd && w.who == k)
  let x := s.ctx k
  match x.park with
  | some (.sem _ _) => s.setCtx k { x with park := none }
  | _ => s

/-! ### Performing a request -/

/-- The overlay of a load: the bytes that its buffer lines held at issue (R234). -/
def Req.cover (r : Req) (b : List Byte) : List Byte := overlay b (r.mask.map (fun o => (o, r.data.getD o 0)))

/-- The write-back template of a request's tile. -/
def Req.back (r : Req) : Req := { r with kind := .writeBack, dest := .none, sampled := false, acq := 0 }

/-- A line that has arrived goes into the tile cache, and the load is answered (R212). -/
def State.installLine (s : State) (r : Req) (sectors : List (List Byte × Bool)) : State :=
  let t := tileOf r.core
  let line := r.pa / 128 * 128
  let keep := s.caches r.core r.attr && !s.heldByOther (r.pa / 128) r.launch
  let s := if keep then
      let s := s.allocLine r.back t r.pa r.attr
      (upTo 8).foldl (fun s i => match sectors[i]? with
        | some (b, bad) => if bad then s else s.fillSector t (line + 16 * i) b
        | none => s) s
    else s
  match (if keep then s.cacheHit t r.pa r.size else none) with
  | some (b, bad) => s.deliver r (r.cover b) bad
  | none =>
    let (b, bad) := sectors.getD (sectorOf r.pa) ([], false)
    s.deliver r (r.cover ((b.drop (r.pa % 16)).take r.size)) bad

/-- An atomic at its home: the old bytes, and whether the line holds uncorrectable data, when nothing is written; nothing at all while its line is held or a record is wanting (R239, R260, R402). -/
def State.homeAmo (s : State) (r : Req) (op : AmoOp) : Option ((List Byte × Bool) × State) :=
  let la := s.localAddr r.pa
  if s.heldByOther (r.pa / 128) r.launch then none
  else
    let ((b, bad), s) := s.readHome r.pa la r.size r.launch
    if bad || s.lineBad la != 0 then some ((b, true), s)
    else
      let old := ofBytes b
      let v := ofBytes (r.data.take r.size)
      let w := ofBytes (r.data.drop r.size)
      match amoNew op r.size old v w with
      | none => some ((b, false), s)
      | some x =>
        let nb := toBytes x r.size
        match s.placeWrite { line := r.pa / 128, la := la, bytes := (upTo r.size).map (fun o => (r.pa % 16 + o, nb.getD o 0))
                             bad := false, tenant := r.tenant, attr := r.attr, launch := r.launch } with
        | some s => some ((b, false), s)
        | none => none

/-- A write or atomic that went past the tile cache has been performed: no clean copy stays in its tile (R246). -/
def State.passed (s : State) (r : Req) : State :=
  if r.passes && decide (r.core < 256) && decide (r.agent < 2 ^ 50) then s.dropClean (tileOf r.core) r.pa else s

/-- An atomic performed at its home and delivered. -/
def State.performAmo (s : State) (r : Req) (op : AmoOp) : Option State :=
  (s.homeAmo r op).map (fun (x, s) => (s.passed r).deliver r x.1 x.2)

/-- The write of a request as its home sees it (R394). -/
def State.homeWrite (s : State) (r : Req) : HomeWrite :=
  { line := r.pa / 128, la := s.localAddr r.pa, bytes := r.mask.map (fun o => (r.pa % 16 + o, r.data.getD o 0))
    bad := r.poison, tenant := attrTenant r.attr, attr := r.attr, launch := r.launch }

/-- A write that its home turns away after 1 ms at a held line: not a write-back or a write-out (R260). -/
def Req.timesOut (r : Req) : Bool := r.passes && !r.nt

/-- The request leaves for another cube or for host memory (R248, R422, R448). -/
def State.sendRemoteTo (s : State) (r : Req) (home : Nat) : State :=
  let isWrite := match r.kind with
    | .store => true
    | .writeBack => true
    | _ => false
  let code := match r.kind with
    | .amo op => 16 + (match op with
      | .add => 0 | .and => 1 | .or => 2 | .xor => 3 | .min => 4 | .max => 5 | .minu => 6 | .maxu => 7 | .swap => 8
      | .cas => 9 | .fadd => 10)
    | .fill => 2
    | .storeFill => 3
    | _ => isWrite.toNat
  let a := { EvArg.zero with a := r.id, c := code, d := r.size, e := r.attr, w := BitVec.ofNat 64 r.pa, bytes := r.data,
                             words := [BitVec.ofNat 64 r.tenant, BitVec.ofNat 64 s.mapgen, BitVec.ofNat 64 r.poison.toNat,
                                       BitVec.ofNat 64 (packBits (fun _ => 1) 1 r.mask),
                                       BitVec.ofNat 64 r.timesOut.toNat] }
  let s := s.mapReq r.id (fun q => { q with sent := true })
  if hostWindow r.pa then s.sendOut .remoteRequest a else s.sendTo home (if isWrite then 2 else 0) .remoteRequest a

/-- The request leaves for the home that this cube's map gives. -/
def State.sendRemote (s : State) (r : Req) : State := s.sendRemoteTo r (s.homeCube r.pa)

/-- A request that has not left goes to the home that the map now gives (R426, R429). -/
def State.rehome (s : State) (r : Req) : Req :=
  if r.sent || r.kind == .status then r else { r with remote := s.isRemote r.pa }

/-- A register whose producer will not come: full, with its old value (R260). -/
def Ctx.unpend (x : Ctx) (r : Nat) : Ctx := if (x.cell r).st = .pending then x.setCell r { x.cell r with st := .full } else x

/-- A thread's write that its home on another cube has turned away: the thread traps GUARD at the instruction, which has written nothing (R260). DESIGN CHOICE, unsafe: log entry 63. -/
def State.guardTrap (s : State) (r : Req) : State :=
  match s.ctxOfAgent r.agent with
  | none => s.dropReq r.id
  | some k =>
    if (s.ctx k).ending then s.dropReq r.id
    else
    let x := match r.dest with
      | .reg d _ => (s.ctx k).unpend d.val
      | .pair d => ((s.ctx k).unpend d.val).unpend (d.val + 1)
      | _ => s.ctx k
    takeTrapAt (((s.dropReq r.id).setCtx k { x with entering := false }).leaveSems k) (k / 16) (k % 16) 0x14 0 (BitVec.ofNat 64 r.va) r.pc 0 false

/-- PRODUCER_COMPLETION: a request is performed and its result delivered (R9).
Argument: a, the request; b = 1, the answer of another cube or of the host, with its bytes and, bit by bit, the uncorrectable sectors in c. -/
def execProducerCompletion (s : State) : Host.Outcome State Fault Refusal :=
  let g := s.arg
  .next (
    match s.req g.a with
    | none => s
    | some q =>
      let r := s.rehome q
      if r.denied then s.guardTrap r
      else if r.sampled then s.deliver r r.data r.poison
      else if g.b = 1 then
        match r.kind with
        | .fill => s.installLine r ((upTo 8).map (fun i => ((g.bytes.drop (16 * i)).take 16, bitAt g.c i)))
        | .storeFill =>
          if bitAt g.c 0 then s.mapReq r.id (fun q => { q with kind := .store, sent := false })
          else
            let t := tileOf r.core
            ((s.allocLine r.back t r.pa r.attr).fillSector t r.pa g.bytes).landStore r
        | _ => (s.passed r).deliver r (r.cover g.bytes) (bitAt g.c 0)
      else if r.remote then s.sendRemote r
      else
        match r.kind with
        | .load =>
          let ((b, bad), s) := s.readHome r.pa (s.localAddr r.pa) r.size r.launch
          s.deliver r (r.cover b) bad
        | .fill =>
          let (ls, s) := s.readLine r.pa (s.localAddr r.pa) r.launch
          s.installLine r ls
        | .amo op => (s.performAmo r op).getD s
        | _ => s)

/-- A request that has met a held line or a full journal starts to wait (R260, R402). -/
def State.startWait (s : State) (r : Req) : State :=
  if r.since = 0 then s.mapReq r.id (fun q => { q with since := s.time + 1 }) else s

/-- WRITE_PLACEMENT: a write is placed at its home, or starts to wait (R394, R260, R402).
Argument: a, the request; b = 1, the line a takes the value that a discard gives back to it (R396). -/
def execWritePlacement (s : State) : Host.Outcome State Fault Refusal :=
  .next (
    if s.arg.b = 1 then
      match s.unrestored.find? (fun r => r.line == s.arg.a) with
      | none => s
      | some r => s.restoreOne r
    else
    match s.req s.arg.a with
    | none => s
    | some q =>
      let r := s.rehome q
      let t := tileOf r.core
      match r.kind with
      | .storeFill =>
        if !s.caches r.core r.attr then s.mapReq r.id (fun q => { q with kind := .store })
        else if (s.cacheHit t r.pa r.size).isSome then s.landStore r
        else if r.size = 16 then (s.allocLine r.back t r.pa r.attr).landStore r
        else if r.remote then s.sendRemote r
        else
          let ((b, bad), s) := s.readSector (r.pa / 128) (s.localAddr r.pa) r.launch
          if bad then s.mapReq r.id (fun q => { q with kind := .store })
          else ((s.allocLine r.back t r.pa r.attr).fillSector t r.pa b).landStore r
      | .amo _ => s.startWait r
      | _ =>
        if r.remote then s.sendRemote r
        else
          match s.placeWrite (s.homeWrite r) with
          | none => s.startWait r
          | some s => (s.passed r).dropReq r.id)

/-- REMOTE_WRITE_ACKNOWLEDGEMENT: a remote write has been placed (R422).
Argument: a, the request; c, 0 or the subcode under which the write was refused; a thread whose write was refused traps once it can (R260). -/
def execRemoteWriteAcknowledgement (s : State) : Host.Outcome State Fault Refusal :=
  .next (
    match s.req s.arg.a with
    | none => s
    | some r =>
      if s.arg.c ≠ 0 ∧ r.agent < 2 ^ 50 then s.mapReq r.id (fun q => { q with sampled := true, denied := true })
      else
      let s := s.passed r
      let s := if s.arg.c ≠ 0 then s.noteFault r.agent s.arg.c else s
      let mark (g : EvArg) : EvArg := if g.words.contains (BitVec.ofNat 64 r.id) then { g with c := 2 } else g
      let s : State := if s.arg.c ≠ 0 ∧ r.agent = 2 ^ 53 then { s with hostOps := s.hostOps.map mark } else s
      s.dropReq r.id)

/-- MOVED: the request is sent again, to the home that the answer names (R427).
Argument: a, the request; b, the home cube. -/
def execMoved (s : State) : Host.Outcome State Fault Refusal :=
  .next (
    match s.req s.arg.a with
    | none => s
    | some r =>
      if s.arg.b = s.cube then s.mapReq r.id (fun q => { q with remote := false, sent := false })
      else s.sendRemoteTo r s.arg.b)

/-- COMBINING_WRITE_OUT: a buffer line that has not been written for 4,096 cycles is written out (R234).
Argument: a, the core. -/
def execCombiningWriteOut (s : State) : Host.Outcome State Fault Refusal :=
  .next (
    match (s.ntLines s.arg.a).find? (fun l => decide (l.when_ + 4096 ≤ s.cycle)) with
    | some l => s.writeOut l
    | none => s)

/-- GUARD_WAIT_TIMEOUT: a thread that has waited 1 ms on a held line traps GUARD at its instruction (R260).
Argument: a, the context's key. -/
def execGuardWaitTimeout (s : State) : Host.Outcome State Fault Refusal :=
  let x := s.ctx s.arg.a
  .next (
    match x.park with
    | some (.guard _ va) => takeTrapAt s (s.arg.a / 16) (s.arg.a % 16) 0x14 0 (BitVec.ofNat 64 va) x.pc 0 false
    | _ => s)

/-- The draining intervals of a vault, with the records they hold: the first with most records. -/
def State.largestDrain (s : State) (v : Nat) : Option (Nat × Nat) :=
  let l := (upTo 16).filterMap (fun t =>
    if (s.ival (ivalKey t v)).st = .draining then
      some (t, ((s.jrecs v).filter (fun r => !r.guard && r.tenant == t)).length)
    else none)
  match l with
  | [] => none
  | x :: xs => some (xs.foldl (fun a b => if a.2 < b.2 then b else a) x)

/-- A tenant's interval abandoned on every vault (R399, R402). -/
def State.abortDrain (s : State) (t : Nat) : State :=
  let freed := (s.journal.filter (fun r => !r.guard && r.tenant == t)).length
  let k := (s.ival (ivalKey t 0)).k
  let s := (upTo 64).foldl (fun s v =>
    let i := s.ival (ivalKey t v)
    if i.st = .draining ∨ i.st = .recording then s.setIval (ivalKey t v) { i with st := .needsFull, prev := [], cur := [], done := false } else s) s
  { s with journal := s.journal.filter (fun r => r.guard || r.tenant != t) }.jwatchAll.raise 256 (StewEvent.msg t 0x11 k freed 0)

/-- JOURNAL_STALL_TIMEOUT: after a stall of 1 ms the draining interval with most records on the vault is aborted, and the writers go on (R402).
Argument: a, the vault. -/
def execJournalStallTimeout (s : State) : Host.Outcome State Fault Refusal :=
  .next (
    match s.largestDrain s.arg.a with
    | some (t, _) => { s.abortDrain t with stalls := smPut 0 s.stalls s.arg.a 0 }
    | none => s)

/-! ### Page walks -/

/-- The walker of a miss (R224). -/
def walkerOf (va : Nat) : Nat :=
  bits va 26 21 ^^^ bits va 32 27 ^^^ bits va 38 33 ^^^ bits va 44 39 ^^^ bits va 50 45 ^^^ bits va 55 51

/-- The walks that the walkers run: of each walker's misses the first 16 in arrival order (R224). -/
def State.walksRunning (s : State) : List Walk :=
  (s.walks.foldl (fun (acc : List Walk × List Nat) w =>
    let g := walkerOf w.va
    if (acc.2.filter (· == g)).length < 16 then (acc.1 ++ [w], g :: acc.2) else acc) ([], [])).1

/-- A removal has met the page of a walk while it was in progress (R367). -/
def Walk.hit (w : Walk) (size : Nat) : Bool := w.stale.any (fun a => a / size == w.va / size)

/-- The walks that a walk's leaf answers: its own, and others queued at its walker in the same large page (R224). -/
def Walk.answers (w : Walk) (size : Nat) (q : Walk) : Bool :=
  q.tenant == w.tenant && (q.va / 65536 == w.va / 65536
    || (decide (65536 < size) && walkerOf q.va == walkerOf w.va && q.va / size == w.va / size && !q.hit size))

/-- A leaf installed in every translation cache that a walk answers (R224). -/
def State.installWalk (s : State) (e : TlbEntry) (q : Walk) : State := q.tlbs.foldl (fun s u => s.tlbInstall u e) s

/-- The contexts that wait for a failed walk get its fault (R224, R366). -/
def State.failWalk (s : State) (w : Walk) (sub : Nat) : State :=
  w.waiters.foldl (fun s k =>
    let x := s.ctx k
    if x.park = some (.walk w.tenant (w.va / 65536)) then s.setCtx k { x with xfault := some (w.va / 65536, sub) } else s) s

/-- PAGE_WALK: a walk ends with a leaf or a fault; a stale one is made again (R220, R224, R366, R367).
Argument: a, the tenant; b, the page; words, the entries that other cubes have sent, address and value in turn. -/
def execPageWalk (s : State) : Host.Outcome State Fault Refusal :=
  let g := s.arg
  .next (
    match s.walks.find? (fun w => w.tenant == g.a && w.va / 65536 == g.b) with
    | none => s
    | some w =>
      let upd (f : Walk → Walk) (s : State) : State := { s with walks := s.walks.map (fun q => if q = w then f q else q) }
      let again : State := upd (fun q => { q with stale := [], asked := false }) s
      match s.walk w.tenant w.va (farPairs g.words) with
      | .wait pa => (upd (fun q => { q with asked := true }) s).sendTo (s.homeCube pa) 0 .remoteRequest { EvArg.zero with d := 8, w := BitVec.ofNat 64 pa }
      | .fault sub => if w.hit 65536 then again else { (s.logWalk w.tenant w.va (farPairs g.words)).failWalk w sub with walks := s.walks.filter (fun q => q ≠ w) }
      | .leaf pa size attr =>
        if w.hit size then again
        else
          let e : TlbEntry := { tenant := w.tenant, page := w.va / size * size, size := size, pa := pa / size * size, attr := attr }
          let done := s.walks.filter (w.answers size)
          let s := done.foldl (fun s q => s.installWalk e q) (s.logWalk w.tenant w.va (farPairs g.words))
          { s with walks := s.walks.filter (fun q => !w.answers size q) })

end Sys2Proof.Machine
end

