-- ==== Sys2Proof/Machine/Groups.lean ====
section
/-! DEFINITION. Groups, barriers and the straggler record (R150 to R157, R432 to R434). -/

namespace Sys2Proof.Machine

/-- The group of a handle of a tenant, once it is live. -/
def State.group (s : State) (tenant handle : Nat) : Option Group :=
  s.groups.find? (fun g => g.tenant == tenant && g.handle == handle && g.live)

/-- The group of a handle of a tenant, live or still being created (R432). -/
def State.anyGroup (s : State) (tenant handle : Nat) : Option Group :=
  s.groups.find? (fun g => g.tenant == tenant && g.handle == handle)

/-- The state with a group replaced by its image. -/
def State.mapGroup (s : State) (tenant handle : Nat) (f : Group → Group) : State :=
  { s with groups := s.groups.map (fun g => if g.tenant = tenant ∧ g.handle = handle then f g else g) }

/-- A group's multi-cube form (R432). -/
def Group.multi (g : Group) : Bool := g.cubes != []

/-- The scope of a group's barriers (R153). -/
def Group.scope (g : Group) : Nat := if g.multi then 2 else 1

/-- A thread's membership. -/
def Group.member (g : Group) (uid : Nat) : Option Member := g.members.find? (fun m => m.who == uid)

/-- The thread has arrived in the open generation, or joined while it was open (R152, R153). -/
def Group.waits (g : Group) (m : Member) : Bool :=
  decide (g.gen < m.since) || smGet 0 g.arrived m.rank != 0

/-- Every expected local member has arrived in the open generation (R152). -/
def Group.complete (g : Group) : Bool :=
  g.opened.isSome && g.members.all (fun m => decide (g.gen < m.since) || smGet 0 g.arrived m.rank != 0)

/-- A recorded offset saturates (R155). -/
def offsetCode (t : Nat) : Nat := min t 0xFFFFFFFE + 1

/-- The code of a member that left (R155). -/
def leftCode : Nat := 2 ^ 32

/-- A rank's arrival in the open generation, or its opening (R152). -/
def Group.arrive (g : Group) (rank now : Nat) (cut : Bool) : Group :=
  match g.opened with
  | none => { g with opened := some now, cut := cut, arrived := smPut 0 [] rank (offsetCode 0) }
  | some t0 => { g with arrived := smPut 0 g.arrived rank (offsetCode (now - t0)) }

/-- The generation is released with an instance (R152, R155). -/
def Group.released (g : Group) (offs : SMap Nat) : Group :=
  { g with gen := g.gen + 1, opened := none, cut := false, arrived := [], cubesIn := []
           cutBase := 0, cutShare := 0, cutReqs := [], cutK := 0, cutStat := 0, cutPhase := 0, cutAcks := []
           record := (⟨g.gen, offs.filter (fun o => decide (o.1 < 256))⟩ :: g.record).take 16 }

/-- A single-cube generation whose last expected member has arrived is released at once; cut generations and multi-cube groups wait for their events (R152, R398, R434). -/
def Group.settle (g : Group) : Group := if g.complete && !g.cut && !g.multi then g.released g.arrived else g

/-- A sorted insertion. -/
def insertSorted (x : Nat) : List Nat → List Nat
  | [] => [x]
  | y :: ys => if x ≤ y then x :: y :: ys else y :: insertSorted x ys

/-- A list sorted upward. -/
def sortNats : List Nat → List Nat
  | [] => []
  | x :: xs => insertSorted x (sortNats xs)

/-- The lower median of an instance's offsets, members that left excluded (R157). -/
def Crossing.median (c : Crossing) : Nat :=
  let l := sortNats ((c.offs.map (·.2)).filter (· ≠ leftCode))
  l.getD ((l.length - 1) / 2) 0

/-- A rank lags in an instance (R157). -/
def Crossing.lags (c : Crossing) (t rank : Nat) : Bool :=
  let o := smGet 0 c.offs rank
  o != 0 && o != leftCode && decide (c.median + t < o)

/-- The number of the last M instances, from an age on, in which a rank lagged (R157). -/
def Group.lagCount (g : Group) (age rank : Nat) : Nat :=
  (((g.record.drop age).take g.m).filter (fun c => c.lags g.t rank)).length

/-- The rank is flagged (R157). -/
def Group.flagged (g : Group) (age rank : Nat) : Bool := decide (g.l ≤ g.lagCount age rank)

/-- `gstg`'s value (R156). -/
def Group.query (g : Group) (kind rank age : Nat) : Word :=
  match g.record[age]? with
  | none => BitVec.allOnes 64
  | some c =>
    let o := smGet 0 c.offs rank
    if kind = 1 then BitVec.ofNat 64 c.gen
    else if o = 0 then BitVec.allOnes 64
    else if kind = 0 then BitVec.ofNat 64 (o - 1)
    else BitVec.ofNat 64 ((g.flagged age rank).toNat + min (g.lagCount age rank) 15 * 16)

/-- The lowest free rank (R151). -/
def Group.freeRank (g : Group) : Nat :=
  (firstFrom (fun r => !g.members.any (fun m => m.rank == r)) 0 (g.members.length + 1)).getD g.members.length

/-- A thread joins: it is expected from the next generation on when one is open (R151, R152). -/
def Group.join (g : Group) (uid : Nat) : Group :=
  { g with members := g.members ++ [⟨g.freeRank, uid, if g.opened.isSome then g.gen + 1 else g.gen⟩] }

/-- A thread leaves; an expected member that has not arrived counts as arrived (R152). -/
def Group.leave (g : Group) (uid : Nat) : Group :=
  match g.member uid with
  | none => g
  | some m =>
    let mark := g.opened.isSome && decide (m.since ≤ g.gen) && smGet 0 g.arrived m.rank == 0
    ({ g with members := g.members.filter (fun q => q.who ≠ uid)
              arrived := if mark then smPut 0 g.arrived m.rank leftCode else g.arrived }).settle

/-- A thread leaves every group (R119). -/
def State.leaveGroups (s : State) (uid : Nat) : State := { s with groups := s.groups.map (fun g => g.leave uid) }

/-- The handle in a register names a group that the thread is a member of (R150). -/
def State.groupOf (s : State) (v : Word) : Option Group :=
  if v.toNat / 2 ^ 32 ≠ 0 then none else s.group s.self.tenant v.toNat

/-- The membership of the running thread. -/
def State.memberOf (s : State) (v : Word) : Option (Group × Member) :=
  match s.groupOf v with
  | none => none
  | some g => (g.member s.agent).map (fun m => (g, m))

/-- `gjoin` (R151). -/
def execGjoin (d a : Reg) (t : Bool) (s : State) : Host.Outcome State Fault Refusal :=
  let i : Instr := .gjoin d a t
  let u : Use := ⟨[(a, t)], [], [d], []⟩
  let v := s.val a
  .next (s.issueVal i u [a] (decide (v.toNat / 2 ^ 32 ≠ 0))
    (let s := s.popAll u.srcs
     match s.groupOf v with
     | none => (s.later d 6).finish i
     | some g =>
       if (g.member s.agent).isSome ∨ 4 ≤ s.self.groups.length then (s.later d 6).finish i
       else
         let s := s.mapGroup g.tenant g.handle (fun g => g.join s.agent)
         let s := s.setSelf { s.self with groups := s.self.groups ++ [g.handle] }
         (s.later d 0).finish i))

/-- `gleave` (R151). -/
def execGleave (d a : Reg) (t : Bool) (s : State) : Host.Outcome State Fault Refusal :=
  let i : Instr := .gleave d a t
  let u : Use := ⟨[(a, t)], [], [d], []⟩
  let v := s.val a
  .next (s.issueVal i u [a] (decide (v.toNat / 2 ^ 32 ≠ 0))
    (let s := s.popAll u.srcs
     match s.memberOf v with
     | none => (s.later d 6).finish i
     | some (g, _) =>
       let s := s.mapGroup g.tenant g.handle (fun g => g.leave s.agent)
       let s := s.setSelf { s.self with groups := s.self.groups.filter (fun h => h ≠ g.handle) }
       (s.later d 0).finish i))

/-- The running thread's arrival in a group's generation: a generation opened the other way refuses it (R397). -/
def State.arriveIn (s : State) (g : Group) (m : Member) (cut : Bool) : State :=
  s.mapGroup g.tenant g.handle (fun g => (g.arrive m.rank s.time cut).settle)

/-- The wrong kind of generation is open (R397). -/
def Group.refuses (g : Group) (cut : Bool) : Bool := g.opened.isSome && g.cut != cut

/-- `gbar` (R153): the release, the arrival, the wait for the release of the generation, and the acquire.
The scratch words [5, g, h] say that the thread has arrived in generation g of group h, and [6] that the group has been dissolved (R369). -/
def execGbar (a : Reg) (t : Bool) (s : State) : Host.Outcome State Fault Refusal :=
  let i : Instr := .gbar a t
  let u : Use := ⟨[(a, t)], [], [], []⟩
  let v := s.val a
  .next (
    match s.self.memo with
    | [6] => (s.popAll u.srcs).finish i
    | [5, g, _] =>
      (match s.groupOf v with
      | some q => if g < q.gen then (((s.popAll u.srcs).acquire q.scope).finish i) else s.parkMe (.gen s.self.tenant v.toNat g)
      | none => (s.popAll u.srcs).finish i)
    | _ =>
      s.issueVal i u [a] (s.memberOf v).isNone
        (match s.memberOf v with
        | none => s
        | some (g, m) =>
          if g.refuses false then s.trapC (illegalValue i)
          else if g.waits m then s.parkMe (.gen g.tenant g.handle g.gen)
          else s.fenced true false g.scope fun s =>
            let s := s.setSelf { s.self with memo := [5, g.gen, g.handle] }
            (s.arriveIn g m false).parkMe (.gen g.tenant g.handle g.gen)))

/-- `garr` (R153). -/
def execGarr (d a : Reg) (t : Bool) (s : State) : Host.Outcome State Fault Refusal :=
  let i : Instr := .garr d a t
  let u : Use := ⟨[(a, t)], [], [d], []⟩
  let v := s.val a
  .next (s.issueVal i u [a] (s.memberOf v).isNone
    (match s.memberOf v with
    | none => s
    | some (g, m) =>
      if g.refuses false then s.trapC (illegalValue i)
      else if g.waits m then s.parkMe (.gen g.tenant g.handle g.gen)
      else s.fenced true false g.scope fun s =>
        (((s.popAll u.srcs).arriveIn g m false).later d (BitVec.ofNat 64 g.gen)).finish i))

/-- `gwait` (R153). -/
def execGwait (a b : Reg) (t v : Bool) (s : State) : Host.Outcome State Fault Refusal :=
  let i : Instr := .gwait a b t v
  let u : Use := ⟨[(a, t), (b, v)], [], [], []⟩
  let h := s.val a
  .next (if s.self.memo = [6] then (s.popAll u.srcs).finish i else s.issueVal i u [a] (s.memberOf h).isNone
    (match s.memberOf h with
    | none => s
    | some (g, _) =>
      if (s.val b).toNat < g.gen then (((s.popAll u.srcs).acquire g.scope).finish i)
      else s.parkMe (.gen g.tenant g.handle (s.val b).toNat)))

/-- `gsize` (R154). -/
def execGsize (d a : Reg) (t : Bool) (s : State) : Host.Outcome State Fault Refusal :=
  let i : Instr := .gsize d a t
  let u : Use := ⟨[(a, t)], [], [d], []⟩
  let v := s.val a
  .next (s.issueVal i u [a] (s.groupOf v).isNone
    (match s.groupOf v with
    | none => s
    | some g => s.retire i u d (BitVec.ofNat 64 (if g.multi then g.cubes.length else g.members.length))))

/-- `grank` (R154). -/
def execGrank (d a : Reg) (t : Bool) (s : State) : Host.Outcome State Fault Refusal :=
  let i : Instr := .grank d a t
  let u : Use := ⟨[(a, t)], [], [d], []⟩
  let v := s.val a
  .next (s.issueVal i u [a] (s.memberOf v).isNone
    (match s.memberOf v with
    | none => s
    | some (g, m) => s.retire i u d (BitVec.ofNat 64 (if g.multi then g.rank else m.rank))))

/-- The operand of `gstg` breaks a rule of its table (R156). -/
def gstgBad (v : Nat) : Bool :=
  v / 2 ^ 34 != 0 || bits v 33 32 == 3 || bits v 31 28 != 0 || bits v 15 4 != 0

/-- `gstg` (R156). -/
def execGstg (d a b : Reg) (t v : Bool) (s : State) : Host.Outcome State Fault Refusal :=
  let i : Instr := .gstg d a b t v
  let u : Use := ⟨[(a, t), (b, v)], [], [d], []⟩
  let h := s.val a
  let q := (s.val b).toNat
  .next (s.issueVals i u [([a], (s.memberOf h).isNone), ([b], gstgBad q)]
    (match s.memberOf h with
    | none => s
    | some (g, _) =>
      ((s.popAll u.srcs).later d (g.query (bits q 33 32) (bits q 27 16) (q % 16))).finish i))

/-! ### Groups across cubes -/

/-- The ranks that the topmost node of a cube's rank covers: from the rank to before this bound (R433). -/
def nodeEnd (rank n : Nat) : Nat :=
  if rank = 0 then n else min n (rank + 2 ^ ((firstFrom (fun i => bitAt rank i) 0 14).getD 0))

/-- The rank that hosts the parent of the topmost node (R433). -/
def parentRank (rank : Nat) : Nat := rank - 2 ^ ((firstFrom (fun i => bitAt rank i) 0 14).getD 0)

/-- The ranks whose topmost nodes send to a rank's nodes (R433). -/
def childRanks (rank n : Nat) : List Nat :=
  ((upTo 14).map (fun l => rank + 2 ^ l)).filter (fun r => decide (r < nodeEnd rank n) && decide (parentRank r = rank))

/-- A multi-cube group's arrival that is due on this cube: its local members have arrived, or it has none (R434). -/
def Group.cubeDue (g : Group) : Bool :=
  g.multi && g.live && smGet 0 g.cubesIn g.rank == 0 && (g.complete || g.members.all (fun m => decide (g.gen < m.since)))

/-- Every rank below this cube's topmost node has arrived. -/
def Group.nodeFull (g : Group) : Bool :=
  (upTo (nodeEnd g.rank g.cubes.length - g.rank)).all (fun i => smGet 0 g.cubesIn (g.rank + i) != 0)

/-- The straggler instance of a multi-cube generation: arrival times less the first (R155, R434). -/
def Group.cubeOffsets (g : Group) : SMap Nat :=
  let first := match g.cubesIn with
    | [] => 0
    | x :: xs => xs.foldl (fun a b => min a b.2) x.2
  g.cubesIn.map (fun e => (e.1, offsetCode (e.2 - first)))

/-- The words that carry arrival times or offsets by rank. -/
def rankWords (l : SMap Nat) : List Word := l.flatMap (fun e => [BitVec.ofNat 64 e.1, BitVec.ofNat 64 e.2])

/-- Pairs of words read back. -/
def wordRanks : List Word → List (Nat × Nat)
  | a :: b :: r => (a.toNat, b.toNat) :: wordRanks r
  | _ => []

/-- The group's node passes a full set on: up the tree, or from the root as a release (R434). -/
def State.nodeForward (s : State) (g : Group) : State :=
  if !g.nodeFull || g.rank = 0 then s
  else s.sendTo (g.cubes.getD (parentRank g.rank) 0) 3 .cubeArrival { EvArg.zero with a := g.tenant, b := g.handle, c := g.cut.toNat, d := g.gen, e := g.cutShare, w := BitVec.ofNat 64 g.cutBase,
                                                                                            words := rankWords g.cubesIn }

/-- A launch that names a multi-cube group counts as a local member that has not arrived, from its acceptance until its threads exist (R474). -/
def State.launchHolds (s : State) (g : Group) : Bool :=
  s.launches.any (fun l => l.tenant == g.tenant && l.lpb.getD 6 0 % 2 ^ 32 == g.handle && (match l.st with
    | .received => true
    | .waiting => true
    | .placing => true
    | .running => s.ctrs.any (fun c => c.2.pending.any (fun p => p.launch == l.id))
    | _ => false))

/-- CUBE_ARRIVAL: the cube's own arrival, or one that comes up the tree (R434).
Argument: a, the tenant; b, the handle; words, ranks and times from another cube, empty for the own arrival; c = 1, of a cut generation, with the base in w and the share in e. DESIGN CHOICE, unsafe: log entry 38. -/
def execCubeArrival (s : State) : Host.Outcome State Fault Refusal :=
  let h := s.arg
  .next (
    match s.group h.a h.b with
    | none => s
    | some g =>
      let g' := match h.words with
        | [] => if g.cubeDue && !s.launchHolds g then
            let last := (g.arrived.filter (fun a => a.2 ≠ leftCode)).foldl (fun m a => max m (a.2 - 1)) 0
            { g with cubesIn := smPut 0 g.cubesIn g.rank ((g.opened.getD s.time) + last + 1), opened := some (g.opened.getD s.time) }
          else g
        | ws =>
          let g := { g with cubesIn := (wordRanks ws).foldl (fun m e => smPut 0 m e.1 e.2) g.cubesIn }
          if h.c = 1 ∧ !g.cut then { g with cut := true, cutBase := h.w.toNat, cutShare := h.e } else g
      (s.mapGroup h.a h.b (fun _ => g')).nodeForward g')

/-- CUBE_RELEASE: the root releases, or a release comes down the tree; the local members are released (R434).
Argument: a, the tenant; b, the handle; words, ranks and offsets from the parent, empty at the root; e, the result of a cut generation (R397). -/
def execCubeRelease (s : State) : Host.Outcome State Fault Refusal :=
  let h := s.arg
  .next (
    match s.group h.a h.b with
    | none => s
    | some g =>
      if h.words = [] ∧ !(g.rank = 0 && g.nodeFull && (!g.cut || g.cutPhase == 6)) then s
      else
        let offs := match h.words with
          | [] => g.cubeOffsets
          | ws => (wordRanks ws).foldl (fun m e => smPut 0 m e.1 e.2) []
        let res := if h.words = [] then g.cutK + g.cutStat * 2 ^ 32 else h.e
        let s := g.cutReqs.foldl (fun s id => s.answer id (BitVec.ofNat 64 res)) s
        let s := s.mapGroup h.a h.b (fun g => g.released offs)
        (childRanks g.rank g.cubes.length).foldl (fun s r =>
          s.sendTo (g.cubes.getD r 0) 3 .cubeRelease { EvArg.zero with a := h.a, b := h.b, d := g.gen, e := res, words := rankWords offs }) s)

end Sys2Proof.Machine
end

