-- ==== Sys2Proof/Machine/Array.lean ====
section
/-! DEFINITION. The shape of a matrix array: retired cells, maps and sizes; and parcels' minimums (R161, R318). -/

namespace Sys2Proof.Machine

/-- A tile's matrix array. -/
def State.array (s : State) (t : Nat) : ArraySt := smGet ArraySt.zero s.arrays t

/-- The state with an array replaced. -/
def State.setArray (s : State) (t : Nat) (a : ArraySt) : State := { s with arrays := smPut ArraySt.zero s.arrays t a }

/-- The good physical indices of a dimension, in ascending order (R318). -/
def goodOf (retired : List Nat) : List Nat := (upTo 66).filter (fun i => !retired.contains i)

/-- The size of a dimension with g good indices (R318). -/
def fitSize (g : Nat) : Nat := if 64 ≤ g then 64 else if 60 ≤ g then 60 else if 56 ≤ g then 56 else if 48 ≤ g then 48 else if 32 ≤ g then 32 else 0

/-- The size of a dimension with a retired set. -/
def dimSize (retired : List Nat) : Nat := fitSize (goodOf retired).length

/-- The map of a dimension: the physical index of each logical one (R318). -/
def dimMap (retired : List Nat) : List Nat := (goodOf retired).take (dimSize retired)

/-- A retired array reads 0 in both fields (R318). -/
def ArraySt.rows (a : ArraySt) : Nat := if dimSize a.retCols = 0 then 0 else dimSize a.retRows
/-- Logical columns. -/
def ArraySt.cols (a : ArraySt) : Nat := if dimSize a.retRows = 0 then 0 else dimSize a.retCols

/-- The smallest size that satisfies a minimum code (R161). -/
def minSize (code : Nat) : Nat := match code with
  | 0 => 0
  | 1 => 32
  | 2 => 48
  | 3 => 56
  | 4 => 60
  | _ => 64

/-- A tile meets a parcel's minimums (R161). -/
def State.meets (s : State) (t : Nat) (p : Word) : Bool :=
  decide (minSize (bits p.toNat 29 27) ≤ (s.array t).cols) && decide (minSize (bits p.toNat 26 24) ≤ (s.array t).rows)

/-- The array passes to the longest waiting thread, which clears the status bits, or to none (R294); `ctxOf` finds a thread's context. -/
def ArraySt.release (a : ArraySt) (ctxOf : Nat → Nat) : ArraySt :=
  match a.waiting with
  | [] => { a with owner := none }
  | u :: r => { a with owner := some (u, ctxOf u), waiting := r, sticky := 0 }

/-- A thread leaves the array: it owns it no more and waits for it no more (R119, R295). -/
def ArraySt.leave (a : ArraySt) (ctxOf : Nat → Nat) (u : Nat) : ArraySt :=
  let a := { a with waiting := a.waiting.filter (· ≠ u) }
  if a.owner.any (fun o => o.1 == u) then a.release ctxOf else a

/-- The context number of an agent on this cube. -/
def State.ctxNoOf (s : State) (u : Nat) : Nat := ((s.ctxOfAgent u).getD 0) % 16

/-- The matrix array of an E-core without a thread as its owner or waiter. -/
def State.leaveArray (s : State) (core u : Nat) : State :=
  if kindOf core = .e then s.setArray (tileOf core) ((s.array (tileOf core)).leave s.ctxNoOf u) else s

/-- The thread owns the array of its core's tile (R293). -/
def State.ownsArray (s : State) (core u : Nat) : Bool := kindOf core == .e && (s.array (tileOf core)).owner.any (fun o => o.1 == u)

/-- The shape word of rows and columns (R19, R296). -/
def ArraySt.shapeWord (a : ArraySt) : Nat := a.rows + a.cols * 256

end Sys2Proof.Machine
end

