-- ==== Sys2Proof/Machine/Units.lean ====
section
/-! DEFINITION. Memory accesses that the cube's own units and engines make through a tenant's translation (R174, R175, R220 to R222, R290, R374, R380). -/

namespace Sys2Proof.Machine

/-- The end of a unit's translation. -/
inductive Xl where
  | ok (pa attr : Nat)
  | fault (cause sub : Nat)
  /-- An entry on another cube has not arrived. -/
  | wait (pa : Nat)
  deriving DecidableEq, Repr

/-- A virtual address translated and checked for a tenant, with the entries that the event has brought from other cubes (R220, R222). -/
def State.xlate (s : State) (tenant va : Nat) (user store : Bool) : Xl :=
  if va / 2 ^ 56 ≠ 0 then .fault 0x05 0
  else
    match s.walk tenant va (farPairs s.arg.far) with
    | .wait pa => .wait pa
    | .fault sub => .fault 0x06 sub
    | .leaf pa _ attr =>
      match s.pageStop tenant pa attr user store false with
      | some (cause, sub) => .fault cause sub
      | none => .ok pa attr

/-- A translation through a unit's cache, else by a walk (R223). -/
def State.cachedXlate (s : State) (u tenant va : Nat) (user store : Bool) : Xl :=
  match s.tlbHit u tenant va with
  | none => s.xlate tenant va user store
  | some e =>
    let pa := e.pa + va % e.size
    match s.pageStop tenant pa e.attr user store false with
    | some (cause, sub) => .fault cause sub
    | none => .ok pa e.attr

/-- A translation that a unit has made is installed in the cache it goes through (R223, R224). -/
def State.learn (s : State) (u tenant va : Nat) : State :=
  if (s.tlbHit u tenant va).isSome then s
  else
    match s.walk tenant va (farPairs s.arg.far) with
    | .leaf pa size attr => (s.logWalk tenant va (farPairs s.arg.far)).tlbInstall u { tenant := tenant, page := va / size * size, size := size, pa := pa / size * size, attr := attr }
    | _ => s

/-- A table entry or data asked of another cube: the event runs again when the answer has come. DESIGN CHOICE, safe: log entry 15. -/
def State.ask (s : State) (pa n : Nat) : State :=
  { s with asking := some (s.homeCube pa) }.sendTo (s.homeCube pa) 0 .remoteRequest { EvArg.zero with d := n, w := BitVec.ofNat 64 pa }

/-- The indices of a list. -/
def indices {α : Type} (l : List α) : List Nat := upTo l.length

/-- Bytes cut at sector boundaries: the physical address of each piece and its bytes. -/
def pieces (pa : Nat) : Nat → List Byte → List (Nat × List Byte)
  | 0, _ => []
  | fuel + 1, b =>
    match b with
    | [] => []
    | _ =>
      let n := 16 - pa % 16
      (pa, b.take n) :: pieces (pa + n) fuel (b.drop n)

/-- Who makes a unit's access. -/
structure Who where
  tenant : Nat
  launch : Nat
  deriving DecidableEq, Repr

/-- Pieces written at their homes on this cube, each one placement; nothing when one has to wait (R394). -/
def State.placePieces (s : State) (w : Who) (attr : Nat) (bad : Bool) : List (Nat × List Byte) → Option State
  | [] => some s
  | (pa, b) :: r =>
    let x : HomeWrite := { line := pa / 128, la := s.localAddr pa, bytes := (upTo b.length).map (fun o => (pa % 16 + o, b.getD o 0))
                           bad := bad, tenant := w.tenant, attr := attr, launch := w.launch }
    match s.placeWrite x with
    | some t => t.placePieces w attr bad r
    | none => none

/-- Bytes written to a physical address by a unit: placed here, or sent to their home. -/
def State.unitWrite (s : State) (w : Who) (pa attr : Nat) (b : List Byte) (bad : Bool) : Option State :=
  if s.isRemote pa then
    some (s.sendTo (s.homeCube pa) 2 .remoteRequest { EvArg.zero with c := 1, d := b.length, e := attr, w := BitVec.ofNat 64 pa, bytes := b, words := [BitVec.ofNat 64 w.tenant, BitVec.ofNat 64 bad.toNat] })
  else s.placePieces w attr bad (pieces pa (b.length + 1) b)

/-- Pieces read at their homes on this cube: bytes, and for each whether its sector is uncorrectable. -/
def State.readPieces (s : State) (launch : Nat) : List (Nat × List Byte) → List (List Byte × Bool) × State
  | [] => ([], s)
  | (pa, b) :: r =>
    let (x, s) := s.readHome pa (s.localAddr pa) b.length launch
    let (xs, s) := s.readPieces launch r
    (x :: xs, s)

/-- n bytes read at a physical address by a unit; nothing while another cube has not answered. An answer comes in `bytes`, with e = 1 for data that are uncorrectable, as those of a lost cube are (R423). -/
def State.unitRead (s : State) (launch pa n : Nat) : Option ((List Byte × Bool) × State) :=
  if s.isRemote pa then
    if n ≤ s.arg.bytes.length then some ((s.arg.bytes.take n, s.arg.e == 1), s)
    else if s.lost.contains (s.homeCube pa) then some ((List.replicate n 0, true), s)
    else none
  else
    let (xs, s) := s.readPieces launch (pieces pa (n + 1) (List.replicate n 0))
    some ((xs.flatMap (·.1), xs.any (·.2)), s)

/-! ### The save record -/

/-- The virtual address of the save record of a tile core's context (R374). -/
def State.recordAddr (s : State) (tenant core ctx : Nat) : Nat := (s.tenant tenant).spill.toNat + (8 * core + ctx) * 0x2000

/-- The save record translated for its tenant; a vault core has none (R374). -/
def State.recordAt (s : State) (tenant core ctx : Nat) (store : Bool) : Xl :=
  if 256 ≤ core then .fault 0 0 else s.xlate tenant (s.recordAddr tenant core ctx) false store

/-- Parts written one after the other to a place; nothing when one has to wait. -/
def State.putParts (s : State) (w : Who) (pa attr : Nat) : List (Nat × List Byte) → Option State
  | [] => some s
  | (o, b) :: r =>
    match s.unitWrite w (pa + o) attr b false with
    | some t => t.putParts w pa attr r
    | none => none

/-- Parts that could not all be placed wait, for a journal record perhaps (R402). -/
def State.partsWait (s : State) (pa : Nat) : List (Nat × List Byte) → State
  | [] => s
  | (o, _) :: r => (s.noteStall (pa + o)).partsWait pa r

/-- The stored image with an identity replaced. -/
def State.mapStored (s : State) (uid : Nat) (f : Stored → Stored) : State :=
  { s with stored := s.stored.map (fun t => if t.ctx.uid = uid then f t else t) }

end Sys2Proof.Machine
end

