-- ==== Sys2Proof/Machine/Parcels.lean ====
section
/-! DEFINITION. Parcel queues, diffusion, the backlog and starvation (R161 to R168, R173, R174, R329, R330). -/

namespace Sys2Proof.Machine

/-- The tile number that a tile core lies on, and the launch that owns it. -/
def State.myOwner (s : State) : Option Nat := if s.cur.1 < 256 then (s.tile (tileOf s.cur.1)).owner else none

/-- The tiles of a launch's cluster in row-major order. -/
def State.cluster (s : State) (id : Nat) : List Nat := (upTo 128).filter (fun t => (s.tile t).owner == some id)

/-- A parcel is QUEUED. -/
def Parcel.queued (p : Parcel) : Bool := match p.st with
  | .queued => true
  | _ => false

/-- A parcel is TAKEN. -/
def Parcel.isTaken (p : Parcel) : Bool := match p.st with
  | .taken _ => true
  | _ => false

/-- The software fields of a parcel's P (R161). -/
def Parcel.migratable (p : Parcel) : Bool := bitAt p.p.toNat 30
/-- Stealable. -/
def Parcel.stealable (p : Parcel) : Bool := bitAt p.p.toNat 31
/-- Index. -/
def Parcel.index (p : Parcel) : Nat := p.p.toNat % 2 ^ 24

/-- The state code of P (R161). -/
def PState.code : PState → Nat
  | .queued => 1
  | .taken _ => 2
  | .lent _ _ _ _ => 4
  | .held _ => 0

/-- P with its hardware fields: slot, state and owner cube (R161). -/
def Parcel.word (p : Parcel) : Word :=
  BitVec.ofNat 64 (p.p.toNat % 2 ^ 32 + p.owner * 2 ^ 32 + p.st.code * 2 ^ 45 + p.slot * 2 ^ 48)

/-- A P given by software breaks a rule of R161. -/
def parcelBad (p : Nat) : Bool := bits p 63 56 != 0 || decide (6 ≤ bits p 29 27) || decide (6 ≤ bits p 26 24)

/-- The lowest FREE slot of a tile's queue. -/
def TileSt.freeSlot (t : TileSt) : Option Nat := firstFrom (fun i => !t.parcels.any (fun p => p.slot == i)) 0 256

/-- FREE slots of a tile's queue (R166). -/
def TileSt.freeSlots (t : TileSt) : Nat := 256 - t.parcels.length

/-- QUEUED parcels of a tile's queue. -/
def TileSt.queuedCount (t : TileSt) : Nat := (t.parcels.filter (·.queued)).length

/-- A parcel placed at the tail of a tile's queue; nothing without a FREE slot. -/
def State.enqueue (s : State) (t : Nat) (p : Parcel) : Option State :=
  match (s.tile t).freeSlot with
  | none => none
  | some i =>
    let x := s.tile t
    some ({ s with nid := s.nid + 1 }.setTile t { x with parcels := x.parcels ++ [{ p with slot := i, st := .queued, order := s.nid, since := s.cycle }] })

/-- A parcel of a tile replaced by its image. -/
def State.mapParcel (s : State) (t slot : Nat) (f : Parcel → Parcel) : State :=
  let x := s.tile t
  s.setTile t { x with parcels := x.parcels.map (fun p => if p.slot = slot then f p else p) }

/-- A parcel removed from a tile's queue: its slot is FREE. -/
def State.dropParcel (s : State) (t slot : Nat) : State :=
  let x := s.tile t
  s.setTile t { x with parcels := x.parcels.filter (fun p => p.slot ≠ slot) }

/-! ### The backlog -/

/-- The work-unit count of a launch (R169). -/
def Launch.count (l : Launch) : Nat := l.lpb.getD 3 0 % 2 ^ 32

/-- E of the parcels that a launch deals (R173). -/
def Launch.argument (l : Launch) : Word := BitVec.ofNat 64 (l.lpb.getD 2 0)

/-- P of parcel i that a launch deals (R173). -/
def Launch.parcelP (l : Launch) (i : Nat) : Word :=
  let d := l.lpb.getD 3 0
  BitVec.ofNat 64 (i % 2 ^ 24 + bits d 48 46 * 2 ^ 24 + bits d 51 49 * 2 ^ 27 + bits d 44 44 * 2 ^ 30 + bits d 45 45 * 2 ^ 31)

/-- A parcel of a launch on this cube. -/
def State.parcelOf (s : State) (id : Nat) (e p : Word) : Parcel :=
  { slot := 0, e := e, p := p, st := .queued, order := 0, since := s.cycle, owner := s.cube, borrowed := none, launch := id }

/-- Some tile of a launch's cluster meets a P. -/
def State.clusterMeets (s : State) (id : Nat) (p : Word) : Bool := (s.cluster id).any (fun t => s.meets t p)

/-- The virtual address of a backlog pool entry (R174). -/
def State.poolAddr (s : State) (tenant e : Nat) : Nat := (s.tenant tenant).spill.toNat + 0x1000000 + 16 * e

/-- The lowest free entry of a tenant's backlog pool (R174). -/
def State.poolFree (s : State) (tenant : Nat) : Option Nat :=
  let used := (s.launches.filter (fun l => l.tenant == tenant)).flatMap (fun l => l.moved.map (·.2))
  firstFrom (fun e => !used.contains e) 0 (min 262144 (used.length + 1))

/-- A launch ends FAULTED at its next evaluation: the pool could not be accessed (R174). -/
def State.poolFault (s : State) (id : Nat) : State :=
  match s.launch id with
  | none => s
  | some l =>
    if l.st = .running then (s.mapLaunch id (fun l => { l with status := 6, st := .completing })).raise l.origin (StewEvent.msg l.tenant 0x04 l.lid 0 0)
    else s

/-- The entry of a moved parcel read back from this cube: E and P (R174). -/
def State.poolRead (s : State) (l : Launch) (e : Nat) : Option (Word × Word) :=
  match s.xlate l.tenant (s.poolAddr l.tenant e) false false with
  | .ok pa _ =>
    match s.unitRead l.id pa 16 with
    | some ((b, _), _) => some (BitVec.ofNat 64 (fieldAt b 0 8), BitVec.ofNat 64 (fieldAt b 8 8))
    | none => none
  | _ => none

/-- A pool entry's access faults (R174). -/
def State.poolBad (s : State) (l : Launch) (e : Nat) : Bool :=
  match s.xlate l.tenant (s.poolAddr l.tenant e) false false with
  | .fault _ _ => true
  | _ => false

/-- P of a moved parcel: in its entry on this cube, or as it was last known of an entry on another cube. DESIGN CHOICE, unsafe: log entry 81. -/
def State.poolP (s : State) (l : Launch) (m : Nat × Nat) : Nat :=
  match s.poolRead l m.2 with
  | some (_, p) => p.toNat
  | none => m.1

/-- A parcel moved from a tile's queue into the backlog; it stays when the pool is full, and leaves later when its entry cannot be written yet (R174, R329).
`again` asks another cube for the table entries that its translation wants. -/
def State.toBacklog (s : State) (id t : Nat) (p : Parcel) (again : Bool) : State :=
  let later (s : State) : State := s.mapLaunch id (fun l => { l with leaving := l.leaving.filter (· ≠ p.order) ++ [p.order] })
  match s.launch id with
  | none => s
  | some l =>
    match s.poolFree l.tenant with
    | none => s
    | some e =>
      match s.xlate l.tenant (s.poolAddr l.tenant e) false true with
      | .wait pa => if again then s.ask pa 8 else later s
      | .fault _ _ => s.poolFault id
      | .ok pa attr =>
        match s.unitWrite ⟨l.tenant, id⟩ pa attr (toBytes p.e.toNat 8 ++ toBytes p.word.toNat 8) false with
        | none => later (s.noteStall pa)
        | some s => (s.dropParcel t p.slot).mapLaunch id (fun l =>
            { l with moved := l.moved ++ [(p.word.toNat, e)], leaving := l.leaving.filter (· ≠ p.order) })

/-- Mesh-adjacent tiles (R17). -/
def adjacentTiles (a b : Nat) : Bool :=
  (a / 16 == b / 16 && (a % 16 + 1 == b % 16 || b % 16 + 1 == a % 16))
    || (a % 16 == b % 16 && (a / 16 + 1 == b / 16 || b / 16 + 1 == a / 16))

/-- A QUEUED parcel in a tile's queue is starved (R329). -/
def State.starvedAt (s : State) (id t : Nat) (p : Parcel) : Bool :=
  !s.clusterMeets id p.p || (!p.migratable && !s.meets t p.p)

/-- A QUEUED migratable parcel is stranded: neither its tile nor a neighbour in the cluster meets it (R329). -/
def State.strandedAt (s : State) (id t : Nat) (p : Parcel) : Bool :=
  p.migratable && !s.meets t p.p && !(s.cluster id).any (fun u => adjacentTiles t u && s.meets u p.p)

/-- The QUEUED parcels of a launch by tile, borrowed ones excepted. -/
def State.queuedOf (s : State) (id : Nat) : List (Nat × Parcel) :=
  (s.cluster id).flatMap (fun t => ((s.tile t).parcels.filter (fun p => p.queued && p.borrowed.isNone)).map (fun p => (t, p)))

/-- The undealt parcels are starved: no tile of the cluster meets the launch's minimums. -/
def State.undealtStarved (s : State) (l : Launch) : Bool :=
  decide (l.next < l.count) && !s.clusterMeets l.id (l.parcelP 0)

/-- The pool entries of a launch's starved backlog parcels. -/
def State.starvedPool (s : State) (l : Launch) : List Nat :=
  (l.moved.filter (fun m => !s.clusterMeets l.id (BitVec.ofNat 64 (s.poolP l m)))).map (·.2)

/-- The evaluation of starvation (R329, R330): starved and stranded parcels go to the backlog, and newly starved ones raise one event.
`cause` is the tile whose remap caused it, 0x7F otherwise. -/
def State.evaluate (s : State) (id cause : Nat) : State :=
  match s.launch id with
  | none => s
  | some l =>
    let inTiles := (s.queuedOf id).filter (fun q => s.starvedAt id q.1 q.2)
    let inPool := s.starvedPool l
    let undealt := s.undealtStarved l
    let fresh := (inTiles.filter (fun q => !l.starved.contains q.2.order)).length
      + (inPool.filter (fun e => !l.starved.contains (2 ^ 40 + e))).length
      + (if undealt && !l.starved.contains (2 ^ 50) then l.count - l.next else 0)
    let leaving := (s.queuedOf id).filter (fun q => s.starvedAt id q.1 q.2 || s.strandedAt id q.1 q.2)
    let s := leaving.foldl (fun s q => s.toBacklog id q.1 q.2 false) s
    let now (s : State) (l : Launch) : List Nat :=
      ((s.queuedOf id).filter (fun q => s.starvedAt id q.1 q.2)).map (·.2.order)
        ++ (s.starvedPool l).map (fun e => 2 ^ 40 + e) ++ (if s.undealtStarved l then [2 ^ 50] else [])
    let s := match s.launch id with
      | some l => s.mapLaunch id (fun l' => { l' with starved := now s l })
      | none => s
    if fresh = 0 then s
    else s.raise l.origin (StewEvent.msg l.tenant 0x01 (l.lid + cause * 2 ^ 32 + min fresh 0xFFFF * 2 ^ 40) 0 0)

/-- The backlog's parcels in ascending index, the undealt one before moved ones of its index: index, and the pool entry of a moved one (R173). -/
def State.backlog (s : State) (l : Launch) : List (Nat × Option Nat) :=
  let moved := l.moved.map (fun m => s.poolP l m % 2 ^ 24 * 2 ^ 32 + m.2 + 1)
  let undealt := if l.next < l.count then [l.next * 2 ^ 32] else []
  (sortNats (moved ++ undealt)).map (fun k => (k / 2 ^ 32, if k % 2 ^ 32 = 0 then none else some (k % 2 ^ 32 - 1)))

/-- The tile that a backlog parcel goes to: the one that meets it with most FREE slots, ties to the lowest (R173). -/
def State.feedTile (s : State) (id : Nat) (p : Word) : Option Nat :=
  let l := (s.cluster id).filter (fun t => s.meets t p && decide (0 < (s.tile t).freeSlots))
  match l with
  | [] => none
  | t :: ts => some (ts.foldl (fun a b => if (s.tile a).freeSlots < (s.tile b).freeSlots then b else a) t)

/-- The first backlog parcel that a tile can take, with its words and tile (R173). -/
def State.feedChoice (s : State) (l : Launch) : Option (Nat × Option Nat × Word × Word × Nat) :=
  (s.backlog l).findSome? fun (i, e) =>
    let words := match e with
      | none => some (l.argument, l.parcelP i)
      | some e => s.poolRead l e
    match words with
    | none => none
    | some (x, p) => (s.feedTile l.id p).map (fun t => (i, e, x, p, t))

/-- A backlog parcel leaves the backlog. -/
def Launch.unback (l : Launch) (e : Option Nat) : Launch :=
  match e with
  | none => { l with next := l.next + 1 }
  | some e => { l with moved := l.moved.filter (fun m => m.2 ≠ e) }

/-- A backlog parcel fed to a tile (R173, R329). -/
def State.feedTo (s : State) (l : Launch) (e : Option Nat) (x p : Word) (t : Nat) : State :=
  match s.enqueue t (s.parcelOf l.id x p) with
  | none => s
  | some s => (s.mapLaunch l.id (·.unback e)).evaluate l.id 0x7F

/-- A moved parcel whose entry fails the check is discarded and counted as done (R174). -/
def State.discardEntry (s : State) (l : Launch) (e : Nat) : State :=
  s.mapLaunch l.id (fun l => { l.unback (some e) with done := l.done + 1 })

/-- The launch unit tries to feed: some tile of the cluster has a FREE slot (R173). -/
def State.slotFree (s : State) (id : Nat) : Bool := (s.cluster id).any (fun t => decide (0 < (s.tile t).freeSlots))

/-- A moved parcel whose entry on this cube software has spoilt (R174). -/
def State.spoilt (s : State) (l : Launch) : Option (Nat × Nat) :=
  l.moved.find? (fun m => match s.poolRead l m.2 with
    | some (_, p) => parcelBad p.toNat
    | none => false)

/-- A pool entry that another cube holds, read and fed if no parcel before it can go (R173, R174). -/
def State.feedFar (s : State) (l : Launch) (e : Nat) : State :=
  match s.xlate l.tenant (s.poolAddr l.tenant e) false false with
  | .fault _ _ => s.poolFault l.id
  | .wait pa => s.ask pa 8
  | .ok pa _ =>
    match s.unitRead l.id pa 16 with
    | none => s.ask pa 16
    | some ((b, _), s) =>
      let x := fieldAt b 0 8
      let p := fieldAt b 8 8
      let s := s.mapLaunch l.id (fun l => { l with moved := l.moved.map (fun m => if m.2 = e then (p, e) else m) })
      if parcelBad p then s.discardEntry l e
      else if (s.feedChoice l).any (fun c => decide (c.1 ≤ p % 2 ^ 24)) then s
      else
        match s.feedTile l.id (BitVec.ofNat 64 p) with
        | none => s
        | some t => s.feedTo l (some e) (BitVec.ofNat 64 x) (BitVec.ofNat 64 p) t

/-- The parcels that have been found to leave go to the pool (R329). -/
def State.moveLeaving (s : State) (l : Launch) : State :=
  match (s.queuedOf l.id).find? (fun q => l.leaving.contains q.2.order) with
  | none => s.mapLaunch l.id (fun l => { l with leaving := [] })
  | some q => s.toBacklog l.id q.1 q.2 true

/-- BACKLOG_FEED: a backlog parcel goes to a tile that meets it; an entry that software has spoilt is discarded and counted as done, and one that cannot be accessed ends the launch (R173, R174, R329).
Argument: a, the launch; b, one more than the pool entry that lies on another cube, 2^40 for a parcel that is to leave its tile; far and bytes, what that cube has answered. -/
def execBacklogFeed (s : State) : Host.Outcome State Fault Refusal :=
  let g := s.arg
  .next (
    match s.launch g.a with
    | none => s
    | some l =>
      if g.b = 2 ^ 40 then s.moveLeaving l
      else if 0 < g.b then (if l.moved.any (fun m => m.2 + 1 == g.b) then s.feedFar l (g.b - 1) else s)
      else if l.moved.any (fun m => s.poolBad l m.2) then s.poolFault l.id
      else
        match s.spoilt l with
        | some m => s.discardEntry l m.2
        | none =>
          match s.feedChoice l with
          | none => s
          | some (_, e, x, p, t) => s.feedTo l e x p t)

/-- The feeds that the launch unit may make for a running launch (R173, R174, R329). -/
def State.feeds (s : State) (l : Launch) : List (Nat × Nat) :=
  if l.st ≠ .running then []
  else
    (if (s.feedChoice l).isSome || (s.slotFree l.id && (l.moved.any (fun m => s.poolBad l m.2) || (s.spoilt l).isSome)) then [(l.id, 0)] else [])
      ++ (if s.slotFree l.id then (l.moved.filter (fun m => (s.poolRead l m.2).isNone && !s.poolBad l m.2)).map (fun m => (l.id, m.2 + 1)) else [])
      ++ (if l.leaving.isEmpty then [] else [(l.id, 2 ^ 40)])

/-! ### The instructions -/

/-- PROT with the tile's number, on a tile that no launch owns (R163). -/
def State.noOwner (s : State) : State := s.trap 0x07 0 (BitVec.ofNat 64 (tileOf s.cur.1))

/-- `pq.put` (R163). -/
def execPqPut (a b : Reg) (t v : Bool) (s : State) : Host.Outcome State Fault Refusal :=
  let i : Instr := .pqPut a b t v
  let u : Use := ⟨[(a, t), (b, v)], [], [], []⟩
  let e := s.val a
  let p := s.val b
  .next (s.issueVal i u [b] (parcelBad p.toNat)
    (match s.myOwner with
    | none => s.noOwner
    | some id =>
      match s.enqueue (tileOf s.cur.1) (s.parcelOf id e p) with
      | none => s.parkMe .parcelSlot
      | some t => (t.popAll u.srcs).finish i))

/-- Work that a waiting `pq.take` may still get: a QUEUED parcel that is not starved, one in transit, or a backlog one (R164, R329). -/
def State.workLeft (s : State) (id : Nat) : Bool :=
  (s.queuedOf id).any (fun q => !s.starvedAt id q.1 q.2)
    || s.moving.any (fun m => m.2.launch == id)
    || (match s.launch id with
      | some l => (decide (l.next < l.count) && !s.undealtStarved l)
          || l.moved.any (fun m => !(s.starvedPool l).contains m.2)
      | none => false)

/-- The oldest QUEUED parcel that a tile meets (R164). -/
def State.takeable (s : State) (t : Nat) : Option Parcel :=
  (s.tile t).parcels.foldl (fun acc p =>
    if p.queued && s.meets t p.p then
      match acc with
      | none => some p
      | some q => if p.order < q.order then some p else some q
    else acc) none

/-- `pq.take` (R164). -/
def execPqTake (d : Reg) (s : State) : Host.Outcome State Fault Refusal :=
  let i : Instr := .pqTake d
  let d2 : Reg := Fin.ofNat 64 (d.val + 1)
  let t := tileOf s.cur.1
  let put (s : State) (x y : Word) : State := (s.setSelf ((s.self.write d.val x).write d2.val y)).finish i
  .next (s.issue ⟨[], [], [], [d, d2]⟩
    (match s.myOwner with
    | none => s.noOwner
    | some id =>
      match s.takeable t with
      | some p =>
        let q := { p with st := .taken s.agent }
        put (s.mapParcel t p.slot (fun _ => q)) q.e q.word
      | none => if s.workLeft id then s.parkMe .parcel else put s 0 0))

/-- The TAKEN parcel of the running thread that a P word names, with its tile (R165): that of the executing tile, else one of another tile, whose core a resumed thread has left (R372, R377). -/
def State.mine (s : State) (p : Word) : Option (Nat × Parcel) :=
  (tileOf s.cur.1 :: s.tiles.map (·.1)).findSome? (fun t => ((s.tile t).parcels.find? (fun q =>
    q.slot == bits p.toNat 55 48 && q.index == p.toNat % 2 ^ 24 && q.st == .taken s.agent)).map (fun q => (t, q)))

/-- A DONE or RETURN report to the owner of a borrowed parcel (R466). -/
def State.loanReport (s : State) (op : Instr) (l : Loan) (tenant job : Nat) : State :=
  s.sendTo l.cube 3 op { EvArg.zero with b := 256 * l.tile + l.slot, c := l.lend, d := l.due, e := l.lid, words := [BitVec.ofNat 64 tenant, BitVec.ofNat 64 job] }

/-- A parcel completed by the running thread: counted, or reported to its owner (R165, R466). -/
def State.reportDone (s : State) (p : Parcel) : State :=
  match p.borrowed with
  | none => s.mapLaunch p.launch (fun l => { l with done := l.done + 1 })
  | some l => s.loanReport .doneReport l s.self.tenant s.self.job

/-- `pq.done` (R165). -/
def execPqDone (a : Reg) (t : Bool) (s : State) : Host.Outcome State Fault Refusal :=
  let i : Instr := .pqDone a t
  let u : Use := ⟨[(a, t)], [], [], []⟩
  let v := s.val a
  .next (s.issueVal i u [a] (s.mine v).isNone
    (match s.mine v with
    | none => s
    | some (k, p) => (((s.popAll u.srcs).dropParcel k p.slot).reportDone p).finish i))

/-- `pq.cnt` (R166). -/
def execPqCnt (d : Reg) (s : State) : Host.Outcome State Fault Refusal :=
  let u : Use := ⟨[], [], [d], []⟩
  let x := s.tile (tileOf s.cur.1)
  .next (s.issue u
    (match s.myOwner with
    | none => s.noOwner
    | some _ => s.retire (.pqCnt d) u d (BitVec.ofNat 64
        (x.queuedCount + (x.parcels.filter (·.isTaken)).length * 2 ^ 16 + x.freeSlots * 2 ^ 32))))

/-- The parcels that a thread holds TAKEN return to QUEUED; a borrowed one that has expired is dropped (R119, R162, R465). -/
def State.untake (s : State) (uid : Nat) : State :=
  let late (p : Parcel) : Bool := p.st == .taken uid && p.borrowed.any (fun l => decide (l.due ≤ s.time))
  { s with tiles := s.tiles.map (fun e => (e.1, { e.2 with parcels := (e.2.parcels.filter (fun p => !late p)).map (fun (p : Parcel) =>
      if p.st = .taken uid then { p with st := .queued, since := s.cycle } else p) })) }

/-! ### Diffusion -/

/-- The tile that a tile is paired with in a period (R168). -/
def pairOf (period t : Nat) : Option Nat :=
  let c := t % 16
  let r := t / 16
  let q := period % 4
  if q < 2 then
    let up := c % 2 = q % 2
    if up then (if c + 1 < 16 then some (t + 1) else none) else (if 0 < c then some (t - 1) else none)
  else
    let down := r % 2 = q % 2
    if down then (if r + 1 < 8 then some (t + 16) else none) else (if 0 < r then some (t - 16) else none)

/-- The parcels that tile a sends to b in a period, at most n (R168). -/
def State.diffuse (s : State) (a b : Nat) : List Parcel :=
  let x := s.tile a
  let elig := (x.parcels.filter (fun p => p.queued && p.migratable && p.borrowed.isNone && s.meets b p.p)).reverse
  let stranded := elig.filter (fun p => !s.meets a p.p)
  let others := elig.filter (fun p => s.meets a p.p)
  let quota := (x.queuedCount - (s.tile b).queuedCount) / 4
  (stranded ++ others.take (quota - stranded.length)).take (s.tile b).freeSlots

/-- DIFFUSION_PERIOD: every 256 cycles paired tiles of one cluster exchange parcels (R168).
The period's number follows from the core cycle count. -/
def execDiffusionPeriod (s : State) : Host.Outcome State Fault Refusal :=
  let p := s.cycle / 256
  let pairs := (upTo 128).filterMap (fun a => match pairOf p a with
    | some b => if (s.tile a).owner.isSome && (s.tile a).owner == (s.tile b).owner then some (a, b) else none
    | none => none)
  let moves := pairs.flatMap (fun (a, b) => (s.diffuse a b).map (fun q => (a, b, q)))
  let s := moves.foldl (fun s (a, b, q) => { s.dropParcel a q.slot with moving := s.moving ++ [(b, q)] }) s
  .next { s with diffused := p + 1 }

/-- PARCEL_ARRIVAL: a MOVING parcel is appended QUEUED to the receiving queue (R162, R168). -/
def execParcelArrival (s : State) : Host.Outcome State Fault Refusal :=
  .next (
    match s.moving with
    | [] => s
    | (t, p) :: r =>
      match s.enqueue t p with
      | some s => { s with moving := r }
      | none => { s with moving := r ++ [(t, p)] })

end Sys2Proof.Machine
end

