-- ==== Sys2Proof/Machine/Messages.lean ====
section
/-! DEFINITION. Trigger counters, endpoints, and the packets of `send`, `spawn` and `fill` (R124 to R142, R368, R369, R390, R459). -/

namespace Sys2Proof.Machine

/-! ### Counters -/

/-- A counter of the running core that `ctr.rd` and its like act on. -/
def State.ctrOf (s : State) (a : Reg) : Nat := ctrKey s.cur.1 (s.val a).toNat

/-- The launch counter of a tile core (R125). -/
def isLaunchCtr (k : Nat) : Bool := k % 64 == 63 && decide (k / 64 < 256)

/-- Occupied mailbox slots that some activation owns. -/
def Counter.owned (c : Counter) : Nat := (c.ring.filter (fun r => r.1 ≠ 0)).length

/-- The state word of `ctr.rd` (R127). -/
def Counter.word (c : Counter) : Word :=
  BitVec.ofNat 64 (c.count + c.reload * 2 ^ 16 + c.ring.length * 2 ^ 32 + c.pending.length * 2 ^ 40 + c.mask.toNat * 2 ^ 47
    + c.prio * 2 ^ 48 + (c.cap - 1) * 2 ^ 50)

/-- Application of a decrement, with the words of a message, to a counter that may take it (R129).
`f` completes a new activation. The status is 0 or 1. -/
def State.applyTo (s : State) (k : Nat) (msg : Option (List Word)) (dec : Nat) (f : PendAct → PendAct) : Nat × State :=
  let c := s.counter k
  if msg.isSome && decide (c.cap ≤ c.ring.length) then (1, s)
  else if decide (1 ≤ dec) && decide (c.count ≤ dec) && c.pending.length == 127 then (1, s)
  else
    let slot := (c.head + c.ring.length) % c.cap
    let s := match msg with
      | some ws => s.dieWrite (localKey (k / 64) (c.base + 64 * slot)) (ws.flatMap (fun (w : Word) => toBytes w.toNat 8))
      | none => s
    let c := if msg.isSome then { c with ring := c.ring ++ [(0, false)] } else c
    if dec = 0 then (0, s.setCounter k c)
    else if dec < c.count then (0, s.setCounter k { c with count := c.count - dec })
    else
      let aid := s.nid
      let own := c.owned
      let p : PendAct := f
        { aid := aid, msgs := c.ring.length - own, first := c.base + 64 * ((c.head + own) % c.cap), entry := c.entry
          prio := c.prio, tenant := c.owner.getD 0, job := 0, launch := 0, group := 0, rect := 0, byLaunch := false, uid := 0 }
      (0, { s with nid := s.nid + 1 }.setCounter k
        { c with count := c.reload, pending := c.pending ++ [p]
                 ring := c.ring.map (fun (r : Nat × Bool) => if r.1 = 0 then (aid, r.2) else r) })

/-- Application for a sender's tenant and job: an ungranted counter, or another tenant's, denies it (R129, R457). -/
def State.applyCtr (s : State) (k tenant job : Nat) (msg : Option (List Word)) (dec : Nat) : Nat × State :=
  if (s.counter k).owner ≠ some tenant then (6, s)
  else s.applyTo k msg dec (fun p => { p with job := job })

/-- The ring after an activation's slots are released: the head advances over released slots (R130). -/
def releaseSlots (aid : Nat) (ring : List (Nat × Bool)) : Nat × List (Nat × Bool) :=
  let r := ring.map (fun e => if e.1 = aid then (aid, true) else e)
  let kept := r.dropWhile (fun e => e.2)
  (r.length - kept.length, kept)

/-- A counter after an activation has ended (R126, R130). -/
def Counter.endAct (c : Counter) (aid : Nat) : Counter :=
  let (n, ring) := releaseSlots aid c.ring
  let run := c.running.filter (· ≠ aid)
  let d := { c with head := (c.head + n) % c.cap, ring := ring, running := run }
  if c.releasing && run.isEmpty then { d with owner := none, releasing := false, ring := [], pending := [] } else d

/-- The condition of steps 1 and 4 of R126 for the counter index in a register; the launch counter may only be read (R125). -/
def ctrCond (s : State) (i : Instr) (idx : Nat) (reads : Bool) : Option Cond :=
  let k := ctrKey s.cur.1 idx
  if 64 ≤ idx then some (illegalValue i)
  else if s.self.priv = .user then
    if isLaunchCtr k || (s.counter k).owner != some s.self.tenant then some ⟨0x07, 0, BitVec.ofNat 64 idx⟩ else none
  else if isLaunchCtr k && !reads then some (illegalValue i)
  else none

/-- Issue of a counter instruction: register values of a wrong form trap before the ports, the counter's own checks after the sources are read (R25, R126). -/
def State.issueCtr (s : State) (i : Instr) (u : Use) (a : Reg) (idx : Nat) (reads : Bool) (forms : List (List Reg × Bool)) (k : State) : State :=
  let c := ctrCond s i idx reads
  s.issueVals i u (([a], c.any (fun c => c.cause == 0x01)) :: forms)
    (match c with
    | some c => s.trapC c
    | none => k)

/-- The descriptor of `ctr.set` breaks a rule of R126. -/
def ctrDescBad (core d0 d1 : Nat) : Bool :=
  bits d0 63 56 != 0 || d0 % 4 != 0 || bits d1 63 59 != 0 || bits d1 55 54 != 0 || bits d1 47 32 % 64 != 0
    || decide ((if core < 256 then 0xCE00 else 0xD000) < bits d1 47 32 + 64 * (bits d1 53 48 + 1))

/-- A counter as `ctr.set` loads it: pending activations and messages are discarded (R126). -/
def Counter.load (c : Counter) (d0 d1 : Nat) : Counter :=
  { c with count := bits d1 15 0, reload := bits d1 31 16, entry := BitVec.ofNat 64 d0, prio := bits d1 57 56, base := bits d1 47 32
           cap := bits d1 53 48 + 1, mask := bitAt d1 58, head := 0, ring := [], pending := [] }

/-- `ctr.set` (R126). -/
def execCtrSet (a b : Reg) (t u : Bool) (s : State) : Host.Outcome State Fault Refusal :=
  let i : Instr := .ctrSet a b t u
  let use : Use := ⟨[(a, t), (b, u)], [], [], []⟩
  let idx := (s.val a).toNat
  let ea := (s.val b).toNat
  let k := ctrKey s.cur.1 idx
  let o := ea - localBase
  let user := decide (s.self.priv = .user)
  .next (s.issueVal i use [a] (decide (64 ≤ idx))
    (if s.self.home.isSome && ea / 2 ^ 60 == 15 then s.parkMe .homeward
     else if ea % 16 ≠ 0 then s.trap 0x04 0 (s.val b)
     else if ea < localBase ∨ localBase + 65536 < ea + 16 then s.trap 0x05 0 (s.val b)
     else if user && (isLaunchCtr k || (s.counter k).owner != some s.self.tenant) then s.trap 0x07 0 (BitVec.ofNat 64 idx)
     else if isLaunchCtr k then s.trapC (illegalValue i)
     else
       let (d, bad) := s.dieRead (localKey s.cur.1 o) 16
       if bad then s.trap 0x09 1 (s.val b)
       else if ctrDescBad s.cur.1 (fieldAt d 0 8) (fieldAt d 8 8) then s.trapC (illegalValue i)
       else if s.self.act.any (fun x => x.counter == k) then s.trapC (illegalValue i)
       else if (s.counter k).running ≠ [] then s.parkMe (.counterEnds idx)
       else (((s.popAll use.srcs).setCounter k ((s.counter k).load (fieldAt d 0 8) (fieldAt d 8 8)))).finish i))

/-- `ctr.rd` (R127). -/
def execCtrRd (d a : Reg) (t : Bool) (s : State) : Host.Outcome State Fault Refusal :=
  let i : Instr := .ctrRd d a t
  let use : Use := ⟨[(a, t)], [], [d], []⟩
  .next (s.issueCtr i use a (s.val a).toNat true [] (s.retire i use d (s.counter (s.ctrOf a)).word))

/-- The mask bit of a counter written (R128). -/
def State.runMask (s : State) (i : Instr) (a : Reg) (t m : Bool) : State :=
  let use : Use := ⟨[(a, t)], [], [], []⟩
  let k := s.ctrOf a
  s.issueCtr i use a (s.val a).toNat false []
    (((s.popAll use.srcs).setCounter k { s.counter k with mask := m }).finish i)

/-- `ctr.mask` (R128). -/
def execCtrMask (a : Reg) (t : Bool) (s : State) : Host.Outcome State Fault Refusal := .next (s.runMask (.ctrMask a t) a t true)

/-- `ctr.unmask` (R128). -/
def execCtrUnmask (a : Reg) (t : Bool) (s : State) : Host.Outcome State Fault Refusal := .next (s.runMask (.ctrUnmask a t) a t false)

/-- `trig` (R140): it waits while the pending limit refuses it, and a denied decrement is lost. -/
def execTrig (a b : Reg) (t u : Bool) (s : State) : Host.Outcome State Fault Refusal :=
  let i : Instr := .trig a b t u
  let use : Use := ⟨[(a, t), (b, u)], [], [], []⟩
  .next (s.issueCtr i use a (s.val a).toNat false [([b], decide (256 ≤ (s.val b).toNat))]
    (match s.applyCtr (s.ctrOf a) s.self.tenant s.self.job none (s.val b).toNat with
    | (1, _) => s.parkMe (.counterRoom (s.val a).toNat)
    | (_, t) => (t.popAll use.srcs).finish i))

/-! ### Packets -/

/-- Ordering class, link format, payload words, decrement, counter index and endpoint of a header (R136). -/
def hdrClass (h : Word) : Nat := bits h.toNat 53 52
/-- Link format. -/
def hdrFmt (h : Word) : Nat := bits h.toNat 51 49
/-- Payload words. -/
def hdrWords (h : Word) : Nat := bits h.toNat 48 46 + 1
/-- Decrement. -/
def hdrDec (h : Word) : Nat := bits h.toNat 45 38
/-- Counter index, or register number of a fill. -/
def hdrIdx (h : Word) : Nat := bits h.toNat 37 32
/-- Endpoint. -/
def hdrEnd (h : Word) : Nat := h.toNat % 2 ^ 32

/-- What a link format sends of a payload word (R137). -/
def narrow (f : Nat) (w : Word) : Nat :=
  let x := w.toNat % 2 ^ 32
  match f with
  | 1 => (cvtF .f32 .f16 0 x).bits
  | 2 => (cvtF .f32 .bf16 0 x).bits
  | 3 => (cvtTf8 .f32 x).bits
  | 4 => wrapN (sat (sextInt x 32) 16) 16
  | 5 => wrapN (sat (sextInt x 32) 8) 8
  | _ => w.toNat

/-- The word that the receiver makes of it (R137). -/
def widen (f : Nat) (x : Nat) : Word :=
  match f with
  | 1 => BitVec.ofNat 64 (cvtF .f16 .f32 0 x).bits
  | 2 => BitVec.ofNat 64 (cvtF .bf16 .f32 0 x).bits
  | 3 => BitVec.ofNat 64 (wideTf8 .f32 x)
  | 4 => sext64 x 16
  | 5 => sext64 x 8
  | _ => BitVec.ofNat 64 x

/-- The steward's endpoint of a core (R133, R369). -/
def stewardName (cube core : Nat) : Nat := 2 ^ 31 + cube * 2 ^ 18 + core * 2 ^ 9 + 8

/-- The endpoint that the running context sends under. -/
def State.myName (s : State) : Nat := if s.cur.2 = 8 then stewardName s.cube s.cur.1 else s.self.name

/-- A directory entry of a counter endpoint, and of the launch endpoint (R133, R169). -/
def counterEntry (cube core ctr : Nat) : Nat := 2 ^ 40 + (cube * 512 + core) * 64 + ctr
/-- The launch unit of a cube. -/
def launchEntry (cube : Nat) : Nat := 2 ^ 50 + cube

/-- The key of a name in a core's directory cache. -/
def dirKey (tenant name : Nat) : Nat := tenant * 2 ^ 32 + name

/-- The endpoint is a thread's (R133). -/
def isThreadEnd (name : Nat) : Bool := bitAt name 31

/-- A packet led to the place that a directory entry names (R134). -/
def Packet.toEntry (p : Packet) (e : Nat) : Packet :=
  if 2 ^ 50 ≤ e then { p with cube := e - 2 ^ 50, core := 0, target := 1000 }
  else if 2 ^ 40 ≤ e then
    let x := e - 2 ^ 40
    { p with cube := x / 64 / 512, core := x / 64 % 512, target := x % 64 + 1 }
  else { p with cube := (e - 1) / 512, core := (e - 1) % 512 }

/-- A core's directory cache with an entry put in; with 64 others one of them, which the spec does not name, gives way (R134). -/
def State.cacheDir (s : State) (core key entry : Nat) : State :=
  let c := s.core core
  if smGet 0 c.dir key ≠ 0 ∨ c.dir.length < 64 then s.setCore core { c with dir := smPut 0 c.dir key entry }
  else
    let (i, s) := s.choose c.dir.length
    s.setCore core { c with dir := smPut 0 (c.dir.eraseIdx i) key entry }

/-- A packet put on its way: in this cube, or out to another (R134). -/
def State.route (s : State) (p : Packet) : State :=
  let p := { p with id := s.nid }
  if p.cube = s.cube then { s with nid := s.nid + 1, net := s.net ++ [p] }
  else
    -- a status that comes from another cube keeps that cube's number as its address
    let s := if p.scube = s.cube ∧ p.req ≠ 0 then
        { s with reqs := s.reqs.map (fun (r : Req) => if r.id = p.req then { r with pa := p.cube, remote := true, sent := true } else r) }
      else s
    s.sendTo p.cube (hdrClass p.hdr) (match p.kind with
      | .fill => .fillArrival
      | _ => .messageArrival) { EvArg.zero with b := 2, pkt := some p }

/-- A packet leaves its source core: the core's directory cache, or the name itself, says where to (R134). -/
def State.depute (s : State) (p : Packet) : State :=
  let name := hdrEnd p.hdr
  let e := smGet 0 (s.core p.score).dir (dirKey p.tenant name)
  s.route (
    if p.kind = .spawn then p
    else if e ≠ 0 then p.toEntry e
    else if isThreadEnd name then { p with cube := bits name 30 18, core := birthCore name }
    else { p with cube := s.cube, core := p.score })

/-- A packet of the running context (R137 to R139). -/
def State.packet (s : State) (kind : PktKind) (req : Nat) (h : Word) (ws : List Word) : Packet :=
  { id := 0, kind := kind, req := req, scube := s.cube, score := s.cur.1, src := s.myName, tenant := s.self.tenant, job := s.self.job
    hdr := h, words := ws, cube := s.cube, core := s.cur.1, hops := 0, asked := false, target := 0, firm := [] }

/-- A firmware reply to a counter endpoint: class O, decrement 1, word 1 as in the command, word 2 the result (R369). -/
def State.reply (s : State) (core tenant endp : Nat) (w1 : Word) (result : Nat) : State :=
  if endp = 0 then s
  else s.depute
    { id := 0, kind := .message, req := 0, scube := s.cube, score := core, src := stewardName s.cube core, tenant := tenant, job := 0
      hdr := BitVec.ofNat 64 (endp % 2 ^ 32 + 2 ^ 38 + 2 ^ 46 + 2 ^ 52), words := [w1, BitVec.ofNat 64 result]
      cube := s.cube, core := core, hops := 0, asked := false, target := 0, firm := [] }

/-- A header's fate before anything is read further (R136). -/
def hdrCond (s : State) (i : Instr) (kind : PktKind) (h : Word) (b : Reg) : Option Cond :=
  let x := h.toNat
  let bad := bits x 63 54 != 0 || hdrClass h == 2 || decide (6 ≤ hdrFmt h) || decide (6 < hdrWords h)
    || (match kind with
      | .message => false
      | .spawn => hdrEnd h != 0
      | .fill => hdrWords h != 1 || hdrDec h != 0 || hdrIdx h == 0 || decide (60 ≤ hdrIdx h))
  if bad then some (illegalValue i)
  else if !isPort b.val && decide (59 < b.val + hdrWords h - 1) then some ⟨0x01, 6, (illegalValue i).val⟩
  else if hdrClass h = 3 ∧ s.self.priv = .user then some (privCond i)
  else none

/-- The payload registers after the first. -/
def payload (b : Reg) (n : Nat) : List (Reg × Bool) := (upTo (n - 1)).map (fun j => (Fin.ofNat 64 (b.val + 1 + j), false))

/-- Issue of `send`, `spawn` and `fill`: the header first, then the payload registers it names (R136, R137). -/
def State.issueHdr (s : State) (i : Instr) (kind : PktKind) (d a b : Reg) (t u : Bool) (k : State) : State :=
  let first : Use := ⟨[], [(a, t), (b, u)], [d], []⟩
  let c := if s.readable [a] then hdrCond s i kind (s.val a) b else none
  let n := hdrWords (s.val a)
  if isPort a.val ∨ c.isSome ∨ 59 < b.val + n - 1 then s.issueWith first c (match c with
    | some c => s.trapC c
    | none => k)
  else
    match first.waits s with
    | some p => s.parkMe p
    | none =>
      if !s.readable [a] then
        -- the header register is empty with its trap bit set: it traps before its value is known
        s.issueWith first none k
      else s.issue ⟨[], [(a, t), (b, u)] ++ payload b n, [d], []⟩ k

/-- The payload words as sent. -/
def State.payloadWords (s : State) (b : Reg) (h : Word) (raw0 : Bool) : List Word :=
  (upTo (hdrWords h)).map (fun j =>
    let v := s.val (Fin.ofNat 64 (b.val + j))
    if raw0 && j == 0 then v else BitVec.ofNat 64 (narrow (hdrFmt h) v))

/-- The packet leaves and d waits for its status (R137). -/
def State.dispatchPacket (s : State) (i : Instr) (d : Reg) (f : Nat → Packet) : State :=
  let (id, t) := s.producer d
  (t.depute (f id)).finish i

/-- `send` (R137). -/
def execSend (d a b : Reg) (t u : Bool) (s : State) : Host.Outcome State Fault Refusal :=
  let i : Instr := .send d a b t u
  let h := s.val a
  .next (s.issueHdr i .message d a b t u (s.dispatchPacket i d (fun id => s.packet .message id h (s.payloadWords b h false))))

/-- `fill` (R139). -/
def execFill (d a b : Reg) (t u : Bool) (s : State) : Host.Outcome State Fault Refusal :=
  let i : Instr := .fill d a b t u
  let h := s.val a
  .next (s.issueHdr i .fill d a b t u (s.dispatchPacket i d (fun id => s.packet .fill id h (s.payloadWords b h false))))

/-- The physical address behind a virtual one, without permission checks (R138). -/
def State.resolve (s : State) (ea : Nat) : Acc :=
  let x := s.self
  let v : Word := BitVec.ofNat 64 ea
  let unit := unitOf s.cur.1
  if ea / 2 ^ 56 ≠ 0 then .stop (s.trap 0x05 0 v)
  else
    match x.walkFault ea with
    | some sub => .stop ((s.setSelf { x with xfault := none }).trap 0x06 sub v)
    | none =>
      match s.tlbHit unit x.tenant ea with
      | none => .stop (s.miss unit x.tenant ea)
      | some e =>
        let pa := e.pa + ea % e.size
        if (s.home pa).isNone then .stop (s.trap 0x06 3 v) else .virt ea pa e.attr

/-- `spawn` (R138). -/
def execSpawn (d a b : Reg) (t u : Bool) (s : State) : Host.Outcome State Fault Refusal :=
  let i : Instr := .spawn d a b t u
  let h := s.val a
  .next (s.issueHdr i .spawn d a b t u
    (match s.resolve (s.val b).toNat with
    | .stop t => t
    | .virt _ pa _ =>
      let (c, la) := (s.home pa).getD (s.cube, 0)
      s.dispatchPacket i d (fun id =>
        { s.packet .spawn id h (s.payloadWords b h true) with cube := c, core := 256 + (s.place la).vault, target := hdrIdx h + 1 })
    | _ => s.trap 0x05 0 (s.val b)))

/-! ### Arrival -/

/-- The context of a core that holds a named thread, a steward apart (R134). -/
def State.residentNamed (s : State) (core name : Nat) : Option Nat :=
  (s.ctxs.find? (fun e => e.1 / 16 == core && e.1 % 16 != 8 && e.2.occ && e.2.name == name && e.2.park != some .away)).map (·.1)

/-- The spill slot or frame of a core that holds a named thread (R134). -/
def State.spilledNamed (s : State) (core name : Nat) : Option Stored :=
  s.stored.find? (fun t => t.goal == core && decide (t.slot < 24) && t.ctx.name == name)

/-- The thread is on its way to this core, in a relocation packet or an inbox. -/
def State.comingNamed (s : State) (core name : Nat) : Bool :=
  s.stored.any (fun t => t.core == core && decide (24 ≤ t.slot) && t.ctx.name == name)

/-- The tenant of a named thread that a core holds. -/
def State.heldNamed (s : State) (core name : Nat) : Option Nat :=
  match s.residentNamed core name with
  | some k => some (s.ctx k).tenant
  | none => (s.spilledNamed core name).map (·.ctx.tenant)

/-- A forwarding stub of a core (R135). -/
def State.stubOf (s : State) (core name : Nat) : Option Stub := (s.core core).stubs.find? (fun b => b.name == name)

/-- The name is a steward's endpoint (R369). -/
def isStewardEnd (name : Nat) : Bool := isThreadEnd name && name % 512 == 8

/-- What happens next to a packet in this cube (R134, R135, R139); nothing while it waits for an answer or for its thread: a fill waits while a relocation packet carries the thread's state (DEDUCED, unsafe: log entry 80). -/
def State.packetNext (s : State) (p : Packet) : Option Instr :=
  let name := hdrEnd p.hdr
  let arrive : Instr := match p.kind with
    | .fill => .fillArrival
    | _ => .messageArrival
  if p.kind = .spawn ∨ p.target ≠ 0 ∨ 320 ≤ p.core then some arrive
  else if !isThreadEnd name then
    if p.kind = .fill then some arrive else if p.asked then none else some .directoryLookup
  else if isStewardEnd name then some arrive
  else if p.kind = .fill && (s.residentNamed p.core name).any (fun k => (s.ctx k).park == some .reloc) then none
  else if p.hops ≠ 5 && (s.heldNamed p.core name).isSome then some arrive
  else if 6 ≤ p.hops then some arrive
  else if s.comingNamed p.core name then none
  else if p.hops ≠ 5 && (s.stubOf p.core name).isSome then some .stubForward
  else if p.asked then none
  else some .directoryLookup

/-- Packets of class O from one source to one destination are applied in order (R142); packets to a resumed thread wait behind its buffered messages (R377). -/
def Packet.before (p q : Packet) : Bool :=
  (p.firm != [] && q.kind == .message && p.core == q.core && hdrEnd p.hdr == hdrEnd q.hdr)
  || hdrClass p.hdr == 1 && hdrClass q.hdr == 1 && p.src == q.src && p.tenant == q.tenant
    && (if p.kind = .spawn ∨ q.kind = .spawn then p.kind == q.kind && p.core == q.core && p.target == q.target
        else hdrEnd p.hdr == hdrEnd q.hdr)

/-- A packet behind no other of its order. -/
def State.packetFree (s : State) (p : Packet) : Bool := !(s.net.takeWhile (fun q => q.id ≠ p.id)).any (fun q => q.before p)

/-- A packet has its status: it leaves, and the sender's register becomes full (R137, R141). -/
def State.settlePacket (s : State) (p : Packet) (status : Nat) : State :=
  let s := { s with net := s.net.filter (fun (q : Packet) => q.id ≠ p.id) }
  if p.scube = s.cube then s.answer p.req (BitVec.ofNat 64 status)
  else if p.req = 0 then s
  else s.sendTo p.scube 0 .messageArrival { EvArg.zero with a := p.req, b := 1, c := status }

/-- A containment fence stands over a core (R389, R390). -/
def State.fenceOver (s : State) (core : Nat) : Bool := decide (core < 256) && (s.tile (tileOf core)).fence

/-- The eight words of a stored message (R130). -/
def State.messageWords (s : State) (p : Packet) : List Word :=
  if p.firm ≠ [] then p.firm else
  let f := hdrFmt p.hdr
  let ws := (upTo p.words.length).map (fun j =>
    let w := p.words.getD j 0
    if p.kind = .spawn ∧ j = 0 then w else widen f w.toNat)
  BitVec.ofNat 64 (p.hdr.toNat / 2 ^ 32 * 2 ^ 32 + p.src) :: takeD 0 6 ws ++ [BitVec.ofNat 64 s.time]

/-- A command to a steward: accepted into its queue, or refused (R368, R369). -/
def State.stewardPacket (s : State) (p : Packet) : Nat × State :=
  let c := s.core p.core
  let cmd := hdrIdx p.hdr
  if hdrClass p.hdr ≠ 3 ∨ 10 ≤ cmd then (6, s)
  else if 32 ≤ c.queue.length ∨ c.waiting ≠ [] then (1, s)
  else
    let e : StewEvent := { tenant := p.tenant, fw := cmd != 0, cause := 0x23, sub := 0, val := 0, orphan := false, seq := 0
                           words := s.messageWords p, cmd := cmd, src := p.src }
    (0, s.setCore p.core { c with queue := c.queue ++ [e] })

/-- A packet for a held thread goes to the buffer of its save record; a full buffer, or none, refuses it (R376). -/
def State.bufferMessage (s : State) (p : Packet) (t : Stored) : State :=
  let n := t.msgs.length
  if 48 ≤ n then s.settlePacket p 1
  else
    match s.recordAt t.ctx.tenant (t.recOf / 16) (t.recOf % 16) true with
    | .fault _ _ => s.settlePacket p 1
    | .wait pa => s.ask pa 8
    | .ok pa attr =>
      match s.putParts ⟨t.ctx.tenant, 0⟩ pa attr
          [(0x1400 + 64 * n, (s.messageWords p).flatMap (fun w => toBytes w.toNat 8)), (0x12E8, toBytes (n + 1) 8)] with
      | none => s.noteStall (pa + 0x1400 + 64 * n)
      | some s => (s.mapStored t.ctx.uid (fun t => { t with msgs := t.msgs ++ [p.job] })).settlePacket p 0

/-- MESSAGE_ARRIVAL (R129, R134, R138).
Argument: a, the packet; b = 1, another cube's answer, with the request in a and the status in c; b = 2, `pkt` comes from another cube. -/
def execMessageArrival (s : State) : Host.Outcome State Fault Refusal :=
  let g := s.arg
  .next (
    match g.b, g.pkt with
    | 1, _ => s.answer g.a (BitVec.ofNat 64 g.c)
    | 2, some p => { s with nid := s.nid + 1, net := s.net ++ [{ p with id := s.nid, cube := s.cube }] }
    | _, _ =>
      match s.net.find? (fun p => p.id == g.a) with
      | none => s
      | some p =>
        let name := hdrEnd p.hdr
        if s.cancelled p.tenant p.job then s.settlePacket p 4
        else if 320 ≤ p.core then s.settlePacket p 2
        else if s.fenceOver p.core then s.settlePacket p 3
        else if p.kind ≠ .spawn ∧ isStewardEnd name then
          let (st, t) := s.stewardPacket p
          t.settlePacket p st
        else
          let msg := some (s.messageWords p)
          let apply (idx : Nat) : State :=
            let (st, t) := s.applyCtr (ctrKey p.core idx) p.tenant p.job msg (hdrDec p.hdr)
            if p.firm ≠ [] ∧ st = 1 then s else t.settlePacket p st
          if p.target ≠ 0 then apply (p.target - 1)
          else
            match s.heldNamed p.core name with
            | none => s.settlePacket p 2
            | some t =>
              if t ≠ p.tenant then s.settlePacket p 6
              else
                match (if (s.residentNamed p.core name).isSome then none else s.spilledNamed p.core name) with
                | some u => if u.frame || u.held then s.bufferMessage p u else apply (hdrIdx p.hdr)
                | none => apply (hdrIdx p.hdr))

/-- A fill at its thread (R139): the status and the state. -/
def State.applyFill (s : State) (p : Packet) : Nat × State :=
  let name := hdrEnd p.hdr
  let r := hdrIdx p.hdr
  let v := widen (hdrFmt p.hdr) (p.words.getD 0 0).toNat
  match s.residentNamed p.core name with
  | some k =>
    let x := s.ctx k
    if x.tenant ≠ p.tenant then (6, s)
    else if (x.cell r).st = .idle then (0, s.setCtx k (x.write r v)) else (5, s)
  | none =>
    match s.spilledNamed p.core name with
    | none => (2, s)
    | some t =>
      if t.ctx.tenant ≠ p.tenant then (6, s)
      else
        match s.slotState t.core t.slot r with
        | none => (6, s)
        | some .idle => (0, s.writeThread t.ctx.uid r v false)
        | some _ => (5, s)

/-- FILL_ARRIVAL (R139).
Argument: as MESSAGE_ARRIVAL. -/
def execFillArrival (s : State) : Host.Outcome State Fault Refusal :=
  let g := s.arg
  .next (
    match g.b, g.pkt with
    | 2, some p => { s with nid := s.nid + 1, net := s.net ++ [{ p with id := s.nid, cube := s.cube }] }
    | _, _ =>
      match s.net.find? (fun p => p.id == g.a) with
      | none => s
      | some p =>
        let name := hdrEnd p.hdr
        if s.cancelled p.tenant p.job then s.settlePacket p 4
        else if !isThreadEnd name || isStewardEnd name then s.settlePacket p 6
        else if 320 ≤ p.core then s.settlePacket p 2
        else if s.fenceOver p.core then s.settlePacket p 3
        else
          let (st, t) := s.applyFill p
          t.settlePacket p st)

/-- A packet in this cube sent on to where it now stands. -/
def State.forwardPacket (s : State) (p : Packet) : State :=
  if p.cube = s.cube then { s with net := s.net.map (fun (q : Packet) => if q.id = p.id then p else q) }
  else { s with net := s.net.filter (fun (q : Packet) => q.id ≠ p.id) }.route p

/-- A directory's answer for a packet: it goes where the entry says, and a counter's entry enters the sender's cache; no entry, or one that names the core it stands at, gives status 2, or 3 where that core is fenced (R134, R135, R390). -/
def State.directed (s : State) (p : Packet) (e : Nat) : State :=
  let q := { p.toEntry e with asked := false, hops := if p.hops = 5 then 6 else p.hops }
  let none_ : State := s.settlePacket p (if isThreadEnd (hdrEnd p.hdr) && s.fenceOver p.core then 3 else 2)
  if e = 0 then none_
  else if isThreadEnd (hdrEnd p.hdr) ∧ q.cube = p.cube ∧ q.core = p.core ∧ p.hops ≠ 5 then none_
  else
    let s := if !isThreadEnd (hdrEnd p.hdr) && p.scube == s.cube then s.cacheDir p.score (dirKey p.tenant (hdrEnd p.hdr)) e else s
    s.forwardPacket q

/-- DIRECTORY_LOOKUP: the authoritative directory resolves an endpoint (R134).
Argument: a, the packet; b = 1, the answer of the directory's home on another cube, with the entry in c; b = 2, that cube asks for the name in d of the tenant in e, with its own cube in c; b = 3, the supervisor enters c as the entry of d of tenant e (R133). -/
def execDirectoryLookup (s : State) : Host.Outcome State Fault Refusal :=
  let g := s.arg
  .next (
    if g.b = 3 then s.setTenant g.e { s.tenant g.e with dir := smPut 0 (s.tenant g.e).dir g.d g.c }
    else if g.b = 2 then
      s.sendTo g.c 1 .directoryLookup { EvArg.zero with a := g.a, b := 1, c := smGet 0 (s.tenant g.e).dir g.d }
    else
      match s.net.find? (fun p => p.id == g.a) with
      | none => s
      | some p =>
        let name := hdrEnd p.hdr
        let e := if g.b = 1 then g.c else smGet 0 (s.tenant p.tenant).dir name
        if e = 0 ∧ g.b ≠ 1 ∧ s.peers ≠ [] then
          { s with net := s.net.map (fun (q : Packet) => if q.id = p.id then { q with asked := true } else q) }.sendOut .directoryLookup
            { EvArg.zero with a := p.id, b := 2, c := s.cube, d := name, e := p.tenant }
        else s.directed p e)

/-- STUB_FORWARD: a stub sends a packet on with one more hop, and a moved notice to its source core; after four hops the directory decides (R135).
Argument: a, the packet. -/
def execStubForward (s : State) : Host.Outcome State Fault Refusal :=
  .next (
    match s.net.find? (fun p => p.id == s.arg.a) with
    | none => s
    | some p =>
      let name := hdrEnd p.hdr
      match s.stubOf p.core name with
      | none => s
      | some b =>
        if 4 ≤ p.hops then { s with net := s.net.map (fun (q : Packet) => if q.id = p.id then { q with hops := 5 } else q) }
        else
          let e := threadEntry b.cube b.core
          let key := dirKey p.tenant name
          let s := s.forwardPacket { p with cube := b.cube, core := b.core, hops := p.hops + 1 }
          if p.scube = s.cube then { s with notices := s.notices ++ [⟨p.score, key, e⟩] }
          else s.sendTo p.scube 3 .movedNotice { EvArg.zero with a := p.score, b := 1, c := key, e := e })

/-- MOVED_NOTICE: the source core replaces its entry for the name (R135).
Argument: b = 1, a notice from another cube: core in a, key in c, entry in e; else the first notice on its way in this cube. -/
def execMovedNotice (s : State) : Host.Outcome State Fault Refusal :=
  let g := s.arg
  .next (
    if g.b = 1 then s.cacheDir g.a g.c g.e
    else
      match s.notices with
      | [] => s
      | n :: r => { s with notices := r }.cacheDir n.core n.key n.entry)

end Sys2Proof.Machine
end

