-- ==== Sys2Proof/Machine/Threads.lean ====
section
/-! DEFINITION. Threads: allocation, `end`, termination, `yield`, `self`, `live`, starting activations, spill and reload, and the save record (R116 to R123, R131, R143 to R147, R371 to R379, R457). -/

namespace Sys2Proof.Machine

/-! ### The vector bank of a pre-empted thread -/

/-- The dispatch number and the word of an instruction as a record holds them (R374). -/
def vopRecord (o : VOp) : List Byte :=
  toBytes o.pc.toNat 8 ++ toBytes (((encode o.instr).headD 0) % 2 ^ 32 + o.seq % 2 ^ 16 * 2 ^ 32) 8

/-- What a saved bank writes to its record: the registers of vlive, the predicates, the marks, and the vector work that has not started (R374). -/
def bankParts (b : VBank) (vlive : Word) (ops : List VOp) (rep : Option Rep) : List (Nat × List Byte) :=
  let live := (upTo 32).filter (fun i => bitAt vlive.toNat i)
  let marks := packBits (fun i => if b.marked i then 1 else 0) 1 live
  let regs := live.map (fun i => (128 * i, toBytes (smGet VCell.zero b.v i).val.toNat 128))
  let preds := (upTo 8).map (fun i => (0x1000 + 16 * i, toBytes (smGet (0 : BitVec 128) b.p i).toNat 16))
  let head := [(0x1080, toBytes (marks + vlive.toNat % 2 ^ 32 * 2 ^ 32) 8), (0x1088, toBytes (ops.length + rep.isSome.toNat * 2 ^ 16) 8)]
  let work := (upTo ops.length).map (fun i => (0x1090 + 16 * i, (ops.map vopRecord).getD i []))
  let tail := match rep with
    | none => []
    | some r => [(0x1190, toBytes (r.word % 2 ^ 32 + r.pass % 2 ^ 16 * 2 ^ 32 + r.pos % 16 * 2 ^ 48) 8),
                 (0x11A0, takeD 0 64 (r.body.flatMap (fun w => toBytes w 4)))]
  regs ++ preds ++ head ++ work ++ tail

/-- A bank read back from its record (R374, R377). -/
def bankOf (b : List Byte) : VBank × Word :=
  let w := fieldAt b 0x1080 8
  let vlive := bits w 63 32
  let v := ((upTo 32).filter (fun i => bitAt vlive i)).foldl (fun m i =>
    smPut VCell.zero m i ⟨BitVec.ofNat 1024 (fieldAt b (128 * i) 128), bitAt w i⟩) []
  let p := (upTo 8).foldl (fun m i => smPut (0 : BitVec 128) m i (BitVec.ofNat 128 (fieldAt b (0x1000 + 16 * i) 16))) []
  ({ v := v, p := p, tag := none, fresh := false, bad := [] }, BitVec.ofNat 64 vlive)

/-- Unstarted vector instructions of a thread, oldest first; passes are none of them. -/
def State.unstarted (s : State) (uid : Nat) : List VOp := s.vops.filter (fun o => o.agent == uid && o.out.isNone && !o.isPass)

/-- The repetition of a context with the passes that have been handed on and not started taken back into its buffer (R374). -/
def State.rewound (s : State) (k uid : Nat) : Option Rep :=
  (s.reps.find? (fun r => r.key == k)).map (fun r =>
    match s.vops.find? (fun o => o.agent == uid && o.isPass && o.out.isNone && o.ord == r.id) with
    | none => r
    | some o =>
      let n := (o.seq + 65536 - r.seq0 % 65536) % 65536
      { r with pass := n / r.body.length, pos := n % r.body.length })

/-! ### The end of a thread -/

/-- A late fault of a thread that has ended goes to the steward of its core (R119, R370). -/
def State.orphan (s : State) (core : Nat) (r : RingEntry) (l : Late) : State :=
  let c := s.core core
  let s := s.setCore core { c with ring := c.ring.map (fun e => if e = r then { e with fault := some l, orphan := true } else e) }
  s.raise core { StewEvent.of r.tenant l.cause l.sub l.val.toNat with orphan := true, seq := r.seq, words := [0, BitVec.ofNat 64 r.name] }

/-- The late faults of a thread that are still pending when it ends (R370). -/
def State.orphanAll (s : State) (core uid : Nat) : State :=
  ((s.core core).ring.filter (fun r => r.agent == uid && r.fault.isSome && !r.orphan)).foldl (fun s r =>
    match r.fault with
    | some l => s.orphan core r l
    | none => s) s

/-- An ending thread waits for its producers, timelines and vector work (R119). -/
def State.endReady (s : State) (k : Nat) : Bool :=
  let x := s.ctx k
  x.regs.all (fun r => r.2.st != .pending) && x.tls.all (fun t => t.2.done == t.2.issued)
    && !s.reqs.any (fun r => match r.dest with
      | .reg _ _ => r.agent == x.uid
      | .pair _ => r.agent == x.uid
      | _ => r.onPartner k x.uid)
    && !s.vops.any (fun o => o.agent == x.uid) && !s.reps.any (fun r => r.key == k)

/-- Steps 3, 5 and 6 of R119 for a thread: groups, parcels and mailbox slots. -/
def State.unbind (s : State) (x : Ctx) : State :=
  let s := (s.leaveGroups x.uid).untake x.uid
  match x.act with
  | some a => s.setCounter a.counter ((s.counter a.counter).endAct a.aid)
  | none => s

/-- The thread of a context has ended: steps 3 to 7 of R119; a moth frees its held home context as well (R228). -/
def State.finishThread (s : State) (k : Nat) : State :=
  let x := s.ctx k
  let s := (s.writeOutAll x.uid).orphanAll (k / 16) x.uid
  let s := (s.leaveArray (k / 16) x.uid).unbind x
  let s := s.setCtx k x.freed
  match x.home with
  | some h =>
    if h.cube = s.cube then
      match s.heldHome x.uid with
      | some j => s.setCtx j (s.ctx j).freed
      | none => s
    else s.sendTo h.cube 1 .mothReturn { EvArg.zero with a := x.name, b := 2, c := h.core, d := h.ctx }
  | none => s

/-- `end` (R119): the context stops issuing and waits; the machine finishes the thread once nothing is pending. -/
def execEndThread (s : State) : Host.Outcome State Fault Refusal :=
  .next (s.issue useNothing
    (if s.cur.2 = 8 then endEvent (s.leaveArray s.cur.1 s.agent) s.cur.1
     else
       let s := s.setSelf { (s.self.feed .endThread).issuedAt s.cycle with ending := true, park := some .drained }
       if s.endReady s.me then s.finishThread s.me else s))

/-! ### Termination -/

/-- The responses and vector work that a killed thread no longer receives (R379): its producers have no destination, unstarted vector work and cistern invocations go, started work writes nothing. -/
def State.discardWork (s : State) (uid k : Nat) : State :=
  let drop (r : Req) : Bool := r.agent == uid && r.kind == .status
  let mute (r : Req) : Req := if r.agent = uid then
      { r with dest := match r.dest with
        | .reg _ _ => .none
        | .pair _ => .none
        | d => d }
    else r
  { s with reqs := (s.reqs.filter (fun r => !drop r)).map mute
           reps := s.reps.filter (fun r => r.key ≠ k)
           invs := s.invs.filter (fun i => i.agent ≠ uid)
           vops := (s.vops.filter (fun o => !(o.agent == uid && o.out.isNone))).map (fun o =>
             if o.agent = uid then { o with out := some ⟨none, none, none, 0, none⟩ } else o) }

/-- The ring entries of work that no longer exists: unstarted vector instructions and passes of a thread, and its cistern invocations. -/
def State.dropRing (s : State) (core uid : Nat) : State :=
  let c := s.core core
  let live (r : RingEntry) : Bool := r.agent != uid || (r.kind != 4 && r.kind != 5) || r.fault.isSome || s.vops.any (fun o => o.agent == uid && o.seq == r.seq && o.out.isSome)
  s.setCore core { c with ring := c.ring.filter live }

/-- TERMINATION of the thread in a context, at its instruction boundary (R379). -/
def State.killCtx (s : State) (k : Nat) : State :=
  let x := s.ctx k
  let s := (s.discardWork x.uid k).dropRing (k / 16) x.uid
  let s := s.dropWaiters (fun w => !w.isCmd && w.who == k)
  { s with sems := s.sems.map (fun (e : Nat × Sem) => (e.1, { e.2 with taken := e.2.taken.filter (· ≠ k) })) }.finishThread k

/-- Termination of a spilled or held thread, or of one in an inbox: its slots and record are freed (R379). -/
def State.killStored (s : State) (t : Stored) : State :=
  let s := ((s.discardWork t.ctx.uid (2 ^ 40)).dropRing t.goal t.ctx.uid).orphanAll t.goal t.ctx.uid
  let s := { s with stored := s.stored.filter (fun u => u ≠ t)
                    vbanks := s.vbanks.filter (fun e => e.2.tag ≠ some t.ctx.uid) }
  let s := (s.leaveArray t.goal t.ctx.uid).unbind t.ctx
  match s.heldHome t.ctx.uid with
  | some j => s.setCtx j (s.ctx j).freed
  | none => s

/-! ### Allocation -/

/-- The endpoint name of a new thread of a context (R133). -/
def State.freshName (s : State) (core ctx : Nat) : Nat :=
  2 ^ 31 + s.cube * 2 ^ 18 + core * 2 ^ 9 + smGet 0 (s.core core).gens ctx % 32 * 16 + ctx

/-- s57 at a handler's start (R118). -/
def startWord (c : Counter) (idx : Nat) (p : PendAct) : Word :=
  BitVec.ofNat 64 (idx + p.msgs * 2 ^ 8 + c.pending.length * 2 ^ 16 + p.byLaunch.toNat * 2 ^ 24)

/-- What allocation makes of a context (R117, R118). -/
def Ctx.allocate (old : Ctx) (uid name : Nat) (p : PendAct) (lid key : Nat) (s57 : Word) (now : Nat) : Ctx :=
  let s56 : Word := if p.msgs = 0 then 0 else BitVec.ofNat 64 (localBase + p.first)
  { Ctx.free with
    occ := true, uid := uid, name := name, tenant := p.tenant, job := p.job, lid := lid, launch := p.launch, pc := p.entry
    regs := smPut Cell.zero (smPut Cell.zero [] 56 ⟨s56, .full, false⟩) 57 ⟨s57, .full, false⟩
    chain := old.chain, rect := p.rect, prio := p.prio, act := some ⟨key, p.aid, p.msgs⟩, issued := now }

/-- The vector bank of a context at an allocation: cleared, unless a pre-empted thread's state still stands in it (R117, R375). -/
def State.clearBank (s : State) (k : Nat) : State :=
  if (s.vbank k).tag.isSome then s else s.setVbank k VBank.zero

/-- A new thread of a launch is a member of the launch's group before its first instruction (R172). -/
def State.joinFirst (s : State) (k group : Nat) : State :=
  let x := s.ctx k
  if (s.group x.tenant group).any (fun g => (g.member x.uid).isSome) then s.setCtx k { x with groups := [group] } else s

/-- A new thread for the first pending activation of a counter, in a context of its core (R117, R131). -/
def State.allocate (s : State) (key i : Nat) (p : PendAct) (rest : List PendAct) : State :=
  let core := key / 64
  let k := ctxKey core i
  let c := { s.counter key with pending := rest, running := (s.counter key).running ++ [p.aid] }
  let name := s.freshName core i
  let lid := ((s.launch p.launch).map (·.lid)).getD 0
  let uid := if p.uid = 0 then s.nid else p.uid
  let s := (if p.uid = 0 then { s with nid := s.nid + 1 } else s).setCounter key c
  let co := s.core core
  let s := s.setCore core { co with gens := smPut 0 co.gens i (smGet 0 co.gens i + 1) }
  let s := (s.clearBank k).setPinQ k []
  let s := s.setCtx k ((s.ctx k).allocate uid name p lid key (startWord c (key % 64) p) s.cycle)
  if p.group = 0 then s else s.joinFirst k p.group

/-- The unmasked counters of a core with pending activations: index and the priority of the first. -/
def State.pendingCtrs (s : State) (core : Nat) : List (Nat × PendAct) :=
  (upTo 64).filterMap (fun i =>
    let c := s.counter (ctrKey core i)
    if c.mask then none else c.pending.head?.map (fun p => (i, p)))

/-- The first number of a list after a given one, wrapping. -/
def afterWrap (last : Nat) (l : List Nat) : Option Nat :=
  match l.find? (fun i => decide (last < i)) with
  | some i => some i
  | none => l.head?

/-- The counter whose activation starts next: the highest priority, then in rotation after the last one chosen (R131). -/
def State.bestCtr (s : State) (core : Nat) : Option (Nat × PendAct) :=
  let l := s.pendingCtrs core
  match l with
  | [] => none
  | x :: xs =>
    let q := xs.foldl (fun m e => min m e.2.prio) x.2.prio
    let same := l.filter (fun e => e.2.prio == q)
    match afterWrap (smGet 64 (s.core core).lastCtr q) (same.map (·.1)) with
    | some i => same.find? (fun e => e.1 == i)
    | none => none

/-- The oldest ready spilled thread of highest priority on a core; threads of a relocation inbox compete as they do (R147, R226). -/
def State.bestReady (s : State) (core : Nat) : Option Stored :=
  (s.stored.filter (fun t => t.goal == core && decide (t.slot ≤ 24) && t.ready && !t.held)).foldl (fun acc t =>
    match acc with
    | none => some t
    | some u => if t.ctx.prio < u.ctx.prio then some t else some u) none

/-- The free contexts of a core that can be allocated: no partner vector load is landing in one (R230). -/
def State.allocatable (s : State) (core : Nat) : List Nat :=
  (s.freeCtxs core).filter (fun i => !s.reqs.any (fun r => match r.dest with
    | .vec c j _ _ => c == core && j == i
    | _ => false))

/-- Whether the next free context goes to an activation (true) or to a ready spilled thread (R147). -/
def State.activationNext (s : State) (core : Nat) : Option Bool :=
  match s.bestCtr core, s.bestReady core with
  | none, none => none
  | some _, none => some true
  | none, some _ => some false
  | some (_, p), some t => some (decide (p.prio < t.ctx.prio))

/-- ACTIVATION_START: the core starts a pending activation (R131); one of a cancelled job starts no thread (R459).
Argument: a, the core. -/
def execActivationStart (s : State) : Host.Outcome State Fault Refusal :=
  let core := s.arg.a
  .next (
    match s.bestCtr core with
    | none => s
    | some (idx, p) =>
      let key := ctrKey core idx
      let c := s.counter key
      let rest := c.pending.tail
      let co := s.core core
      let s := s.setCore core { co with lastCtr := smPut 64 co.lastCtr p.prio idx }
      if s.cancelled p.tenant p.job then (s.leaveGroups p.uid).setCounter key ({ c with pending := rest }.endAct p.aid)
      else
        let free := s.allocatable core
        let chained := free.filter (fun i => p.byLaunch && chainOn (s.ctx (ctxKey core i)))
        match (if chained = [] then free else chained) with
        | [] => s
        | f :: fs =>
          let (i, s) := s.pick f (f :: fs)
          s.allocate key i p rest)

/-! ### Spill and reload -/

/-- Vector work of a thread or partner vector accesses that are incomplete, for both contexts of the pair (R184, R230). -/
def State.vectorOut (s : State) (k uid : Nat) : Bool :=
  s.vops.any (fun o => o.agent == uid) || s.reps.any (fun r => r.key == k) || s.reqs.any (fun r => r.onPartner k uid)

/-- A parked thread may be spilled (R143, R184, R230). -/
def State.spillable (s : State) (k : Nat) : Bool :=
  let x := s.ctx k
  x.occ && k % 16 != 8 && x.stopped.isNone && !x.dying
    && (match x.park with
      | some (.reg r) => r.val != 0 && decide (r.val < 60) && (x.cell r.val).st != .full
      | _ => false)
    && !s.vectorOut k x.uid
    && x.vlive == 0 && x.tls.all (fun t => t.2.done == t.2.issued) && x.fits && !chainOn x
    && s.pinQ k == [] && (decide (256 ≤ k / 16) || s.pinQ (ctxKey (partner (k / 16)) (k % 16)) == [])
    && !s.ownsArray (k / 16) x.uid && x.home.isNone

/-- The victim of a spill for an activation of priority q: the lowest priority below it, then the longest parked, then the lowest context (R144). -/
def State.spillVictim (s : State) (core q : Nat) : Option Nat :=
  ((upTo 8).filter (fun i => s.spillable (ctxKey core i) && decide (q < (s.ctx (ctxKey core i)).prio))).foldl (fun acc i =>
    match acc with
    | none => some i
    | some j =>
      let x := s.ctx (ctxKey core i)
      let y := s.ctx (ctxKey core j)
      if y.prio < x.prio || (y.prio == x.prio && decide (x.since < y.since)) then some i else some j) none

/-- The lowest free spill slot of a core; frames take two (R144, R372). -/
def State.freeSlots (s : State) (core : Nat) : List Nat :=
  (upTo 24).filter (fun k => !s.stored.any (fun t => t.core == core && (t.slot == k || (t.frame && t.slot + 1 == k))))

/-- The register a context is parked on, 0 for none. -/
def Ctx.parkedOn (x : Ctx) : Nat := match x.park with
  | some (.reg r) => r.val
  | _ => 0

/-- SPILL: the thread that gives way to a pending activation goes to a slot (R131, R144, R145, R234).
Argument: a, the core. -/
def execSpill (s : State) : Host.Outcome State Fault Refusal :=
  let core := s.arg.a
  .next (
    match s.bestCtr core, s.freeSlots core with
    | some (_, p), slot :: _ =>
      match s.spillVictim core p.prio with
      | none => s
      | some i =>
        let k := ctxKey core i
        let x := s.ctx k
        let s := s.writeOutAll x.uid
        let s := s.dieWrite (localKey core (slotOff slot)) (x.slotBytes core x.parkedOn)
        let t : Stored := { core := core, goal := core, slot := slot, frame := false, held := false, ready := (x.cell x.parkedOn).st == .full
                            reg := x.parkedOn, ret := false, recOf := k, msgs := [], pins := 0, vops := [], rep := none, ctx := { x with regs := [], park := none } }
        { s with stored := s.stored ++ [t] }.setCtx k x.freed
    | _, _ => s)

/-- A thread of another core's kind cannot be killed here; a failed load of a record kills the thread and raises the save failure (R370, R375). -/
def State.saveFailed (s : State) (t : Stored) : State :=
  (s.killStored t).raise t.goal (StewEvent.msg t.ctx.tenant 0x02 t.ctx.name 0 0)

/-- The messages of a record's buffer as packets that wait until their counters take them (R377). -/
def State.bufferedPackets (s : State) (t : Stored) (b : List Byte) : List Packet :=
  (upTo t.msgs.length).map (fun n =>
    let ws := (upTo 8).map (fun j => BitVec.ofNat 64 (fieldAt b (0x1400 + 64 * n + 8 * j) 8))
    let w0 := (ws.headD 0).toNat
    { id := s.nid + n, kind := .message, req := 0, scube := s.cube, score := t.goal, src := w0 % 2 ^ 32, tenant := t.ctx.tenant
      job := t.msgs.getD n 0, hdr := BitVec.ofNat 64 (w0 / 2 ^ 32 * 2 ^ 32 + t.ctx.name), words := [], cube := s.cube, core := t.goal
      hops := 0, asked := false, target := 0, firm := ws })

/-- The partner entries of a record (R374, R377). -/
def bufferedEntries (pins : Nat) (b : List Byte) : List QEnt :=
  let w := fieldAt b 0x11E0 8
  (upTo (min pins 32)).map (fun i => ⟨0, true, BitVec.ofNat 64 (fieldAt b (0x11E8 + 8 * i) 8), bitAt w (32 + i)⟩)

/-- The work of an invocation that starts again from its arguments (R347). -/
def Inv.again (n : Inv) : Inv :=
  { n with pages := [], pos := 0, ca := [], x := [], xbad := [], bad := none, got := [], outs := [], push := 0, result := none, seqs := [], fault := none, since := 0, asked := false }

/-- The invocations of a thread SUSPENDED when it is pre-empted, the pushes that they issued aborted with them (R343, R345, R347). -/
def State.suspendInvs (s : State) (uid : Nat) : State :=
  { s with invs := s.invs.map (fun i => if i.agent = uid then { i.again with st := .suspended } else i)
           cmds := s.cmds.filter (fun c => !(c.tl == 4 && c.agent == uid)) }

/-- The SUSPENDED invocations of a thread QUEUED again, at the tail (R343). -/
def State.resumeInvs (s : State) (uid : Nat) : State :=
  let mine (i : Inv) : Bool := i.agent == uid && i.st == .suspended
  { s with invs := s.invs.filter (fun i => !mine i) ++ (s.invs.filter mine).map (fun (i : Inv) => { i with st := .queued }) }

/-- The save record holds something of a thread: vector state, `pin` entries or messages (R373, R374). -/
def Stored.needsRecord (t : Stored) (img : List Byte) : Bool :=
  (t.frame && bitAt (fieldAt img 0x28 8) 50) || t.pins != 0 || !t.msgs.isEmpty

/-- The end of a bank's save (R375). -/
inductive Saved where
  | done (s : State)
  | wait (s : State)

/-- The bank tagged with a held thread is written to its record and cleared; a save that faults kills the thread (R374, R375). -/
def State.saveBank (s : State) (k : Nat) : Saved :=
  let b := s.vbank k
  match b.tag.bind (fun u => s.storedOf u) with
  | none => .done (s.setVbank k VBank.zero)
  | some t =>
    match s.recordAt t.ctx.tenant (t.recOf / 16) (t.recOf % 16) true with
    | .fault _ _ => .done (s.saveFailed t)
    | .wait pa => .wait (s.ask pa 8)
    | .ok pa attr =>
      match s.putParts ⟨t.ctx.tenant, 0⟩ pa attr (bankParts b t.ctx.vlive t.vops t.rep) with
      | none => .wait (s.partsWait pa (bankParts b t.ctx.vlive t.vops t.rep))
      | some s =>
        let o := slotOff t.slot + 0x28
        .done ((s.localPut t.core o 8 (setBit (s.localGet t.core o 8) 50 true)).setVbank k VBank.zero)

/-- VECTOR_STATE_SAVE: a pre-empted thread's bank leaves its context (R375).
Argument: a, the context's key. -/
def execVectorStateSave (s : State) : Host.Outcome State Fault Refusal :=
  .next (match s.saveBank s.arg.a with
    | .done s => s
    | .wait s => s)

/-- A stored thread leaves its slot or frame, with its buffered messages on their way to its counters (R377). -/
def State.unbuffer (s : State) (t : Stored) (b : List Byte) : State :=
  { s with stored := s.stored.filter (fun u => u ≠ t), net := s.bufferedPackets t b ++ s.net, nid := s.nid + t.msgs.length }

/-- A spilled thread in its context, with the messages that its record's buffer took while it was held (R147, R377). -/
def State.loadSlot (s : State) (t : Stored) (i : Nat) (b : List Byte) : State :=
  let k := ctxKey t.goal i
  let img := (s.dieRead (localKey t.core (slotOff t.slot)) 512).1
  let s := ((s.unbuffer t b).clearBank k).setPinQ k []
  s.setCtx k { t.ctx.fromSlot t.goal img with occ := true, issued := s.cycle, chain := (s.ctx k).chain }

/-- A frame's thread in its context, with what its record holds; a bank that still stands in another context of the core moves with it (R377). -/
def State.loadFrame (s : State) (t : Stored) (i : Nat) (b : List Byte) : State :=
  let k := ctxKey t.goal i
  let img := (s.dieRead (localKey t.core (slotOff t.slot)) 1024).1
  let saved := bitAt (fieldAt img 0x28 8) 50
  let x := { t.ctx.fromFrame t.core img with occ := true, issued := s.cycle, chain := (s.ctx k).chain }
  let (bank, vlive) := bankOf b
  let s := s.unbuffer t b
  let s := if saved then s.setVbank k bank
    else
      match s.vbanks.find? (fun e => e.2.tag == some t.ctx.uid) with
      | none => s.clearBank k
      | some e => (s.setVbank e.1 VBank.zero).setVbank k { e.2 with tag := none }
  let s := { s with vops := s.vops ++ t.vops.map (fun (o : VOp) => { o with core := t.goal, ctx := i })
                    reps := s.reps ++ (t.rep.map (fun (r : Rep) => { r with key := k })).toList }
  let s := s.resumeInvs t.ctx.uid
  let s := s.setPinQ k (bufferedEntries t.pins b)
  let tile := tileOf t.goal
  let a := s.array tile
  let s := if kindOf t.goal == .e && a.owner.any (fun (o : Nat × Nat) => o.1 == x.uid) then s.setArray tile { a with owner := some (x.uid, i) } else s
  s.setCtx k { x with vlive := if saved then vlive else x.vlive }

/-- The contexts for a thread: of a held one those in which its own bank stands, else those without another's bank, else any (R375). -/
def State.loadChoices (s : State) (t : Stored) (free : List Nat) : List Nat :=
  let own := free.filter (fun i => (s.vbank (ctxKey t.goal i)).tag == some t.ctx.uid)
  let clear := free.filter (fun i => (s.vbank (ctxKey t.goal i)).tag.isNone)
  if !t.frame then free else if own ≠ [] then own else if clear ≠ [] then clear else free

/-- A ready thread loaded into a context; a bank of another held thread that stands there goes to its record first when no context is without one, a case that R375 does not name. DESIGN CHOICE, unsafe: log entry 90. -/
def State.intoContext (s : State) (t : Stored) (i : Nat) (b : List Byte) : State :=
  let k := ctxKey t.goal i
  if !t.frame then s.loadSlot t i b
  else if (s.vbank k).tag.any (· ≠ t.ctx.uid) then
    match s.saveBank k with
    | .done s => s.loadFrame t i b
    | .wait s => s
  else s.loadFrame t i b

/-- RELOAD: a ready spilled thread, or one that RESUME has made ready, comes back into a free context (R147, R377); a thread of the inbox comes by MOTH_LOAD (R226).
Argument: a, the core. -/
def execReload (s : State) : Host.Outcome State Fault Refusal :=
  let core := s.arg.a
  .next (
    match s.bestReady core, s.allocatable core with
    | some t, f :: fs =>
      if t.slot = 24 then s
      else if !t.needsRecord (s.dieRead (localKey t.core (slotOff t.slot)) 1024).1 then
        let (i, s) := s.pick f (s.loadChoices t (f :: fs))
        s.intoContext t i []
      else
        match s.recordAt t.ctx.tenant (t.recOf / 16) (t.recOf % 16) false with
        | .fault _ _ => s.saveFailed t
        | .wait pa => s.ask pa 8
        | .ok pa _ =>
          match s.unitRead t.ctx.launch pa 0x2000 with
          | none => s.ask pa 0x2000
          | some ((b, bad), s) =>
            if bad then s.saveFailed t
            else
              let (i, s) := s.pick f (s.loadChoices t (f :: fs))
              s.intoContext t i b
    | _, _ => s)

/-! ### Thread control -/

/-- `yield` (R120): the context goes to the tail of its class's order and its starvation count is reset. -/
def execYield (s : State) : Host.Outcome State Fault Refusal :=
  .next (s.issue useNothing
    (if s.cur.2 = 8 then s.finish .yield
     else
       let c := s.core s.cur.1
       (s.setCore s.cur.1 { c with last := smPut 8 c.last s.self.prio s.cur.2 }).finish .yield))

/-- The word of `self` without a context number (R121, R172). -/
def State.selfWord (s : State) (core : Nat) : Nat :=
  let side := if core < 256 then core % 2 else 0
  let t := tileOf core
  match (if core < 256 then (s.tile t).owner else none) with
  | none => side * 2 ^ 32
  | some id =>
    match s.launch id with
    | none => side * 2 ^ 32
    | some l => side * 2 ^ 32 + l.h * 2 ^ 24 + l.w * 2 ^ 16 + (t / 16 - l.y) * 2 ^ 8 + (t % 16 - l.x)

/-- `self` (R121). -/
def execSelfId (d : Reg) (s : State) : Host.Outcome State Fault Refusal :=
  .next (s.run0 (.selfId d) d (BitVec.ofNat 64 (s.selfWord s.cur.1 + s.cur.2 % 8 * 2 ^ 33)))

/-- The live mask with one segment replaced (R48, R122); a segment 3 leaves bits 60 to 63, which stand for no register, as they are. DESIGN CHOICE, unsafe: log entry 76. -/
def liveSegment (m : Word) (k : Nat) (v : Nat) : Word :=
  let n := if k = 3 then 5 else 18
  let lo := 18 * k + 1
  BitVec.ofNat 64 (m.toNat - bits m.toNat (lo + n - 1) lo * 2 ^ lo + v % 2 ^ n * 2 ^ lo)

/-- `live` (R122). -/
def execLive (k : Fin 4) (m : BitVec 18) (s : State) : Host.Outcome State Fault Refusal :=
  .next (s.issue useNothing ((s.setSelf { s.self with live := liveSegment s.self.live k.val m.toNat }).finish (.live k m)))

end Sys2Proof.Machine
end

