-- ==== Sys2Proof/Machine/Launch.lean ====
section
/-! DEFINITION. The launch unit: launch parameter blocks, the lifecycle, admission, commit and completion (R149, R158 to R160, R169 to R176, R211, R261, R381, R391, R450, R451, R454). -/

namespace Sys2Proof.Machine

/-! ### The fields of an LPB (R169) -/

/-- Dword i of the LPB. -/
def Launch.dword (l : Launch) (i : Nat) : Nat := l.lpb.getD i 0
/-- Handler entry. -/
def Launch.entry (l : Launch) : Word := BitVec.ofNat 64 (l.dword 1)
/-- Contexts per core. -/
def Launch.contexts (l : Launch) : Nat := bits (l.dword 3) 58 56 + 1
/-- Sides: 1 A-core, 2 E-core, 3 both. -/
def Launch.sides (l : Launch) : Nat := bits (l.dword 3) 55 54
/-- Completion scope. -/
def Launch.scope (l : Launch) : Nat := bits (l.dword 3) 53 52
/-- The launch is guarded. -/
def Launch.guarded (l : Launch) : Bool := bitAt (l.dword 3) 43
/-- Priority. -/
def Launch.prio (l : Launch) : Nat := bits (l.dword 3) 42 41
/-- Rows of tiles asked for. -/
def Launch.height (l : Launch) : Nat := bits (l.dword 3) 40 37
/-- Columns of tiles asked for. -/
def Launch.width (l : Launch) : Nat := bits (l.dword 3) 36 32
/-- The prerequisites that are named. -/
def Launch.prereqs (l : Launch) : List Nat :=
  [l.dword 4 % 2 ^ 32, l.dword 4 / 2 ^ 32, l.dword 5 % 2 ^ 32, l.dword 5 / 2 ^ 32].filter (· ≠ 0)
/-- Chain code. -/
def Launch.chainCode (l : Launch) : Nat := bits (l.dword 6) 33 32
/-- Group handle, 0 for none. -/
def Launch.group (l : Launch) : Nat := l.dword 6 % 2 ^ 32
/-- Completion record address. -/
def Launch.record (l : Launch) : Nat := l.dword 7

/-- A field breaks its rule, the work-unit count apart (R169, R170). -/
def lpbBad (l : Launch) : Bool :=
  let c := l.dword 3
  l.lid == 0 || bits (l.dword 0) 31 24 != 0 || l.dword 1 % 4 != 0 || bits c 63 59 != 0 || l.sides == 0
    || decide (6 ≤ bits c 51 49) || decide (6 ≤ bits c 48 46) || l.height == 0 || decide (8 < l.height)
    || l.width == 0 || decide (16 < l.width) || bits (l.dword 6) 63 34 != 0 || l.record % 64 != 0

/-- An active launch (R170). -/
def Launch.active (l : Launch) : Bool := match l.st with
  | .rejected => false
  | .failed => false
  | _ => true

/-- A launch that holds an entry of its tenant's buffer (R451). -/
def Launch.buffered (l : Launch) : Bool := match l.st with
  | .received => true
  | .waiting => true
  | .placing => true
  | _ => false

/-- The launch buffer of a tenant is full (R451). -/
def State.bufferFull (s : State) (tenant : Nat) : Bool :=
  decide (64 ≤ (s.launches.filter (fun l => l.tenant == tenant && l.buffered)).length)

/-- A launch as an LPB makes it. -/
def State.newLaunch (s : State) (tenant : Nat) (lpb : List Nat) (slot : Option (Nat × Nat)) : Launch :=
  { id := s.nid, tenant := tenant, lid := lpb.getD 0 0 / 2 ^ 32, job := lpb.getD 0 0 % 2 ^ 24, lpb := lpb, st := .received, status := 0
    admitAt := s.time, placing := 0, head := false, engine := false, cand := 0, left := 0, tiles := [], conflicts := 0, backoff := none
    placed := false, x := 0, y := 0, w := 0, h := 0, next := 0, moved := [], leaving := [], done := 0, starved := [], guard := .none, lost := false
    consumed := 0, replays := 0, visited := [], phase := 0, dup := false, ownsGroup := false, slot := slot }

/-- The number of tiles granted to a tenant. -/
def State.granted (s : State) (tenant : Nat) : Nat := popCount (s.tenant tenant).tiles 128

/-- A launch accepted and validated: WAITING, or REJECTED with its status (R170, R171, R459). -/
def State.accept (s : State) (tenant : Nat) (lpb : List Nat) (slot : Option (Nat × Nat)) : State :=
  let l := s.newLaunch tenant lpb slot
  let dup := s.launches.any (fun m => m.tenant == tenant && m.lid == l.lid && m.active)
  let bad := lpbBad l || l.prereqs.contains l.lid || decide (s.granted tenant < l.width * l.height) || dup
  let l :=
    if s.cancelled tenant l.job then { l with st := .rejected, status := 5, dup := dup }
    else if bad then { l with st := .rejected, status := 3, dup := dup }
    else if 2 ^ 24 ≤ l.count then { l with st := .rejected, status := 1 }
    else { l with st := .waiting }
  { s with nid := s.nid + 1, launches := s.launches ++ [l] }

/-- LAUNCH_MESSAGE: a message to the launch endpoint delivers the address of an LPB (R169, R451).
An LPB that cannot be read is taken and has no further effect (log entry 60).
Argument: a, the packet. -/
def execLaunchMessage (s : State) : Host.Outcome State Fault Refusal :=
  .next (
    match s.net.find? (fun p => p.id == s.arg.a) with
    | none => s
    | some p =>
      let va := ((s.messageWords p).getD 1 0).toNat
      if s.cancelled p.tenant p.job then s.settlePacket p 4
      else if s.bufferFull p.tenant then s.settlePacket p 1
      else
        match s.xlate p.tenant va false false with
        | .wait pa => s.ask pa 8
        | .fault _ _ => s.settlePacket p 0
        | .ok pa _ =>
          match s.unitRead 0 pa 64 with
          | none => s.ask pa 64
          | some ((b, bad), s) =>
            if bad then s.settlePacket p 0
            else (s.accept p.tenant ((upTo 8).map (fun i => fieldAt b (8 * i) 8)) none).settlePacket p 0)

/-! ### Prerequisites -/

/-- The status with which a prerequisite has completed; none while it is active. A launch that was rejected or has failed counts from then on, before its record is written (R170, R171). -/
def State.prereq (s : State) (tenant lid : Nat) : Option Nat :=
  let named (m : Launch) : Bool := m.tenant == tenant && m.lid == lid && decide (m.phase < 2)
  if s.launches.any (fun m => named m && m.active) then none
  else
    match (s.launches.filter (fun m => named m && !m.dup)).getLast? with
    | some m => some m.status
    | none => some (((s.history.find? (fun h => h.tenant == tenant && h.lid == lid)).map (·.status)).getD 0)

/-- The prerequisites of a launch: none while one is active, else whether all completed with OK or GUARD-LOST. -/
def State.prereqs (s : State) (l : Launch) : Option Bool :=
  let r := l.prereqs.map (s.prereq l.tenant)
  if r.any (fun x => x.any (fun st => st != 0 && st != 4)) then some false
  else if r.any (·.isNone) then none
  else some true

/-- PREREQUISITES_MET (R171, R176).
Argument: a, the launch. -/
def execPrerequisitesMet (s : State) : Host.Outcome State Fault Refusal :=
  .next (
    match s.launch s.arg.a with
    | none => s
    | some l =>
      if l.st ≠ .waiting then s
      else
        match s.prereqs l with
        | none => s
        | some false => s.mapLaunch l.id (fun l => { l with st := .failed, status := 2 })
        | some true =>
          if l.count = 0 then s.mapLaunch l.id (fun l => { l with st := .completing })
          else s.mapLaunch l.id (fun l => { l with st := .placing, placing := s.time }))

/-! ### Admission -/

/-- The number of candidate origins (R158). -/
def Launch.candidates (l : Launch) : Nat := (17 - l.width) * (9 - l.height)

/-- The tiles of the rectangle at a candidate, in row-major order (R158). -/
def Launch.rectAt (l : Launch) (k : Nat) : List Nat :=
  let x := k % (17 - l.width)
  let y := k / (17 - l.width)
  (upTo l.height).flatMap (fun j => (upTo l.width).map (fun i => 16 * (y + j) + x + i))

/-- A tile that a launch of a tenant may be given, as the occupancy map shows it (R158, R159). -/
def State.tileOpen (s : State) (tenant t : Nat) : Bool :=
  let x := s.tile t
  bitAt (s.tenant tenant).tiles t && x.owner.isNone && !x.scrubbing && !x.fence

/-- A launch on which no head-of-line guard lies (R160). -/
def State.unguardedLine (s : State) (l : Launch) : Bool :=
  !s.launches.any (fun m => m.head && m.st == .placing && m.id != l.id
    && decide (l.width * l.height < m.width * m.height) && decide (m.prio ≤ l.prio))

/-- Engines at work (R159). -/
def State.engines (s : State) : Nat := (s.launches.filter (fun l => l.engine && l.st == .placing)).length

/-- A launch may be handed an admission engine. -/
def State.engineFree (s : State) (l : Launch) : Bool :=
  l.st == .placing && !l.engine && decide (s.engines < 4) && s.unguardedLine l

/-- A launch whose engine has a candidate to look at or a tile to reserve. -/
def Launch.scanning (l : Launch) : Bool :=
  l.st == .placing && l.engine && l.backoff.isNone && decide (0 < l.left) && decide (l.tiles.length < l.width * l.height)

/-- A launch whose tiles are all reserved. -/
def Launch.reservedAll (l : Launch) : Bool := l.st == .placing && l.engine && l.tiles.length == l.width * l.height

/-- The next candidate of a scan. -/
def Launch.advance (l : Launch) : Launch := { l with cand := (l.cand + 1) % l.candidates, left := l.left - 1, tiles := [] }

/-- The next candidate after a conflict: the engine looks at every candidate again before it waits for a release (R159). -/
def Launch.retry (l : Launch) : Launch := { l with cand := (l.cand + 1) % l.candidates, left := l.candidates, tiles := [] }

/-- Tiles set free of a reservation. -/
def State.unreserve (s : State) (ts : List Nat) : State :=
  ts.foldl (fun s t => s.setTile t { s.tile t with reserved := none }) s

/-- ADMISSION_SCAN: an engine takes a launch, looks at a candidate, or reserves the next tile of one (R158, R159).
Argument: a, the launch. -/
def execAdmissionScan (s : State) : Host.Outcome State Fault Refusal :=
  .next (
    match s.launch s.arg.a with
    | none => s
    | some l =>
      if s.engineFree l then
        s.mapLaunch l.id (fun l => { l with engine := true, cand := s.rotate % l.candidates, left := l.candidates, tiles := [] })
      else if !l.scanning then s
      else
        let r := l.rectAt l.cand
        if l.tiles = [] ∧ !(r.all (s.tileOpen l.tenant)) then s.mapLaunch l.id (·.advance)
        else
          let t := r.getD l.tiles.length 0
          let x := s.tile t
          if x.owner.isSome || x.reserved.isSome then
            let wait := min (256 * 2 ^ l.conflicts) 65536 + l.job % 256
            (s.unreserve l.tiles).mapLaunch l.id (fun l =>
              { l with tiles := [], conflicts := l.conflicts + 1, backoff := some (s.cycle + wait) })
          else (s.setTile t { x with reserved := some l.id }).mapLaunch l.id (fun l => { l with tiles := l.tiles ++ [t] }))

/-- RESERVATION_BACKOFF_EXPIRY: the engine tries the next candidate (R159).
Argument: a, the launch. -/
def execReservationBackoffExpiry (s : State) : Host.Outcome State Fault Refusal :=
  .next (s.mapLaunch s.arg.a (fun l =>
    if l.backoff.any (fun c => decide (c ≤ s.cycle)) then { l.retry with backoff := none } else l))

/-- HEAD_OF_LINE (R160).
Argument: a, the launch. -/
def execHeadOfLine (s : State) : Host.Outcome State Fault Refusal :=
  .next (s.mapLaunch s.arg.a (fun l =>
    if l.st = .placing ∧ l.placing + 1000000 ≤ s.time then { l with head := true } else l))

/-- A cluster has been released: waiting engines scan again (R159). -/
def State.wakeScans (s : State) : State :=
  { s with launches := s.launches.map (fun l =>
      if l.st = .placing ∧ l.engine ∧ l.left = 0 ∧ l.backoff = none then { l with cand := s.rotate % l.candidates, left := l.candidates } else l) }

/-! ### Commit -/

/-- A reserved tile that owes a scrub before the launch's tenant may use it (R381). -/
def State.owesScrub (s : State) (tenant t : Nat) : Bool := !(s.tile t).scrubbed && (s.tile t).last != some tenant

/-- The chains of a rectangle by code: lists of tiles in link order (R149). -/
def chainLists (code x y w h : Nat) : List (List Nat) :=
  let at_ (i j : Nat) : Nat := 16 * (y + j) + x + i
  match code with
  | 1 => (upTo h).map (fun j => (upTo w).map (fun i => at_ i j))
  | 2 => (upTo w).map (fun i => (upTo h).map (fun j => at_ i j))
  | 3 => [(upTo h).flatMap (fun j => (upTo w).map (fun i => if j % 2 = 0 then at_ i j else at_ (w - 1 - i) j))]
  | _ => []

/-- The `chain` value of position n of a list (R149, R357). -/
def chainWord (l : List Nat) (n : Nat) : Word :=
  let up := if n = 0 then 0 else 2 ^ 4 + l.getD (n - 1) 0 * 2 ^ 5
  let dn := if n + 1 < l.length then 2 ^ 12 + l.getD (n + 1) 0 * 2 ^ 13 else 0
  BitVec.ofNat 64 (1 + up + dn)

/-- The cores of a tile on the launch's sides. -/
def Launch.cores (l : Launch) (t : Nat) : List Nat :=
  (if l.sides % 2 = 1 then [2 * t] else []) ++ (if 2 ≤ l.sides then [2 * t + 1] else [])

/-- The chains that the launch asks for (R149). -/
def State.setChains (s : State) (l : Launch) : State :=
  (chainLists l.chainCode l.x l.y l.w l.h).foldl (fun s ts =>
    (upTo ts.length).foldl (fun s n =>
      (l.cores (ts.getD n 0)).foldl (fun s c =>
        (upTo l.contexts).foldl (fun s i =>
          let k := ctxKey c i
          (s.setCtx k { s.ctx k with chain := chainWord ts n }).setUpQ k []) s) s) s) s

/-- The `rect` value of a launch's contexts (R357). -/
def Launch.rectWord (l : Launch) : Word :=
  BitVec.ofNat 64 (2 ^ 31 + (l.h - 1) * 2 ^ 24 + (l.w - 1) * 2 ^ 16 + l.y * 2 ^ 8 + l.x)

/-- The message of a launch's thread on a core (R172). -/
def State.launchWords (s : State) (l : Launch) (core : Nat) : List Word :=
  [0, l.argument, BitVec.ofNat 64 (l.lid + l.job * 2 ^ 32), BitVec.ofNat 64 (s.selfWord core), BitVec.ofNat 64 l.group
   , BitVec.ofNat 64 l.count, 0, BitVec.ofNat 64 s.time]

/-- The activation of one launch thread on a core, a member of the launch's group from now on (R172). DEDUCED, unsafe: log entry 82. -/
def State.launchAct (s : State) (l : Launch) (core : Nat) : State :=
  let (id, s) := s.fresh
  let s := (s.applyTo (ctrKey core 63) (some (s.launchWords l core)) 1 (fun p =>
    { p with entry := l.entry, prio := l.prio, tenant := l.tenant, job := l.job, launch := l.id, group := l.group, rect := l.rectWord
             byLaunch := true, uid := id })).2
  if l.group = 0 then s else s.mapGroup l.tenant l.group (fun g => if g.live then g.join id else g)

/-- The images of the runtime loader copied into a tile and its cores (R31): at commit, every image of the tenant, whatever the sides of the launch. DESIGN CHOICE, unsafe: log entry 74. -/
def State.loadImages (s : State) (tenant t : Nat) : State :=
  (s.images.filter (fun m => m.tenant == tenant)).foldl (fun s m =>
    if m.tile then (upTo m.bytes.length).foldl (fun s j => s.dieWrite (scratchKey t (m.off + j)) [m.bytes.getD j 0]) s
    else (s.dieWrite (localKey (2 * t) m.off) m.bytes).dieWrite (localKey (2 * t + 1) m.off) m.bytes) s

/-- The cache size at commit leaves room for the images: 6 ways, or fewer (R31, R211). DESIGN CHOICE, unsafe: log entry 74. -/
def State.commitWays (s : State) (tenant : Nat) : Nat :=
  (s.images.filter (fun m => m.tenant == tenant && m.tile)).foldl (fun n m => min n (12 - (m.off + m.bytes.length + 131071) / 131072)) 6

/-- A tile as a commit leaves it (R125, R159, R211, R274, R292, R381). -/
def State.commitTile (s : State) (l : Launch) (t : Nat) : State :=
  let x := s.tile t
  let s := s.setTile t { x with n := s.commitWays l.tenant, lines := [], owner := some l.id, reserved := none, scrubbed := false
                                last := some l.tenant, parcels := [] }
  let a := s.array t
  let s := s.setArray t { a with owner := none, waiting := [], sticky := 0, acc := [], accBad := [], cand := none, defects := [], count := 0 }
  let s := { s with sems := s.sems.filter (fun e => e.1 / 16 ≠ t), lends := s.lends.filter (fun e => e.1 / 256 ≠ t) }
  let s := [2 * t, 2 * t + 1].foldl (fun s c => s.setCounter (ctrKey c 63) { s.counter (ctrKey c 63) with mask := false }) s
  s.loadImages l.tenant t

/-- A group with the default flag rule (R157). -/
def newGroup (tenant handle : Nat) : Group :=
  { tenant := tenant, handle := handle, members := [], gen := 0, opened := none, cut := false, arrived := [], record := []
    t := 10000, l := 3, m := 4, cubes := [], rank := 0, live := true, since := 0, replies := [], cubesIn := []
    cutBase := 0, cutShare := 0, cutReqs := [], cutK := 0, cutStat := 0, cutPhase := 0, cutAcks := [] }

/-- Groups of a tenant on the cube (R369). -/
def State.groupCount (s : State) (tenant : Nat) : Nat := (s.groups.filter (fun g => g.tenant == tenant)).length

/-- The launch creates the group that it names when its tenant has none of that handle (R150). -/
def State.launchGroup (s : State) (l : Launch) : State :=
  if l.group = 0 ∨ s.groups.any (fun g => g.tenant == l.tenant && g.handle == l.group) ∨ 1024 ≤ s.groupCount l.tenant then s
  else { s with groups := s.groups ++ [newGroup l.tenant l.group] }.mapLaunch l.id (fun l => { l with ownsGroup := true })

/-- Parcels dealt round-robin over the cluster's tiles (R173). -/
def State.deal (s : State) (l : Launch) (ts : List Nat) : State :=
  let n := min l.count (256 * ts.length)
  let s := (upTo ts.length).foldl (fun s j =>
    let t := ts.getD j 0
    let mine := (upTo 256).filter (fun q => decide (q * ts.length + j < n))
    let ps := mine.map (fun q =>
      let i := q * ts.length + j
      { s.parcelOf l.id l.argument (l.parcelP i) with slot := q, order := s.nid + i })
    s.setTile t { s.tile t with parcels := ps }) s
  { s with nid := s.nid + n }.mapLaunch l.id (fun l => { l with next := n })

/-- CLUSTER_COMMIT: the reserved tiles pass to the launch, its chains, group, threads and parcels are made (R149, R159, R172, R173).
Argument: a, the launch; b = 1, the runtime loader brings an image for the launches of tenant a instead: c = 1 for scratch, its offset in d, and its bytes (R31). -/
def execClusterCommit (s : State) : Host.Outcome State Fault Refusal :=
  let g := s.arg
  .next (
    if g.b = 1 then { s with images := s.images ++ [⟨g.a, decide (g.c = 1), g.d, g.bytes⟩] }
    else
      match s.launch g.a with
      | none => s
      | some l =>
        if !l.reservedAll then s
        else
          let ts := l.tiles
          let t0 := ts.headD 0
          let m := { l with st := .running, engine := false, tiles := [], head := false, placed := true, x := t0 % 16, y := t0 / 16
                            w := l.width, h := l.height, next := 0, moved := [], leaving := [], done := 0, starved := [], phase := 0
                            guard := if l.guarded then .hold else .none, lost := false }
          let s := ts.foldl (fun s t => s.commitTile m t) s
          let s := { s with rotate := s.rotate + 1 }.mapLaunch l.id (fun _ => m)
          let s := (s.setChains m).launchGroup m
          let s := ts.foldl (fun s t => (m.cores t).foldl (fun s c => (upTo m.contexts).foldl (fun s _ => s.launchAct m c) s) s) s
          (s.deal m ts).evaluate l.id 0x7F)

/-! ### Completion -/

/-- A thread, pending activation or relocating image of a launch remains (R171, R172). -/
def State.threadsLeft (s : State) (id : Nat) : Bool :=
  s.ctxs.any (fun e => e.2.occ && e.1 % 16 != 8 && e.2.launch == id) || s.stored.any (fun t => t.ctx.launch == id)
    || s.ctrs.any (fun c => c.2.pending.any (fun p => p.launch == id))

/-- Parcels of a launch that are not DONE: in a queue, moving, or in the backlog (R171). -/
def State.parcelsLeft (s : State) (l : Launch) : Bool :=
  s.tiles.any (fun t => t.2.parcels.any (fun p => p.launch == l.id && p.borrowed.isNone)) || s.moving.any (fun m => m.2.launch == l.id)
    || l.moved != [] || decide (l.next < l.count)

/-- A running launch is finished (R171). -/
def State.finished (s : State) (l : Launch) : Bool := l.st == .running && !s.threadsLeft l.id && !s.parcelsLeft l

/-- The cluster's borrowed QUEUED parcels are dropped, each with a RETURN report (R465). -/
def State.returnBorrowed (s : State) (l : Launch) : State :=
  (s.cluster l.id).foldl (fun s t =>
    ((s.tile t).parcels.filter (fun p => p.borrowed.isSome)).foldl (fun s p =>
      match p.borrowed with
      | none => s
      | some o =>
        let s := s.dropParcel t p.slot
        if p.queued then s.loanReport .returnReport o l.tenant l.job else s) s) s

/-- A write that the cube's own units make for a launch. -/
def State.unitReq (s : State) (core launch tenant : Nat) : Req :=
  { s.template with core := core, ctx := 8, agent := 2 ^ 50 + launch, launch := launch, tenant := tenant, pc := 0 }

/-- Writes of a launch, or commands of it, that are still on their way. -/
def State.launchWrites (s : State) (id : Nat) : Bool :=
  s.reqs.any (fun r => r.launch == id && r.kind != .status) || s.cmds.any (fun c => c.launch == id)

/-- Whatever still belongs to a launch that ends early: threads, pending activations and parcels (R382, R389, R459). -/
def State.clearLaunch (s : State) (id : Nat) : State :=
  let ks := (s.ctxs.filter (fun e => e.2.occ && e.1 % 16 != 8 && e.2.launch == id)).map (·.1)
  let s := ks.foldl (fun s k => s.killCtx k) s
  let s := (s.stored.filter (fun t => t.ctx.launch == id)).foldl (fun s t => s.killStored t) s
  let s := ((s.ctrs.flatMap (fun c => c.2.pending)).filter (fun p => p.launch == id)).foldl (fun s p => s.leaveGroups p.uid) s
  { s with ctrs := s.ctrs.map (fun (c : Nat × Counter) => (c.1, { c.2 with pending := c.2.pending.filter (fun p => p.launch ≠ id) }))
           tiles := s.tiles.map (fun (t : Nat × TileSt) => (t.1, { t.2 with parcels := t.2.parcels.filter (fun p => p.launch ≠ id || p.borrowed.isSome) }))
           moving := s.moving.filter (fun m => m.2.launch ≠ id) }.mapLaunch id (fun l => { l with moved := [], leaving := [], next := l.count })

/-- A completed launch enters the history of its tenant: the last 4,096 (R170). -/
def State.remember (s : State) (l : Launch) : State :=
  let own := (s.history.filter (fun h => h.tenant == l.tenant)).take 4095
  let others := s.history.filter (fun h => h.tenant != l.tenant)
  { s with history := ⟨l.tenant, l.lid, l.job, l.status⟩ :: own ++ others }

/-- A group is dissolved: its members leave it, and those that wait in it go on (R369). -/
def State.dissolve (s : State) (tenant handle : Nat) : State :=
  -- the spec gives the result of a `ckpt` whose group is dissolved no value
  let s := ((s.group tenant handle).map (·.cutReqs)).getD [] |>.foldl (fun (s : State) id => s.drawn.answer id (Config.value s.free)) s
  { s with
    groups := s.groups.filter (fun g => !(g.tenant == tenant && g.handle == handle))
    ctxs := s.ctxs.map (fun e =>
      let x := e.2
      if x.tenant ≠ tenant then e
      else
        let y := { x with groups := x.groups.filter (· ≠ handle) }
        match x.park with
        | some (.gen t h _) => if t = tenant ∧ h = handle then (e.1, { y with park := none, memo := [6] }) else (e.1, y)
        | _ => (e.1, y))
    stored := s.stored.map (fun t =>
      if t.ctx.tenant ≠ tenant then t
      else { t with ctx := { t.ctx with groups := t.ctx.groups.filter (· ≠ handle)
                                        memo := match t.ctx.memo with
                                          | [5, g, h] => if h = handle then [6] else [5, g, h]
                                          | [9, h] => if h = handle then [6] else [9, h]
                                          | m => m } }) }

/-- A tile leaves its cluster: its caches are written back and emptied, the launch counters masked and emptied, the chains and parcels discarded (R125, R149, R211). -/
def State.releaseTile (s : State) (l : Launch) (t : Nat) : State :=
  let s := s.flushTile (s.unitReq (2 * t) l.id l.tenant) t
  let s := [2 * t, 2 * t + 1].foldl (fun s c =>
    let k := ctrKey c 63
    let s := s.setCounter k { s.counter k with mask := true, pending := [], ring := [], head := 0 }
    (upTo 8).foldl (fun s i =>
      let q := ctxKey c i
      if chainOn (s.ctx q) then (s.setCtx q { s.ctx q with chain := 0 }).setUpQ q [] else s) s) s
  s.setTile t { s.tile t with owner := none, parcels := [] }

/-- The cluster of a launch is released (R175). -/
def State.releaseCluster (s : State) (l : Launch) : State :=
  let s := (s.cluster l.id).foldl (fun s t => s.releaseTile l t) s
  let s := if l.ownsGroup then s.dissolve l.tenant l.group else s
  s.wakeScans

/-- The completion record (R175). -/
def State.recordBytes (s : State) (l : Launch) : List Byte :=
  toBytes (l.status + l.lid * 2 ^ 32) 8 ++ toBytes l.job 8 ++ toBytes l.admitAt 8 ++ toBytes s.time 8 ++ toBytes l.done 8
    ++ toBytes (if l.placed then l.x + l.y * 256 else 0) 8 ++ toBytes 0 16

/-- The launch is done: its vector is sent, its cluster released, and it leaves the unit (R175, R454). -/
def State.launchDone (s : State) (l : Launch) : State :=
  let s := match l.slot with
    | some (t, v) => s.sendOut .launchCompletion { EvArg.zero with a := t, b := v, c := l.lid }
    | none => s
  let s := if l.placed then s.releaseCluster l else s
  { s with launches := s.launches.filter (fun m => m.id ≠ l.id) }

/-- The record of a launch written, or abandoned with its event (R175). -/
def State.writeRecord (s : State) (l : Launch) : State :=
  let abandoned := (s.raise l.origin (StewEvent.msg l.tenant 0x05 l.lid 0 0)).launchDone l
  match s.xlate l.tenant l.record false true with
  | .fault _ _ => abandoned
  | .wait pa => s.ask pa 8
  | .ok pa attr =>
    match s.unitWrite ⟨l.tenant, 0⟩ pa attr (s.recordBytes l) false with
    | some s => s.launchDone l
    | none => s.noteStall pa

/-- The phases of completion that are left: 0 release, 1 wait and retirement, 2 record (R175, R261). -/
def State.completeStep (s : State) (l : Launch) : State :=
  match l.phase with
  | 0 =>
    let s := if l.status ≠ 0 then s.clearLaunch l.id else s
    let s := s.returnBorrowed l
    let s := if 1 ≤ l.scope ∨ l.guard = .hold then
        (distinct (s.cluster l.id ++ l.visited)).foldl (fun s t => s.writeBackTile (s.unitReq (2 * t) l.id l.tenant) t) s
      else s
    s.mapLaunch l.id (fun l => { l with st := .completing, phase := 1 })
  | 1 =>
    if s.launchWrites l.id then s
    else if l.guard == .hold && (s.retireLacks l.id).isSome then s.stallOn ((s.retireLacks l.id).getD 0)
    else
      let s := if l.guard = .hold then s.retireGuard l.id else s
      let st := if l.status = 0 ∧ l.lost then 4 else l.status
      let l := { l with status := st, phase := 2, guard := .none }
      (s.mapLaunch l.id (fun _ => l)).remember l
  | _ => s.writeRecord l

/-- LAUNCH_COMPLETION: a finished launch goes through the steps of R175; a rejected or failed one has its record written (R170, R171, R175).
Argument: a, the launch. -/
def execLaunchCompletion (s : State) : Host.Outcome State Fault Refusal :=
  .next (
    match s.launch s.arg.a with
    | none => s
    | some l =>
      if l.active then (if l.st = .completing || s.finished l then s.completeStep l else s)
      else if l.phase = 0 then
        let s := s.mapLaunch l.id (fun l => { l with phase := 2 })
        if l.dup then s else s.remember l
      else s.writeRecord l)

end Sys2Proof.Machine
end

