-- ==== Sys2Proof/Machine/Sync.lean ====
section
/-! DEFINITION. Semaphores, timelines, `cpsync` and `resize` (R188, R211, R213, R214, R268 to R277). -/

namespace Sys2Proof.Machine

/-! ### Semaphores -/

/-- `sem.sig` (R275): a tile-scope release, then the addition. -/
def execSemSig (a : Reg) (t : Bool) (k : Fin 16) (s : State) : Host.Outcome State Fault Refusal :=
  let i : Instr := .semSig a t k
  let u : Use := ⟨[(a, t)], [], [], []⟩
  let v := s.val a
  .next (s.issueVal i u [a] (decide (2 ^ 32 ≤ v.toNat))
    (s.fenced true false 0 fun s =>
      ((s.popAll u.srcs).addSem (semKey (tileOf s.cur.1) k.val) v.toNat).finish i))

/-- `sem.wait` (R276). -/
def execSemWait (a : Reg) (t : Bool) (k : Fin 16) (s : State) : Host.Outcome State Fault Refusal :=
  let i : Instr := .semWait a t k
  let u : Use := ⟨[(a, t)], [], [], []⟩
  let v := s.val a
  let key := semKey (tileOf s.cur.1) k.val
  let done (s : State) : State := (s.popAll u.srcs).finish i
  let fin (s : State) : State :=
    done (s.setSem key { s.sem key with taken := (s.sem key).taken.filter (· ≠ s.me) })
  .next (s.issueVal i u [a] (decide (2 ^ 32 ≤ v.toNat))
    (if v = 0 then done s
     else if (s.sem key).taken.contains s.me then fin s
     else
       let s := if (s.sem key).order.any (fun w => !w.isCmd && w.who == s.me) then s
         else s.joinSem key ⟨false, s.me, v.toNat⟩
       if (s.sem key).taken.contains s.me then fin s else s.parkMe (.sem (tileOf s.cur.1) k.val)))

/-! ### Timelines -/

/-- Commands of a timeline that have completed (R268, R272). -/
def Timeline.completed (t : Timeline) : Nat := t.done + t.ahead.length

/-- The done-value after the numbers that have completed ahead of it (R268). -/
def Timeline.absorb (t : Timeline) : Nat → Timeline
  | 0 => t
  | fuel + 1 =>
    if t.ahead.contains (t.done + 1) then { t with done := t.done + 1, ahead := t.ahead.filter (· ≠ t.done + 1) }.absorb fuel else t

/-- A command of a timeline completes (R268, R269). -/
def Timeline.complete (t : Timeline) (n : Nat) : Timeline :=
  let t := { t with ahead := t.ahead ++ [n] }
  t.absorb t.ahead.length

/-- A command takes the next number (R268). -/
def Timeline.take (t : Timeline) : Timeline := { t with issued := t.issued + 1 }

/-- A context with a timeline replaced. -/
def Ctx.setTimeline (x : Ctx) (k : Nat) (t : Timeline) : Ctx := { x with tls := smPut Timeline.zero x.tls k t }

/-- A command of an agent's timeline completes, wherever the thread is (R268, R376). -/
def State.timelineDone (s : State) (agent k n : Nat) : State :=
  match s.ctxOfAgent agent with
  | some c =>
    match (s.ctx c).home with
    | some _ =>
      -- a moth keeps the timelines of its home core in the held context
      if 256 ≤ c / 16 ∧ k = 0 then s.setCtx c ((s.ctx c).setTimeline k (((s.ctx c).timeline k).complete n))
      else
        match s.heldHome agent with
        | some h => s.setCtx h ((s.ctx h).setTimeline k (((s.ctx h).timeline k).complete n))
        | none => s.setCtx c ((s.ctx c).setTimeline k (((s.ctx c).timeline k).complete n))
    | none => s.setCtx c ((s.ctx c).setTimeline k (((s.ctx c).timeline k).complete n))
  | none =>
    match s.storedOf agent with
    | none => s
    | some t =>
      let y := (t.ctx.timeline k).complete n
      let s := s.mapStored agent (fun t => { t with ctx := t.ctx.setTimeline k y })
      if 24 ≤ t.slot then s
      else s.localPut t.core (slotOff t.slot + (if k = (tlClasses t.core).1 then 0x30 else 0x38)) 8 y.done

/-- `tl.rd` (R270): the issued-value, or the done-value. -/
def execTlRd (d : Reg) (e : Bool) (k : Fin 4) (s : State) : Host.Outcome State Fault Refusal :=
  let t := s.self.timeline k.val
  .next (s.run0 (.tlRd d e k) d (BitVec.ofNat 64 (if e then t.done else t.issued)))

/-- `tl.wait` (R271). -/
def execTlWait (a : Reg) (t : Bool) (k : Fin 4) (s : State) : Host.Outcome State Fault Refusal :=
  let i : Instr := .tlWait a t k
  let u : Use := ⟨[(a, t)], [], [], []⟩
  let n := (s.val a).toNat
  let tl := s.self.timeline k.val
  .next (s.issueVal i u [a] (decide (tl.issued < n))
    (if n ≤ tl.done then (s.popAll u.srcs).finish i else s.parkMe (.timeline k.val n)))

/-- `tl.wait.rel` (R272). -/
def execTlWaitRel (a : Reg) (t : Bool) (k : Fin 4) (s : State) : Host.Outcome State Fault Refusal :=
  let i : Instr := .tlWaitRel a t k
  let u : Use := ⟨[(a, t)], [], [], []⟩
  let m := (s.val a).toNat
  let tl := s.self.timeline k.val
  .next (s.issue u
    (if tl.issued - tl.completed ≤ m then (s.popAll u.srcs).finish i else s.parkMe (.timelineOpen k.val m)))

/-- Coprocessor work of a thread that has not completed: ring entries without a fault, and its repetition buffer (R186, R188). -/
def State.copWork (s : State) (core k agent : Nat) : Bool :=
  (s.core core).ring.any (fun r => r.agent == agent && r.fault.isNone) || s.reps.any (fun r => r.key == k)

/-- `cpsync` (R188). -/
def execCpsync (s : State) : Host.Outcome State Fault Refusal :=
  .next (s.issue useNothing
    (if s.copWork s.cur.1 s.me s.agent then s.parkMe .cpsync else s.finish .cpsync))

/-! ### Resizing the tile cache -/

/-- A range of the memory list made zero. -/
def State.zeroRange (s : State) (lo hi : Nat) : State :=
  { s with mem := s.mem.filter (fun c => !(decide (lo ≤ c.1) && decide (c.1 < hi)))
           bad := s.bad.filter (fun c => !(decide (lo ≤ c.1 * 16) && decide (c.1 * 16 < hi))) }

/-- A way leaves the cache: dirty sectors written back, lines invalidated, the way zeroed (R213). -/
def State.wayToScratch (s : State) (q : Req) (t k : Nat) : State :=
  let s := ((s.tile t).lines.filter (fun c => c.way == k)).foldl (fun s c => s.flushLine q t c) s
  s.zeroRange (wayKey t k 0) (wayKey t k 131072)

/-- The tile store divided anew (R211, R213). -/
def State.resizeTile (s : State) (q : Req) (t n : Nat) : State :=
  let m := (s.tile t).n
  let s := ((upTo 12).filter (fun k => decide (n ≤ k) && decide (k < m))).foldl (fun s k => s.wayToScratch q t k) s
  let s := ((upTo 12).filter (fun k => decide (m ≤ k) && decide (k < n))).foldl (fun s k => s.zeroRange (wayKey t k 0) (wayKey t k 131072)) s
  s.setTile t { s.tile t with n := n }

/-- A command that may address scratch: of a tile's matrix array, or one with a slot that is an address in the tile store (R21, R280, R443); kind 1 of a destination selector names scratch too. -/
def Cmd.onScratch (c : Cmd) : Bool :=
  match c.cls with
  | .matrix => true
  | .health => false
  | _ => c.slots.any (fun a => decide (a.toNat / 2 ^ 36 = 0xF800000)) || decide (bits ((c.slots.getD 2 0).toNat) 47 46 = 1)

/-- Started engine commands of a tile that address scratch keep a `resize` waiting (R214). -/
def State.tileBusy (s : State) (t : Nat) : Bool := s.cmds.any (fun c => c.unit == t && c.st == .started && c.onScratch)

/-- The threads whose `resize` of a tile has issued and is not over, in the order of issue: they still wait in it (R214). -/
def State.resizing (s : State) (t : Nat) : List Nat :=
  (s.tile t).resizers.filter (fun u => s.ctxs.any (fun e => e.1 / 16 == 2 * t && agentOf (e.1 / 16) (e.1 % 16) e.2 == u
    && (e.1 == s.me || (match e.2.park with
      | some .hold => true
      | some (.reqs _) => e.2.memo == [1]
      | _ => false))))

/-- The write-backs of a tile that are on their way. -/
def State.tileBacks (s : State) (t : Nat) : List Req := s.reqs.filter (fun r => r.kind == .writeBack && decide (r.core < 256) && tileOf r.core == t)

/-- `resize` (R213, R214): nothing when the size is the same and no other is at work; else it waits for those issued before it and for the engines, and ends once the write-backs are placed. -/
def execResize (n : Fin 16) (s : State) : Host.Outcome State Fault Refusal :=
  let i : Instr := .resize n
  let t := tileOf s.cur.1
  let set (s : State) (l : List Nat) : State := s.setTile t { s.tile t with resizers := l }
  .next (s.issue useNothing
    (let line := s.resizing t
     let mine := if line.contains s.agent then line else line ++ [s.agent]
     if s.second then (set s (line.filter (· ≠ s.agent))).finish i
     else if line = [] ∧ (s.tile t).n = n.val then s.finish i
     else if mine.head? ≠ some s.agent ∨ s.tileBusy t then (set s mine).parkMe .hold
     else if (s.tile t).n = n.val then (set s (mine.drop 1)).finish i
     else
       let s := s.resizeTile s.template t n.val
       match s.tileBacks t with
       | [] => (set s (mine.drop 1)).finish i
       | l => (set s mine).waitFor (l.map (·.id))))

end Sys2Proof.Machine
end

