-- ==== Sys2Proof/Machine/ScalarFp.lean ====
section
/-! DEFINITION. Scalar floating point and the conversions (R108 to R115). -/

namespace Sys2Proof.Machine

/-- The rounding mode of the running context (R18). -/
def State.rm (s : State) : Nat := s.self.fmode.toNat % 4

/-- Flags ORed into a context's `fflags` (R106). -/
def Ctx.raise (x : Ctx) (fl : Nat) : Ctx := { x with fflags := x.fflags ||| BitVec.ofNat 64 fl }

/-- A result with flags written and the instruction completed (R63, R106). -/
def State.retireF (s : State) (i : Instr) (u : Use) (d : Reg) (v : Word) (fl : Nat) : State :=
  let s := s.setSelf (s.self.raise fl)
  s.retire i u d v

/-- The low 32 bits of a source (R108). -/
def State.f32 (s : State) (r : Reg) : Nat := (s.val r).toNat % 4294967296

/-- An FP32 result as a word: the upper half is cleared (R14). -/
def FRes.word (r : FRes) : Word := BitVec.ofNat 64 r.bits

/-- A floating-point instruction of two sources. -/
def State.runF2 (s : State) (i : Instr) (d a b : Reg) (t v : Bool) (f : Nat → Nat → FRes) : State :=
  let u : Use := ⟨[(a, t), (b, v)], [], [d], []⟩
  let r := f (s.f32 a) (s.f32 b)
  s.issue u (s.retireF i u d r.word r.flags)

/-- A floating-point instruction of one source. -/
def State.runF1 (s : State) (i : Instr) (d a : Reg) (t : Bool) (f : Nat → FRes) : State :=
  let u : Use := ⟨[(a, t)], [], [d], []⟩
  let r := f (s.f32 a)
  s.issue u (s.retireF i u d r.word r.flags)

/-- A fused instruction: d is the addend (R110). -/
def State.runF3 (s : State) (i : Instr) (d a b : Reg) (t v : Bool) (f : Nat → Nat → Nat → FRes) : State :=
  let u : Use := ⟨[(d, false), (a, t), (b, v)], [], [d], []⟩
  let r := f (s.f32 a) (s.f32 b) (s.f32 d)
  s.issue u (s.retireF i u d r.word r.flags)

/-- `fadd` (R109, R111, R114). -/
def execFadd (d a b : Reg) (t u : Bool) (s : State) : Host.Outcome State Fault Refusal :=
  .next (s.runF2 (.fadd d a b t u) d a b t u (fpAdd .f32 s.rm))

/-- `fsub` (R109, R111, R114). -/
def execFsub (d a b : Reg) (t u : Bool) (s : State) : Host.Outcome State Fault Refusal :=
  .next (s.runF2 (.fsub d a b t u) d a b t u (fpSub .f32 s.rm))

/-- `fmul` (R109, R111, R114). -/
def execFmul (d a b : Reg) (t u : Bool) (s : State) : Host.Outcome State Fault Refusal :=
  .next (s.runF2 (.fmul d a b t u) d a b t u (fpMul .f32 s.rm))

/-- `fdiv` (R109, R111, R114). -/
def execFdiv (d a b : Reg) (t u : Bool) (s : State) : Host.Outcome State Fault Refusal :=
  .next (s.runF2 (.fdiv d a b t u) d a b t u (fpDiv .f32 s.rm))

/-- `fmin` (R109, R111, R114). -/
def execFmin (d a b : Reg) (t u : Bool) (s : State) : Host.Outcome State Fault Refusal :=
  .next (s.runF2 (.fmin d a b t u) d a b t u (fpMinMax .f32 false))

/-- `fmax` (R109, R111, R114). -/
def execFmax (d a b : Reg) (t u : Bool) (s : State) : Host.Outcome State Fault Refusal :=
  .next (s.runF2 (.fmax d a b t u) d a b t u (fpMinMax .f32 true))

/-- `fcmpEq` (R109, R111, R114). -/
def execFcmpEq (d a b : Reg) (t u : Bool) (s : State) : Host.Outcome State Fault Refusal :=
  .next (s.runF2 (.fcmpEq d a b t u) d a b t u (fpCmp .f32 .eq))

/-- `fcmpLt` (R109, R111, R114). -/
def execFcmpLt (d a b : Reg) (t u : Bool) (s : State) : Host.Outcome State Fault Refusal :=
  .next (s.runF2 (.fcmpLt d a b t u) d a b t u (fpCmp .f32 .lt))

/-- `fcmpLe` (R109, R111, R114). -/
def execFcmpLe (d a b : Reg) (t u : Bool) (s : State) : Host.Outcome State Fault Refusal :=
  .next (s.runF2 (.fcmpLe d a b t u) d a b t u (fpCmp .f32 .le))

/-- `fsqrt` (R109, R112, R113). -/
def execFsqrt (d a : Reg) (t : Bool) (s : State) : Host.Outcome State Fault Refusal :=
  .next (s.runF1 (.fsqrt d a t) d a t (fpSqrt .f32 s.rm))

/-- `fneg` (R109, R112, R113). -/
def execFneg (d a : Reg) (t : Bool) (s : State) : Host.Outcome State Fault Refusal :=
  .next (s.runF1 (.fneg d a t) d a t (fpNeg .f32))

/-- `fabs` (R109, R112, R113). -/
def execFabs (d a : Reg) (t : Bool) (s : State) : Host.Outcome State Fault Refusal :=
  .next (s.runF1 (.fabs d a t) d a t (fpAbs .f32))

/-- `fclass` (R109, R112, R113). -/
def execFclass (d a : Reg) (t : Bool) (s : State) : Host.Outcome State Fault Refusal :=
  .next (s.runF1 (.fclass d a t) d a t (fun x => ⟨fpClass .f32 x, 0⟩))

/-- `fma` (R110). -/
def execFma (d a b : Reg) (t u : Bool) (s : State) : Host.Outcome State Fault Refusal :=
  .next (s.runF3 (.fma d a b t u) d a b t u (fpFma .f32 s.rm))

/-- `fms` (R110). -/
def execFms (d a b : Reg) (t u : Bool) (s : State) : Host.Outcome State Fault Refusal :=
  .next (s.runF3 (.fms d a b t u) d a b t u (fpFms .f32 s.rm))

/-- A conversion of one source word (R115). -/
def State.runCvt (s : State) (i : Instr) (d a : Reg) (t : Bool) (f : Word → Word × Nat) : State :=
  let u : Use := ⟨[(a, t)], [], [d], []⟩
  let r := f (s.val a)
  s.issue u (s.retireF i u d r.1 r.2)

/-- A floating-point result with its flags. -/
def FRes.pair (r : FRes) : Word × Nat := (r.word, r.flags)

/-- The range of INT64 for cvt_i (R107). -/
def cvtI64 (rm a : Nat) : Word × Nat :=
  let r := cvtI .f32 rm (-9223372036854775808) 9223372036854775807 a
  (BitVec.ofInt 64 r.1, r.2)

/-- `fcvtF32I64` (R115). -/
def execFcvtF32I64 (d a : Reg) (t : Bool) (s : State) : Host.Outcome State Fault Refusal :=
  .next (s.runCvt (.fcvtF32I64 d a t) d a t (fun x => (cvtIntF .f32 s.rm x.toInt).pair))

/-- `fcvtI64F32` (R115). -/
def execFcvtI64F32 (d a : Reg) (t : Bool) (s : State) : Host.Outcome State Fault Refusal :=
  .next (s.runCvt (.fcvtI64F32 d a t) d a t (fun x => cvtI64 s.rm x.toNat))

/-- `fcvtF32F16` (R115). -/
def execFcvtF32F16 (d a : Reg) (t : Bool) (s : State) : Host.Outcome State Fault Refusal :=
  .next (s.runCvt (.fcvtF32F16 d a t) d a t (fun x => (cvtF .f16 .f32 s.rm x.toNat).pair))

/-- `fcvtF16F32` (R115). -/
def execFcvtF16F32 (d a : Reg) (t : Bool) (s : State) : Host.Outcome State Fault Refusal :=
  .next (s.runCvt (.fcvtF16F32 d a t) d a t (fun x => (cvtF .f32 .f16 s.rm x.toNat).pair))

/-- `fcvtF32Bf16` (R115). -/
def execFcvtF32Bf16 (d a : Reg) (t : Bool) (s : State) : Host.Outcome State Fault Refusal :=
  .next (s.runCvt (.fcvtF32Bf16 d a t) d a t (fun x => (cvtF .bf16 .f32 s.rm x.toNat).pair))

/-- `fcvtBf16F32` (R115). -/
def execFcvtBf16F32 (d a : Reg) (t : Bool) (s : State) : Host.Outcome State Fault Refusal :=
  .next (s.runCvt (.fcvtBf16F32 d a t) d a t (fun x => (cvtF .f32 .bf16 s.rm x.toNat).pair))

/-- `fcvtF32Tf8` (R115). -/
def execFcvtF32Tf8 (d a : Reg) (t : Bool) (s : State) : Host.Outcome State Fault Refusal :=
  .next (s.runCvt (.fcvtF32Tf8 d a t) d a t (fun x => (BitVec.ofNat 64 (wideTf8 .f32 (x.toNat % 256)), 0)))

/-- `fcvtTf8F32` (R115). -/
def execFcvtTf8F32 (d a : Reg) (t : Bool) (s : State) : Host.Outcome State Fault Refusal :=
  .next (s.runCvt (.fcvtTf8F32 d a t) d a t (fun x => (cvtTf8 .f32 x.toNat).pair))

end Sys2Proof.Machine
end

