-- ==== Sys2Proof/Machine/VecVal.lean ====
section
/-! DEFINITION. The values that vector instructions and the passes of a repetition compute (R177, R178, R189 to R198). -/

namespace Sys2Proof.Machine

/-- The element width of a type (R178). -/
def vwidth : VTy → Nat
  | .f32 => 32
  | .f16 => 16
  | .bf16 => 16
  | .i32 => 32
  | .i16 => 16
  | .i8 => 8
  | .ui8 => 8

/-- The lane count of a type (R178). -/
def vlanes (y : VTy) : Nat := 1024 / vwidth y

/-- The format of a floating-point type. -/
def vfmt : VTy → Fmt
  | .f16 => .f16
  | .bf16 => .bf16
  | _ => .f32

/-- n elements of w bits, from element 0 on (R178). -/
def elems (x w : Nat) : Nat → List Nat
  | 0 => []
  | n + 1 => x % 2 ^ w :: elems (x / 2 ^ w) w n

/-- Elements of w bits put together. -/
def joinElems (w : Nat) : List Nat → Nat
  | [] => 0
  | x :: xs => x % 2 ^ w + 2 ^ w * joinElems w xs

/-- A vector register as a number. -/
def VBank.num (b : VBank) (v : Nat) : Nat := (b.cell v).val.toNat

/-- A predicate register; p0 reads all ones (R177). -/
def VBank.pred (b : VBank) (p : PReg) : Nat := if p = 0 then 2 ^ 128 - 1 else (smGet (0 : BitVec 128) b.p p.val).toNat

/-- The elements of a vector register. -/
def VBank.els (b : VBank) (v : VReg) (y : VTy) : List Nat := elems (b.num v.val) (vwidth y) (vlanes y)

/-- An element as the integer it stands for (R178). -/
def vint (y : VTy) (x : Nat) : Int := if y = .ui8 then (x : Int) else sextInt x (vwidth y)

/-- Nothing written. -/
def VOut.none : VOut := ⟨.none, .none, .none, 0, .none⟩

/-- A vector register written. -/
def outV (v : VReg) (x fl : Nat) : VOut := { VOut.none with v := some (v.val, BitVec.ofNat 1024 x), flags := fl }

/-- A scalar register written. -/
def outS (d : SReg) (x : Word) (fl : Nat) : VOut := { VOut.none with s := some (d.val, x), flags := fl }

/-- Active elements take the result, inactive ones keep the old value; flags come from active ones (R183, R189). -/
def mergeEls (pm : Nat) : List Nat → List FRes → List Nat × Nat
  | o :: os, r :: rs =>
    let (vs, fl) := mergeEls (pm / 2) os rs
    if pm % 2 = 1 then (r.bits :: vs, fl ||| r.flags) else (o :: vs, fl)
  | _, _ => ([], 0)

/-- A vector register written element by element under a predicate. -/
def VBank.write (b : VBank) (v : VReg) (y : VTy) (p : PReg) (rs : List FRes) : VOut :=
  let (vs, fl) := mergeEls (b.pred p) (b.els v y) rs
  outV v (joinElems (vwidth y) vs) fl

/-- A result without flags. -/
def plain (x : Nat) : FRes := ⟨x, 0⟩

/-- An instruction of two vector sources, element by element. -/
def VBank.op2 (b : VBank) (v a c : VReg) (y : VTy) (p : PReg) (f : Nat → Nat → FRes) : VOut :=
  b.write v y p (List.zipWith f (b.els a y) (b.els c y))

/-- An instruction of one vector source, element by element. -/
def VBank.op1 (b : VBank) (v a : VReg) (y : VTy) (p : PReg) (f : Nat → FRes) : VOut := b.write v y p ((b.els a y).map f)

/-- An instruction of two vector sources and the old destination. -/
def VBank.op3 (b : VBank) (v a c : VReg) (y : VTy) (p : PReg) (f : Nat → Nat → Nat → FRes) : VOut :=
  b.write v y p (List.zipWith (fun x (q : Nat × Nat) => f x q.1 q.2) (b.els a y) ((b.els c y).zip (b.els v y)))

/-- An integer result modulo 2^w (R190). -/
def VBank.int2 (b : VBank) (v a c : VReg) (y : VTy) (p : PReg) (f : Int → Int → Int) : VOut :=
  b.op2 v a c y p (fun x z => plain (wrapN (f (vint y x) (vint y z)) (vwidth y)))

/-- An integer instruction of one source. -/
def VBank.int1 (b : VBank) (v a : VReg) (y : VTy) (p : PReg) (f : Int → Int) : VOut :=
  b.op1 v a y p (fun x => plain (wrapN (f (vint y x)) (vwidth y)))

/-- The shift amount of an element of w bits (R192). -/
def vamount (w x : Nat) : Nat := x % w

/-- `vdot.i8`: four byte products added to each INT32 lane (R190). -/
def VBank.dot (b : VBank) (v a c : VReg) (p : PReg) : VOut :=
  let prods := List.zipWith (fun x z => vint .i8 x * vint .i8 z) (b.els a .i8) (b.els c .i8)
  let sums := (upTo 32).map (fun j => ((prods.drop (4 * j)).take 4).foldl (· + ·) 0)
  b.write v .i32 p (List.zipWith (fun (o : Nat) t => plain (wrapN ((o : Int) + t) 32)) (b.els v .i32) sums)

/-- A predicate register written: active lanes take the result, bits from the lane count on become 0 (R193, R197). -/
def VBank.writeP (b : VBank) (q : PReg) (y : VTy) (p : PReg) (rs : List (Bool × Nat)) : VOut :=
  let pm := b.pred p
  let old := b.pred q
  let bit (i : Nat) : Bool × Nat := if bitAt pm i then rs.getD i (false, 0) else (bitAt old i, 0)
  let bs := (upTo (vlanes y)).map bit
  { VOut.none with p := some (q.val, BitVec.ofNat 128 (joinElems 1 (bs.map (fun r => r.1.toNat))))
                   flags := bs.foldl (fun f r => f ||| r.2) 0 }

/-- A comparison of floating-point elements (R193): the relation, and whether it is negated. -/
def fcmpBit (y : VTy) (rel : FRel) (neg : Bool) (a c : Nat) : Bool × Nat :=
  let r := fpCmp (vfmt y) rel a c
  ((r.bits == 1) != neg, r.flags)

/-- `vcmp` (R193): `f` compares integers, `g` floating-point elements. -/
def VBank.cmp (b : VBank) (q : PReg) (a c : VReg) (y : VTy) (p : PReg) (f : Int → Int → Bool) (g : Nat → Nat → Bool × Nat) : VOut :=
  b.writeP q y p (List.zipWith (fun x z => if y.isInt then (f (vint y x) (vint y z), 0) else g x z) (b.els a y) (b.els c y))

/-- An instruction on predicates (R197). -/
def VBank.predOp (b : VBank) (q : PReg) (y : VTy) (p : PReg) (f : Nat → Bool) : VOut :=
  b.writeP q y p ((upTo (vlanes y)).map (fun i => (f i, 0)))

/-- An element moved by index (R194). -/
def VBank.move (b : VBank) (v : VReg) (y : VTy) (p : PReg) (f : Nat → Nat) : VOut :=
  b.write v y p ((upTo (vlanes y)).map (fun i => plain (f i)))

/-- One level of the reduction tree: adjacent results combined, left operand first (R195). -/
def pairUp (f : FRes → FRes → FRes) : List FRes → List FRes
  | x :: z :: t => f x z :: pairUp f t
  | l => l

/-- The tree of a reduction: n levels (R195). -/
def reduceTree (f : FRes → FRes → FRes) : Nat → List FRes → FRes
  | 0, l => l.headD ⟨0, 0⟩
  | n + 1, l => reduceTree f n (pairUp f l)

/-- A floating-point element widened to FP32 without a flag; a signalling NaN stays one (R195). -/
def widenF (y : VTy) (x : Nat) : Nat :=
  if y = .f32 then x
  else match (vfmt y).val x with
    | .snan => 0x7F800001
    | _ => (cvtF (vfmt y) .f32 0 x).bits

/-- A reduction over a floating-point type (R195): `f` at the nodes, the identity for inactive elements. -/
def VBank.reduceF (b : VBank) (d : SReg) (a : VReg) (y : VTy) (p : PReg) (idn : Nat) (f : Nat → Nat → FRes) : VOut :=
  let pm := b.pred p
  let leaves := (upTo (vlanes y)).map (fun i => plain (if bitAt pm i then widenF y ((b.els a y).getD i 0) else idn))
  let node (x z : FRes) : FRes := let r := f x.bits z.bits; ⟨r.bits, r.flags ||| x.flags ||| z.flags⟩
  let r := reduceTree node (Nat.log2 (vlanes y)) leaves
  outS d (BitVec.ofNat 64 (r.bits % 2 ^ 32)) r.flags

/-- A reduction over an integer type (R195). -/
def VBank.reduceI (b : VBank) (d : SReg) (a : VReg) (y : VTy) (p : PReg) (idn : Int) (f : Int → Int → Int) : VOut :=
  let pm := b.pred p
  let xs := (upTo (vlanes y)).map (fun i => if bitAt pm i then vint y ((b.els a y).getD i 0) else idn)
  outS d (BitVec.ofInt 64 (xs.foldl f idn)) 0

/-- The least and the greatest value of an integer type. -/
def vminInt (y : VTy) : Int := if y = .ui8 then 0 else -(2 : Int) ^ (vwidth y - 1)
/-- The greatest value of an integer type. -/
def vmaxInt (y : VTy) : Int := if y = .ui8 then 255 else (2 : Int) ^ (vwidth y - 1) - 1

/-- One element converted (R196). -/
def vconv (st dt : VTy) (rm x : Nat) : FRes :=
  if st.isFp then
    if dt.isFp then cvtF (vfmt st) (vfmt dt) rm x
    else
      let (v, fl) := cvtI (vfmt st) rm (vminInt dt) (vmaxInt dt) x
      ⟨wrapN v (vwidth dt), fl⟩
  else if dt.isFp then cvtIntF (vfmt dt) rm (vint st x)
  else if dt = .ui8 then plain (wrapN (satu8 (vint st x)) 8)
  else plain (wrapN (sat (vint st x) (vwidth dt)) (vwidth dt))

/-- `vcvt` (R196): lanes from the smaller lane count on are zero, whatever the predicate. -/
def VBank.cvt (b : VBank) (v a : VReg) (dt st : VTy) (p : PReg) (rm : Nat) : VOut :=
  let n := min (vlanes st) (vlanes dt)
  let (vs, fl) := mergeEls (b.pred p) ((b.els v dt).take n) (((b.els a st).take n).map (vconv st dt rm))
  outV v (joinElems (vwidth dt) vs) fl

/-- An element as `vext` reads it: sign-extended for the signed integer types (R198). -/
def vextWord (y : VTy) (x : Nat) : Word := if y.isSigned then sext64 x (vwidth y) else BitVec.ofNat 64 x

/-- What a vector instruction writes, from its bank, its scalar operands and the rounding mode (R189 to R198). -/
def vecEval (i : Instr) (b : VBank) (ss : List Word) (rm : Nat) : VOut :=
  let s0 := (ss.getD 0 0).toNat
  let s1 := (ss.getD 1 0).toNat
  match i with
  | .vaddInt v a c y p => b.int2 v a c y p (fun x z => x + z)
  | .vsubInt v a c y p => b.int2 v a c y p (fun x z => x - z)
  | .vmulInt v a c y p => b.int2 v a c y p (fun x z => x * z)
  | .vminInt v a c y p => b.int2 v a c y p min
  | .vmaxInt v a c y p => b.int2 v a c y p max
  | .vabsInt v a y p => b.int1 v a y p (fun x => if x < 0 then -x else x)
  | .vnegInt v a y p => b.int1 v a y p (fun x => -x)
  | .vdot v a c p => b.dot v a c p
  | .vaddFp v a c y p => b.op2 v a c y p (fpAdd (vfmt y) rm)
  | .vsubFp v a c y p => b.op2 v a c y p (fpSub (vfmt y) rm)
  | .vmulFp v a c y p => b.op2 v a c y p (fpMul (vfmt y) rm)
  | .vfma v a c y p => b.op3 v a c y p (fpFma (vfmt y) rm)
  | .vfms v a c y p => b.op3 v a c y p (fpFms (vfmt y) rm)
  | .vfnma v a c y p => b.op3 v a c y p (fpFnma (vfmt y) rm)
  | .vdiv v a c y p => b.op2 v a c y p (fpDiv (vfmt y) rm)
  | .vsqrt v a y p => b.op1 v a y p (fpSqrt (vfmt y) rm)
  | .vminFp v a c y p => b.op2 v a c y p (fpMinMax (vfmt y) false)
  | .vmaxFp v a c y p => b.op2 v a c y p (fpMinMax (vfmt y) true)
  | .vabsFp v a y p => b.op1 v a y p (fpAbs (vfmt y))
  | .vnegFp v a y p => b.op1 v a y p (fpNeg (vfmt y))
  | .vclass v a y p => b.op1 v a y p (fun x => plain (fpClass (vfmt y) x))
  | .vand v a c y p => b.op2 v a c y p (fun x z => plain (x &&& z))
  | .vor v a c y p => b.op2 v a c y p (fun x z => plain (x ||| z))
  | .vxor v a c y p => b.op2 v a c y p (fun x z => plain (x ^^^ z))
  | .vandn v a c y p => b.op2 v a c y p (fun x z => plain (x &&& (2 ^ vwidth y - 1 - z)))
  | .vshl v a c y p => b.op2 v a c y p (fun x z => plain (x * 2 ^ vamount (vwidth y) z % 2 ^ vwidth y))
  | .vshr v a c y p => b.op2 v a c y p (fun x z => plain (x / 2 ^ vamount (vwidth y) z))
  | .vsra v a c y p => b.op2 v a c y p (fun x z => plain (wrapN (sextInt x (vwidth y) / 2 ^ vamount (vwidth y) z) (vwidth y)))
  | .vcmpEq q a c y p => b.cmp q a c y p (fun x z => x == z) (fcmpBit y .eq false)
  | .vcmpNe q a c y p => b.cmp q a c y p (fun x z => x != z) (fcmpBit y .eq true)
  | .vcmpLt q a c y p => b.cmp q a c y p (fun x z => x < z) (fcmpBit y .lt false)
  | .vcmpLe q a c y p => b.cmp q a c y p (fun x z => x ≤ z) (fcmpBit y .le false)
  | .vcmpGt q a c y p => b.cmp q a c y p (fun x z => z < x) (fun x z => fcmpBit y .lt false z x)
  | .vcmpGe q a c y p => b.cmp q a c y p (fun x z => z ≤ x) (fun x z => fcmpBit y .le false z x)
  | .vsel v a c y p =>
    let pm := b.pred p
    outV v (joinElems (vwidth y) (List.zipWith (fun n (q : Nat × Nat) => if bitAt pm n then q.1 else q.2)
      (upTo (vlanes y)) ((b.els a y).zip (b.els c y)))) 0
  | .vperm v a c y p => b.move v y p (fun n => (b.els a y).getD ((b.els c y).getD n 0 % vlanes y) 0)
  | .vslide v a c y p =>
    let k := sextInt ((b.els c y).getD 0 0) (vwidth y)
    b.move v y p (fun n => if 0 ≤ (n : Int) + k then (b.els a y).getD ((n : Int) + k).toNat 0 else 0)
  | .vzip v a c y p => b.move v y p (fun n => (b.els (if n % 2 = 0 then a else c) y).getD (n / 2) 0)
  | .vunzip v a c y p =>
    b.move v y p (fun n => if 2 * n < vlanes y then (b.els a y).getD (2 * n) 0 else (b.els c y).getD (2 * n - vlanes y) 0)
  | .vredsum d a y p => if y.isFp then b.reduceF d a y p 0x80000000 (fpAdd .f32 rm) else b.reduceI d a y p 0 (fun x z => x + z)
  | .vredmax d a y p => if y.isFp then b.reduceF d a y p 0xFF800000 (fpMinMax .f32 true) else b.reduceI d a y p (vminInt y) max
  | .vredmin d a y p => if y.isFp then b.reduceF d a y p 0x7F800000 (fpMinMax .f32 false) else b.reduceI d a y p (vmaxInt y) min
  | .vcvt v a y p st => b.cvt v a y st p rm
  | .pand q r u y p => b.predOp q y p (fun n => bitAt (b.pred r) n && bitAt (b.pred u) n)
  | .por q r u y p => b.predOp q y p (fun n => bitAt (b.pred r) n || bitAt (b.pred u) n)
  | .pxor q r u y p => b.predOp q y p (fun n => bitAt (b.pred r) n != bitAt (b.pred u) n)
  | .pnot q r y p => b.predOp q y p (fun n => !bitAt (b.pred r) n)
  | .pset q y p => b.predOp q y p (fun _ => true)
  | .pcnt d r y p =>
    outS d (BitVec.ofNat 64 ((upTo (vlanes y)).filter (fun n => bitAt (b.pred p) n && bitAt (b.pred r) n)).length) 0
  | .pfirst d r y p =>
    outS d (match firstFrom (fun n => bitAt (b.pred p) n && bitAt (b.pred r) n) 0 (vlanes y) with
      | some n => BitVec.ofNat 64 n
      | none => BitVec.allOnes 64) 0
  | .vbcast v _ y p => b.move v y p (fun _ => s0 % 2 ^ vwidth y)
  | .vext d a _ y => outS d (vextWord y ((b.els a y).getD (s0 % vlanes y) 0)) 0
  | .vins v _ _ y p =>
    let j := s1 % vlanes y
    if bitAt (b.pred p) j then outV v (joinElems (vwidth y) ((b.els v y).set j (s0 % 2 ^ vwidth y))) 0
    else outV v (b.num v.val) 0
  | _ => VOut.none

/-- The scalar registers that a vector instruction reads at dispatch (R181). -/
def vecScalars : Instr → List SReg
  | .vbcast _ x _ _ => [x]
  | .vext _ _ x _ => [x]
  | .vins _ x i _ _ => [x, i]
  | _ => []

/-- The result of a scalar instruction in a repetition's body (R202), from the registers' values. -/
def scalarEval (v : Reg → Word) : Instr → Option (Reg × Word)
  | .add d a b _ _ => some (d, fAdd (v a) (v b))
  | .sub d a b _ _ => some (d, fSub (v a) (v b))
  | .and d a b _ _ => some (d, fAnd (v a) (v b))
  | .or d a b _ _ => some (d, fOr (v a) (v b))
  | .xor d a b _ _ => some (d, fXor (v a) (v b))
  | .andn d a b _ _ => some (d, fAndn (v a) (v b))
  | .orn d a b _ _ => some (d, fOrn (v a) (v b))
  | .shl d a b _ _ => some (d, fShl (v a) (v b))
  | .shr d a b _ _ => some (d, fShr (v a) (v b))
  | .sra d a b _ _ => some (d, fSra (v a) (v b))
  | .rol d a b _ _ => some (d, fRol (v a) (v b))
  | .ror d a b _ _ => some (d, fRor (v a) (v b))
  | .mul d a b _ _ => some (d, fMul (v a) (v b))
  | .mulh d a b _ _ => some (d, fMulh (v a) (v b))
  | .mulhu d a b _ _ => some (d, fMulhu (v a) (v b))
  | .mulhsu d a b _ _ => some (d, fMulhsu (v a) (v b))
  | .div d a b _ _ => some (d, fDiv (v a) (v b))
  | .divu d a b _ _ => some (d, fDivu (v a) (v b))
  | .rem d a b _ _ => some (d, fRem (v a) (v b))
  | .remu d a b _ _ => some (d, fRemu (v a) (v b))
  | .min d a b _ _ => some (d, fMin (v a) (v b))
  | .max d a b _ _ => some (d, fMax (v a) (v b))
  | .minu d a b _ _ => some (d, fMinu (v a) (v b))
  | .maxu d a b _ _ => some (d, fMaxu (v a) (v b))
  | .slt d a b _ _ => some (d, fSlt (v a) (v b))
  | .sltu d a b _ _ => some (d, fSltu (v a) (v b))
  | .seq d a b _ _ => some (d, fSeq (v a) (v b))
  | .sne d a b _ _ => some (d, fSne (v a) (v b))
  | .mix d a b _ _ => some (d, fMix (v a) (v b))
  | .clz d a _ => some (d, fClz (v a))
  | .ctz d a _ => some (d, fCtz (v a))
  | .popc d a _ => some (d, fPopc (v a))
  | .bswap d a _ => some (d, fBswap (v a))
  | .brev d a _ => some (d, fBrev (v a))
  | .sextB d a _ => some (d, fSextB (v a))
  | .sextH d a _ => some (d, fSextH (v a))
  | .sextW d a _ => some (d, fSextW (v a))
  | .zextB d a _ => some (d, fZextB (v a))
  | .zextH d a _ => some (d, fZextH (v a))
  | .zextW d a _ => some (d, fZextW (v a))
  | .sel d a b _ _ => some (d, if v d ≠ 0 then v a else v b)
  | .addi d a _ i => some (d, fAddi i (v a))
  | .andi d a _ i => some (d, fAndi i (v a))
  | .ori d a _ i => some (d, fOri i (v a))
  | .xori d a _ i => some (d, fXori i (v a))
  | .slti d a _ i => some (d, fSlti i (v a))
  | .sltiu d a _ i => some (d, fSltiu i (v a))
  | .shli d a _ n => some (d, v a <<< n.val)
  | .shri d a _ n => some (d, v a >>> n.val)
  | .srai d a _ n => some (d, (v a).sshiftRight n.val)
  | .roli d a _ n => some (d, (v a).rotateLeft n.val)
  | .lui d i => some (d, upper64 i)
  | .bfx d a _ l w => some (d, bfx64 l.val w.val (v a))
  | .bfi d a _ l w => some (d, bfi64 l.val w.val (v d) (v a))
  | _ => none

end Sys2Proof.Machine
end

