-- ==== Sys2Proof/Machine/Vector.lean ====
section
/-! DEFINITION. Dispatch to the vector unit, its starts and completions, late vector faults, and the repetition buffer (R179 to R187, R199 to R203). -/

namespace Sys2Proof.Machine

/-- The bank of a context still belongs to a pre-empted thread (R375). -/
def State.bankTagged (s : State) (k : Nat) : Bool := (s.vbank k).tag.isSome

/-- Dispatch of a vector instruction (R181): scalar operands are read, a number and a ring entry taken, and the instruction queued. -/
def State.vecDispatch (s : State) (i : Instr) : State :=
  let ss : List Reg := (vecScalars i).map (fun r => Fin.ofNat 64 r.val)
  let ds : List Reg := (scalarDest i).toList.map (fun d => Fin.ofNat 64 d)
  s.issue ⟨[], ss.map (fun r => (r, false)), [], ds⟩
    (if s.bankTagged s.me then s.parkMe (.bank s.me)
     else if !s.vectorRoom s.cur.1 s.cur.2 then s.parkMe .vector
     else
       let vals := ss.map s.val
       let pc := s.self.pc
       let rm := s.rm
       let (seq, s) := s.nextSeq 1
       let (id, s) := s.fresh
       let s := s.ringPut s.cur.1 (s.ringEntry seq 0 pc ((encode i).headD 0) 4)
       let o : VOp := { id := id, core := s.cur.1, ctx := s.cur.2, agent := s.agent, seq := seq, pc := pc, instr := i
                        scalars := vals, isPass := false, ord := id, rm := rm, out := none }
       { s with vops := s.vops ++ [o] }.finish i)

/-! ### Start and completion -/

/-- The context of a vector instruction. -/
def VOp.key (o : VOp) : Nat := ctxKey o.core o.ctx

/-- The rounding mode an instruction runs under: that of its dispatch or that of its start, where they differ. DESIGN CHOICE, safe: log entry 27. -/
def State.roundingOf (s : State) (o : VOp) : Nat × State :=
  let now := (s.ctx o.key).fmode.toNat % 4
  if now = o.rm then (now, s) else s.pick o.rm [o.rm, now]

/-- What an instruction or pass will write (R189, R202). -/
def State.vopOut (s : State) (o : VOp) (rm : Nat) : VOut :=
  let x := s.ctx o.key
  let v (r : Reg) : Word := (x.cell r.val).val
  match scalarEval v o.instr with
  | some (d, w) => { VOut.none with s := some (d.val, w) }
  | none =>
    let ss := if o.isPass then (vecScalars o.instr).map (fun r => (x.cell r.val).val) else o.scalars
    vecEval o.instr (s.vbank o.key) ss rm

/-- An instruction that meets a poison mark on a vector source, or a pass that meets one on a scalar source (R187, R203). -/
def State.vopPoisoned (s : State) (o : VOp) : Bool :=
  (vuse o.instr).vr.any (fun v => ((s.vbank o.key).cell v).poison)
    || (o.isPass && (scalarSrcs o.instr).any (fun r => ((s.ctx o.key).cell r).poison))

/-- Everything of the bank after a faulting instruction that has not started is discarded, remaining passes included (R187). -/
def State.discardAfter (s : State) (o : VOp) : State :=
  let gone := (s.vwork o.key).filter (fun q => q.out.isNone && q.id ≠ o.id)
  let s := gone.foldl (fun s q => s.ringFree q.core q.agent q.seq) s
  { s with vops := s.vops.filter (fun q => !(q.key == o.key && q.out.isNone))
           reps := s.reps.filter (fun r => !(r.key == o.key && decide (o.ord ≤ r.id))) }

/-- An instruction that reads a vector or predicate register whose parity check fails (R187). -/
def State.vopParity (s : State) (o : VOp) : Bool :=
  let bad := (s.vbank o.key).bad
  let u := vuse o.instr
  bad != [] && (u.vr.any (fun v => smGet false bad v) || u.pr.any (fun p => smGet false bad (32 + p)))

/-- The late fault of an instruction at its start: PARITY where both kinds are met (R187). DESIGN CHOICE, unsafe: log entry 84. -/
def State.vopFault (s : State) (o : VOp) : Option Nat :=
  if s.vopParity o then some 2 else if s.vopPoisoned o then some 1 else none

/-- The vector unit's choice among the contexts of a core: the last context of the class at which it has started work (R182). -/
def State.vectorTurn (s : State) (o : VOp) : State :=
  if o.ctx = 8 then s
  else
    let c := s.core o.core
    s.setCore o.core { c with vlast := smPut 8 c.vlast (s.ctx o.key).prio o.ctx }

/-- VECTOR_START: the vector unit starts an instruction or pass; one that meets a poison mark or a parity failure faults late (R182, R187).
Argument: a, its identity. -/
def execVectorStart (s : State) : Host.Outcome State Fault Refusal :=
  .next (
    match s.vops.find? (fun o => o.id == s.arg.a) with
    | none => s
    | some o =>
      match s.vopFault o with
      | some sub => ((s.vectorTurn o).ringFault o.core o.agent o.seq ⟨0x10, sub, o.pc⟩).discardAfter o
      | none =>
        let (rm, s) := (s.vectorTurn o).roundingOf o
        let out := s.vopOut o rm
        { s with vops := s.vops.map (fun (q : VOp) => if q.id = o.id then { q with out := some out } else q) })

/-- What a completed instruction writes. -/
def State.writeVector (s : State) (k : Nat) (w : VOut) : State :=
  let b := s.vbank k
  let b := match w.v with
    | some (v, x) => b.setCell v ⟨x, false⟩
    | none => b
  let b := match w.p with
    | some (p, x) => if p = 0 then b else { b with p := smPut 0 b.p p x, bad := smPut false b.bad (32 + p) false }
    | none => b
  let s := s.setVbank k b
  let x := s.ctx k
  let x := match w.s with
    | some (d, v) => x.write d v
    | none => x
  s.setCtx k { x with fflags := x.fflags ||| BitVec.ofNat 64 w.flags }

/-- A repetition that has handed on every pass, and whose passes have completed, leaves the buffer (R202). -/
def State.repDone (s : State) (id : Nat) : State :=
  if s.vops.any (fun o => o.isPass && o.ord == id) then s
  else { s with reps := s.reps.filter (fun r => !(r.id == id && !r.running)) }

/-- VECTOR_COMPLETION: a started instruction writes its result and its flags, and its ring entry is freed (R179, R183, R186).
Argument: a, its identity. -/
def execVectorCompletion (s : State) : Host.Outcome State Fault Refusal :=
  .next (
    match s.vops.find? (fun o => o.id == s.arg.a) with
    | none => s
    | some o =>
      match o.out with
      | none => s
      | some w =>
        let s := if w = VOut.none then s else s.writeVector o.key w
        (({ s with vops := s.vops.filter (fun q => q.id ≠ o.id) }).ringFree o.core o.agent o.seq).repDone o.ord)

/-- REP_PASS: the repetition buffer hands its next instance on to the vector unit (R202).
Argument: a, the context's key. -/
def execRepPass (s : State) : Host.Outcome State Fault Refusal :=
  .next (
    match s.reps.find? (fun r => r.key == s.arg.a && r.running) with
    | none => s
    | some r =>
      match r.passInstr r.pass (r.body.getD r.pos 0) with
      | none => s
      | some i =>
        let k := r.key
        let x := s.ctx k
        let (id, s) := s.fresh
        let len := r.body.length
        let n := r.pass * len + r.pos
        let seq := (r.seq0 + n) % 65536
        let pc := r.pc + BitVec.ofNat 64 (4 + 4 * r.pos)
        let agent := agentOf (k / 16) (k % 16) x
        let e : RingEntry := { agent := agent, ctx := k % 16, name := x.name, tenant := x.tenant, seq := seq, pass := r.pass, pc := pc
                               word := (encode i).headD 0, kind := 4, user := r.user, fault := none, orphan := false }
        let o : VOp := { id := id, core := k / 16, ctx := k % 16, agent := agent, seq := seq, pc := pc, instr := i, scalars := []
                         isPass := true, ord := r.id, rm := r.rm, out := none }
        let early (q : VOp) : Bool := !(q.key == k) || decide (q.ord ≤ r.id)
        let s := s.ringPut (k / 16) e
        let next := if r.pos + 1 < len then { r with pos := r.pos + 1 } else { r with pos := 0, pass := r.pass + 1 }
        { s with vops := s.vops.takeWhile early ++ [o] ++ s.vops.dropWhile early
                 reps := s.reps.map (fun q => if q = r then next else q) })

/-- The oldest late fault that a context may take: one of work dispatched in user mode waits while the context is in supervisor mode (R363). -/
def State.lateFault (s : State) (core ctx : Nat) : Option RingEntry :=
  let x := s.ctx (ctxKey core ctx)
  (s.core core).ring.find? (fun e => e.agent == agentOf core ctx x && e.fault.isSome && !e.orphan && (!e.user || x.priv = .user))

/-- LATE_FAULT_DELIVERY: the oldest late fault of a context is taken before its next instruction issues (R187, R290).
Argument: a, the core; b, the context. -/
def execLateFaultDelivery (s : State) : Host.Outcome State Fault Refusal :=
  let core := s.arg.a
  let ctx := s.arg.b
  let x := s.ctx (ctxKey core ctx)
  .next (
    match s.lateFault core ctx with
    | none => s
    | some e =>
      match e.fault with
      | none => s
      | some l =>
        let s := s.setCore core { s.core core with ring := (s.core core).ring.filter (fun q => q ≠ e) }
        let s := s.leaveSems (ctxKey core ctx)
        takeTrapAt s core ctx l.cause l.sub l.val x.pc e.seq true)

/-! ### The repetition buffer -/

/-- The opcodes that may stand in a repetition's body (R200). -/
def bodyOp (op : Nat) : Bool :=
  (decide (0x01 ≤ op) && decide (op ≤ 0x09)) || op == 0x0B || (decide (0x20 ≤ op) && decide (op ≤ 0x27)) || op == 0x29

/-- A body word with a trap bit set (R200). -/
def bodyTrapBit (w : Nat) : Bool :=
  let op := w / 67108864
  if op = 1 then bits w 7 6 != 0
  else if (2 ≤ op ∧ op ≤ 8) ∨ op = 0x0B then bitAt w 13
  else false

/-- The first failure of a captured word, if any (R200). -/
def Rep.bodyFault (r : Rep) (w : Nat) : Option Nat :=
  let ok := bodyOp (w / 67108864) && (match Sys2Proof.Dec.word .e w with
    | .ok _ => true
    | _ => false)
  if !ok then some 3
  else if bodyTrapBit w then some 4
  else if (upTo (min r.n 32)).any (fun k => (bodyScalars w).any (fun q => isPort (r.field k q.1 q.2.1))) then some 5
  else none

/-- The first failing word of a body, by position. -/
def Rep.firstFault (r : Rep) : Option (Nat × Nat) :=
  ((upTo r.body.length).filterMap (fun j => (r.bodyFault (r.body.getD j 0)).map (fun f => (j, f)))).head?

/-- The n words of a body, fetched one after the other from an address. -/
def State.capture (s : State) (va : Nat) : Nat → List Nat → List Nat × Option State × State
  | 0, ws => (ws, none, s)
  | n + 1, ws =>
    match s.fetch va with
    | .stop t => (ws, some t, s)
    | .line b t => t.capture (va + 4) n (ws ++ lineWords b (va % 128) 1)

/-- A repetition with n passes (R199 to R202): the body is captured and checked, numbers are reserved, and the scalar stream goes on behind it. -/
def State.runRep (s : State) (i : Instr) (n l st fields w : Nat) : State :=
  let pc := s.self.pc
  let len := l + 1
  if s.bankTagged s.me then s.parkMe (.bank s.me)
  else if s.reps.any (fun r => r.key == s.me) then s.parkMe .vector
  else
    match s.capture (pc.toNat + 4) len [] with
    | (_, some t, _) => t
    | (body, none, s) =>
      let r : Rep := { key := s.me, word := (encode i).headD 0, pc := pc, n := n, body := body, stride := st, fields := fields
                       window := 4 * 2 ^ w, pass := 0, pos := 0, seq0 := s.self.dseq, id := s.nid, rm := s.rm, user := decide (s.self.priv = .user) }
      match r.firstFault with
      | some (j, sub) => s.trap 0x0E sub (pc + BitVec.ofNat 64 (4 + 4 * j))
      | none =>
        let s := if n = 0 then s else { (s.nextSeq (n * len)).2 with nid := s.nid + 1, reps := s.reps ++ [r] }
        let x := body.foldl (fun (x : Ctx) b => { x with sig := sigFeed x.sig b }) (s.self.feed i)
        s.setSelf ((x.fallThrough (4 + 4 * len)).issuedAt s.cycle)

/-- `rep` with its count in a register (R199). -/
def execRepR (c : Reg) (l : Fin 16) (sx : Fin 16) (m : Fin 8) (w : Fin 4) (t : Bool) (s : State) : Host.Outcome State Fault Refusal :=
  let n := (s.val c).toNat
  .next (s.issue ⟨[], [(c, t)], [], []⟩
    (if 65535 < n then s.trap 0x0E 2 s.self.pc else s.runRep (.repR c l sx m w t) n l.val sx.val m.val w.val))

/-- `rep` with an immediate count (R199). -/
def execRepI (n : Fin 64) (l : Fin 16) (sx : Fin 16) (m : Fin 8) (w : Fin 4) (s : State) : Host.Outcome State Fault Refusal :=
  .next (s.issue useNothing
    (if n = 0 then s.trap 0x0E 1 s.self.pc else s.runRep (.repI n l sx m w) n.val l.val sx.val m.val w.val))

/-! ### The vector instructions -/

/-- `vaddInt` (R190). -/
def execVaddInt (v : VReg) (a : VReg) (b : VReg) (y : VTy) (p : PReg) (s : State) : Host.Outcome State Fault Refusal :=
  .next (s.vecDispatch (.vaddInt v a b y p))

/-- `vsubInt` (R190). -/
def execVsubInt (v : VReg) (a : VReg) (b : VReg) (y : VTy) (p : PReg) (s : State) : Host.Outcome State Fault Refusal :=
  .next (s.vecDispatch (.vsubInt v a b y p))

/-- `vmulInt` (R190). -/
def execVmulInt (v : VReg) (a : VReg) (b : VReg) (y : VTy) (p : PReg) (s : State) : Host.Outcome State Fault Refusal :=
  .next (s.vecDispatch (.vmulInt v a b y p))

/-- `vminInt` (R190). -/
def execVminInt (v : VReg) (a : VReg) (b : VReg) (y : VTy) (p : PReg) (s : State) : Host.Outcome State Fault Refusal :=
  .next (s.vecDispatch (.vminInt v a b y p))

/-- `vmaxInt` (R190). -/
def execVmaxInt (v : VReg) (a : VReg) (b : VReg) (y : VTy) (p : PReg) (s : State) : Host.Outcome State Fault Refusal :=
  .next (s.vecDispatch (.vmaxInt v a b y p))

/-- `vabsInt` (R190). -/
def execVabsInt (v : VReg) (a : VReg) (y : VTy) (p : PReg) (s : State) : Host.Outcome State Fault Refusal :=
  .next (s.vecDispatch (.vabsInt v a y p))

/-- `vnegInt` (R190). -/
def execVnegInt (v : VReg) (a : VReg) (y : VTy) (p : PReg) (s : State) : Host.Outcome State Fault Refusal :=
  .next (s.vecDispatch (.vnegInt v a y p))

/-- `vdot` (R190). -/
def execVdot (v : VReg) (a : VReg) (b : VReg) (p : PReg) (s : State) : Host.Outcome State Fault Refusal :=
  .next (s.vecDispatch (.vdot v a b p))

/-- `vaddFp` (R191). -/
def execVaddFp (v : VReg) (a : VReg) (b : VReg) (y : VTy) (p : PReg) (s : State) : Host.Outcome State Fault Refusal :=
  .next (s.vecDispatch (.vaddFp v a b y p))

/-- `vsubFp` (R191). -/
def execVsubFp (v : VReg) (a : VReg) (b : VReg) (y : VTy) (p : PReg) (s : State) : Host.Outcome State Fault Refusal :=
  .next (s.vecDispatch (.vsubFp v a b y p))

/-- `vmulFp` (R191). -/
def execVmulFp (v : VReg) (a : VReg) (b : VReg) (y : VTy) (p : PReg) (s : State) : Host.Outcome State Fault Refusal :=
  .next (s.vecDispatch (.vmulFp v a b y p))

/-- `vfma` (R191). -/
def execVfma (v : VReg) (a : VReg) (b : VReg) (y : VTy) (p : PReg) (s : State) : Host.Outcome State Fault Refusal :=
  .next (s.vecDispatch (.vfma v a b y p))

/-- `vfms` (R191). -/
def execVfms (v : VReg) (a : VReg) (b : VReg) (y : VTy) (p : PReg) (s : State) : Host.Outcome State Fault Refusal :=
  .next (s.vecDispatch (.vfms v a b y p))

/-- `vfnma` (R191). -/
def execVfnma (v : VReg) (a : VReg) (b : VReg) (y : VTy) (p : PReg) (s : State) : Host.Outcome State Fault Refusal :=
  .next (s.vecDispatch (.vfnma v a b y p))

/-- `vdiv` (R191). -/
def execVdiv (v : VReg) (a : VReg) (b : VReg) (y : VTy) (p : PReg) (s : State) : Host.Outcome State Fault Refusal :=
  .next (s.vecDispatch (.vdiv v a b y p))

/-- `vsqrt` (R191). -/
def execVsqrt (v : VReg) (a : VReg) (y : VTy) (p : PReg) (s : State) : Host.Outcome State Fault Refusal :=
  .next (s.vecDispatch (.vsqrt v a y p))

/-- `vminFp` (R191). -/
def execVminFp (v : VReg) (a : VReg) (b : VReg) (y : VTy) (p : PReg) (s : State) : Host.Outcome State Fault Refusal :=
  .next (s.vecDispatch (.vminFp v a b y p))

/-- `vmaxFp` (R191). -/
def execVmaxFp (v : VReg) (a : VReg) (b : VReg) (y : VTy) (p : PReg) (s : State) : Host.Outcome State Fault Refusal :=
  .next (s.vecDispatch (.vmaxFp v a b y p))

/-- `vabsFp` (R191). -/
def execVabsFp (v : VReg) (a : VReg) (y : VTy) (p : PReg) (s : State) : Host.Outcome State Fault Refusal :=
  .next (s.vecDispatch (.vabsFp v a y p))

/-- `vnegFp` (R191). -/
def execVnegFp (v : VReg) (a : VReg) (y : VTy) (p : PReg) (s : State) : Host.Outcome State Fault Refusal :=
  .next (s.vecDispatch (.vnegFp v a y p))

/-- `vclass` (R191). -/
def execVclass (v : VReg) (a : VReg) (y : VTy) (p : PReg) (s : State) : Host.Outcome State Fault Refusal :=
  .next (s.vecDispatch (.vclass v a y p))

/-- `vand` (R192). -/
def execVand (v : VReg) (a : VReg) (b : VReg) (y : VTy) (p : PReg) (s : State) : Host.Outcome State Fault Refusal :=
  .next (s.vecDispatch (.vand v a b y p))

/-- `vor` (R192). -/
def execVor (v : VReg) (a : VReg) (b : VReg) (y : VTy) (p : PReg) (s : State) : Host.Outcome State Fault Refusal :=
  .next (s.vecDispatch (.vor v a b y p))

/-- `vxor` (R192). -/
def execVxor (v : VReg) (a : VReg) (b : VReg) (y : VTy) (p : PReg) (s : State) : Host.Outcome State Fault Refusal :=
  .next (s.vecDispatch (.vxor v a b y p))

/-- `vandn` (R192). -/
def execVandn (v : VReg) (a : VReg) (b : VReg) (y : VTy) (p : PReg) (s : State) : Host.Outcome State Fault Refusal :=
  .next (s.vecDispatch (.vandn v a b y p))

/-- `vshl` (R192). -/
def execVshl (v : VReg) (a : VReg) (b : VReg) (y : VTy) (p : PReg) (s : State) : Host.Outcome State Fault Refusal :=
  .next (s.vecDispatch (.vshl v a b y p))

/-- `vshr` (R192). -/
def execVshr (v : VReg) (a : VReg) (b : VReg) (y : VTy) (p : PReg) (s : State) : Host.Outcome State Fault Refusal :=
  .next (s.vecDispatch (.vshr v a b y p))

/-- `vsra` (R192). -/
def execVsra (v : VReg) (a : VReg) (b : VReg) (y : VTy) (p : PReg) (s : State) : Host.Outcome State Fault Refusal :=
  .next (s.vecDispatch (.vsra v a b y p))

/-- `vcmpEq` (R193). -/
def execVcmpEq (q : PReg) (a : VReg) (b : VReg) (y : VTy) (p : PReg) (s : State) : Host.Outcome State Fault Refusal :=
  .next (s.vecDispatch (.vcmpEq q a b y p))

/-- `vcmpNe` (R193). -/
def execVcmpNe (q : PReg) (a : VReg) (b : VReg) (y : VTy) (p : PReg) (s : State) : Host.Outcome State Fault Refusal :=
  .next (s.vecDispatch (.vcmpNe q a b y p))

/-- `vcmpLt` (R193). -/
def execVcmpLt (q : PReg) (a : VReg) (b : VReg) (y : VTy) (p : PReg) (s : State) : Host.Outcome State Fault Refusal :=
  .next (s.vecDispatch (.vcmpLt q a b y p))

/-- `vcmpLe` (R193). -/
def execVcmpLe (q : PReg) (a : VReg) (b : VReg) (y : VTy) (p : PReg) (s : State) : Host.Outcome State Fault Refusal :=
  .next (s.vecDispatch (.vcmpLe q a b y p))

/-- `vcmpGt` (R193). -/
def execVcmpGt (q : PReg) (a : VReg) (b : VReg) (y : VTy) (p : PReg) (s : State) : Host.Outcome State Fault Refusal :=
  .next (s.vecDispatch (.vcmpGt q a b y p))

/-- `vcmpGe` (R193). -/
def execVcmpGe (q : PReg) (a : VReg) (b : VReg) (y : VTy) (p : PReg) (s : State) : Host.Outcome State Fault Refusal :=
  .next (s.vecDispatch (.vcmpGe q a b y p))

/-- `vsel` (R193). -/
def execVsel (v : VReg) (a : VReg) (b : VReg) (y : VTy) (p : PReg) (s : State) : Host.Outcome State Fault Refusal :=
  .next (s.vecDispatch (.vsel v a b y p))

/-- `vperm` (R194). -/
def execVperm (v : VReg) (a : VReg) (b : VReg) (y : VTy) (p : PReg) (s : State) : Host.Outcome State Fault Refusal :=
  .next (s.vecDispatch (.vperm v a b y p))

/-- `vslide` (R194). -/
def execVslide (v : VReg) (a : VReg) (b : VReg) (y : VTy) (p : PReg) (s : State) : Host.Outcome State Fault Refusal :=
  .next (s.vecDispatch (.vslide v a b y p))

/-- `vzip` (R194). -/
def execVzip (v : VReg) (a : VReg) (b : VReg) (y : VTy) (p : PReg) (s : State) : Host.Outcome State Fault Refusal :=
  .next (s.vecDispatch (.vzip v a b y p))

/-- `vunzip` (R194). -/
def execVunzip (v : VReg) (a : VReg) (b : VReg) (y : VTy) (p : PReg) (s : State) : Host.Outcome State Fault Refusal :=
  .next (s.vecDispatch (.vunzip v a b y p))

/-- `vredsum` (R195). -/
def execVredsum (d : SReg) (a : VReg) (y : VTy) (p : PReg) (s : State) : Host.Outcome State Fault Refusal :=
  .next (s.vecDispatch (.vredsum d a y p))

/-- `vredmax` (R195). -/
def execVredmax (d : SReg) (a : VReg) (y : VTy) (p : PReg) (s : State) : Host.Outcome State Fault Refusal :=
  .next (s.vecDispatch (.vredmax d a y p))

/-- `vredmin` (R195). -/
def execVredmin (d : SReg) (a : VReg) (y : VTy) (p : PReg) (s : State) : Host.Outcome State Fault Refusal :=
  .next (s.vecDispatch (.vredmin d a y p))

/-- `vcvt` (R196). -/
def execVcvt (v : VReg) (a : VReg) (y : VTy) (p : PReg) (sx : VTy) (s : State) : Host.Outcome State Fault Refusal :=
  .next (s.vecDispatch (.vcvt v a y p sx))

/-- `pand` (R197). -/
def execPand (q : PReg) (r : PReg) (sx : PReg) (y : VTy) (p : PReg) (s : State) : Host.Outcome State Fault Refusal :=
  .next (s.vecDispatch (.pand q r sx y p))

/-- `por` (R197). -/
def execPor (q : PReg) (r : PReg) (sx : PReg) (y : VTy) (p : PReg) (s : State) : Host.Outcome State Fault Refusal :=
  .next (s.vecDispatch (.por q r sx y p))

/-- `pxor` (R197). -/
def execPxor (q : PReg) (r : PReg) (sx : PReg) (y : VTy) (p : PReg) (s : State) : Host.Outcome State Fault Refusal :=
  .next (s.vecDispatch (.pxor q r sx y p))

/-- `pnot` (R197). -/
def execPnot (q : PReg) (r : PReg) (y : VTy) (p : PReg) (s : State) : Host.Outcome State Fault Refusal :=
  .next (s.vecDispatch (.pnot q r y p))

/-- `pcnt` (R197). -/
def execPcnt (d : SReg) (r : PReg) (y : VTy) (p : PReg) (s : State) : Host.Outcome State Fault Refusal :=
  .next (s.vecDispatch (.pcnt d r y p))

/-- `pfirst` (R197). -/
def execPfirst (d : SReg) (r : PReg) (y : VTy) (p : PReg) (s : State) : Host.Outcome State Fault Refusal :=
  .next (s.vecDispatch (.pfirst d r y p))

/-- `pset` (R197). -/
def execPset (q : PReg) (y : VTy) (p : PReg) (s : State) : Host.Outcome State Fault Refusal :=
  .next (s.vecDispatch (.pset q y p))

/-- `vbcast` (R198). -/
def execVbcast (v : VReg) (sx : SReg) (y : VTy) (p : PReg) (s : State) : Host.Outcome State Fault Refusal :=
  .next (s.vecDispatch (.vbcast v sx y p))

/-- `vext` (R198). -/
def execVext (d : SReg) (a : VReg) (sx : SReg) (y : VTy) (s : State) : Host.Outcome State Fault Refusal :=
  .next (s.vecDispatch (.vext d a sx y))

/-- `vins` (R198). -/
def execVins (v : VReg) (sx : SReg) (i : SReg) (y : VTy) (p : PReg) (s : State) : Host.Outcome State Fault Refusal :=
  .next (s.vecDispatch (.vins v sx i y p))

end Sys2Proof.Machine
end

