-- ==== Sys2Proof/Machine/VecMem.lean ====
section
/-! DEFINITION. The A-core's vector memory instructions on its partner's vector registers (R230 to R232). -/

namespace Sys2Proof.Machine

/-- The context of the partner core that a partner vector access acts on (R230). -/
def State.partnerKey (s : State) : Nat := ctxKey (partner s.cur.1) s.cur.2

/-- The bank of a free partner context is cleared at the first access after the context became free (R230). -/
def State.openBank (s : State) : State :=
  let k := s.partnerKey
  if (s.ctx k).occ || (s.vbank k).fresh then s else s.setVbank k { VBank.zero with fresh := true }

/-- The instruction waits for the writers of registers that are pending when it first reaches issue (R230, R232). -/
def State.afterWriters (s : State) (vs : List Nat) (k : State → State) : State :=
  let pend := distinct (vs.flatMap (s.vwriters s.partnerKey))
  match s.self.memo with
  | 7 :: ids =>
    if ids.any pend.contains then s.parkMe .writers else k s
  | _ => if pend = [] then k s else (s.setSelf { s.self with memo := 7 :: pend }).parkMe .writers

/-- A partner vector access at issue: the base register, a bank of a pre-empted thread, the writers, then k. -/
def State.runPartner (s : State) (a : Reg) (t : Bool) (waits : List Nat) (k : State → State) : State :=
  s.issue ⟨[], [(a, t)], [], []⟩
    (if s.bankTagged s.partnerKey then s.parkMe (.bank s.partnerKey)
     else s.openBank.afterWriters waits k)

/-- The requests of one part of a partner vector load: bytes from an offset of the register on. -/
def State.loadPart (s : State) (v off n : Nat) : Acc → State
  | .stop t => t
  | .localMem o =>
    let (b, bad) := s.dieRead (localKey s.cur.1 o) n
    s.readyReq (.vec (partner s.cur.1) s.cur.2 v off) b bad
  | .tile w o =>
    let (b, bad) := s.windowRead (tileOf s.cur.1) w o n
    s.readyReq (.vec (partner s.cur.1) s.cur.2 v off) b bad
  | .virt _ pa attr =>
    (upTo ((n + 15) / 16)).foldl (fun s i =>
      s.loadReq (.vec (partner s.cur.1) s.cur.2 v (off + 16 * i)) (pa + 16 * i) (min n 16) attr) s

/-- The requests made from identity g on are one access (R230). -/
def State.asGroup (s : State) (g : Nat) : State :=
  { s with reqs := s.reqs.map (fun (r : Req) => if g ≤ r.id then { r with grp := g } else r) }

/-- The stores made from identity g on are a partner vector store, which stays incomplete until they are performed (R230). -/
def State.asPartner (s : State) (g : Nat) : State :=
  { s with reqs := s.reqs.map (fun (r : Req) => if g ≤ r.id && (r.kind == .store || r.kind == .storeFill) then { r with pv := true } else r) }

/-- `vldp` (R231). -/
def execVldp (v : VReg) (a : Reg) (t : Bool) (o : BitVec 10) (s : State) : Host.Outcome State Fault Refusal :=
  .next (s.runPartner a t [] (fun s =>
    match s.access (effAddr (s.val a) o 128) 128 128 false false with
    | .stop t => t
    | acc => ((s.loadPart v.val 0 128 acc).asGroup s.nid).finish (.vldp v a t o)))

/-- A store to a checked address has to wait: for its own buffer line (R234), a line that a guard holds (R260), or a matrix command that reads the bytes (R317). -/
def State.storeBlocked (s : State) (n : Nat) : Acc → Option State
  | .stop t => some t
  | .localMem _ => none
  | .tile w o =>
    let (so, sn) := windowSpan w o n
    (s.rangeHeld (tileOf s.cur.1) so sn).map (fun id => s.parkMe (.event id))
  | .virt va pa attr =>
    match s.ntConflict pa with
    | some t => some t
    | none =>
      if s.storeHeld pa attr then some (s.parkMe (.guard (pa / 128) va)) else none

/-- Bytes stored to a checked address that nothing blocks. -/
def State.storeNow (s : State) (b : List Byte) : Acc → State
  | .stop t => t
  | .localMem o => s.dieWrite (localKey s.cur.1 o) b
  | .tile w o => s.windowWrite (tileOf s.cur.1) w o b
  | .virt va pa attr =>
    (upTo ((b.length + 15) / 16)).foldl (fun s i => s.storeVirt (va + 16 * i) (pa + 16 * i) attr ((b.drop (16 * i)).take 16)) s

/-- The sectors that a `vstp` through the plane window has still to write, as its context remembers them: each as its offset and 16 bytes (R302). -/
def Ctx.planeLeft (x : Ctx) : Option (List (Nat × List Byte)) :=
  match x.memo with
  | 11 :: r => some ((upTo (r.length / 17)).map (fun i => (r.getD (17 * i) 0, ((r.drop (17 * i + 1)).take 16).map (BitVec.ofNat 8))))
  | _ => none

/-- One of those sectors is written, in an order that the spec leaves open; the instruction goes on with the others, and then retires (R302, R317). -/
def State.writePlane (s : State) (i : Instr) (l : List (Nat × List Byte)) : State :=
  let t := tileOf s.cur.1
  let (x, s) := s.pick (0, []) l
  let keep (s : State) (p : Park) (l : List (Nat × List Byte)) : State :=
    s.setSelf { s.self with park := some p, since := s.cycle, memo := 11 :: l.flatMap (fun y => y.1 :: y.2.map (·.toNat)) }
  match s.rangeHeld t x.1 16 with
  | some id => keep s (.event id) l
  | none =>
    let s := s.scratchWrite t x.1 x.2
    match l.filter (· ≠ x) with
    | [] => s.finish i
    | r => keep s (.event 0) r

/-- A partner vector register as a store reads it. -/
def State.partnerCell (s : State) (v : Nat) : VCell := (s.vbank s.partnerKey).cell v

/-- `vstp` (R231), and `vstp.nt` through the combining buffer (R232). -/
def State.runVstp (s : State) (i : Instr) (v : VReg) (a : Reg) (t : Bool) (o : BitVec 10) (nt : Bool) : State :=
  match s.self.planeLeft with
  | some l => s.writePlane i l
  | none =>
  s.runPartner a t [v.val] (fun s =>
    let ea := effAddr (s.val a) o 128
    let c := s.partnerCell v.val
    let b := toBytes c.val.toNat 128
    if (s.vbank s.partnerKey).marked v.val then s.trap 0x09 3 (BitVec.ofNat 64 ea)
    else
      match s.access ea 128 128 true false with
      | .stop t => t
      | .virt va pa attr =>
        if nt then (s.ntPut pa attr ((upTo 128).map (fun j => (j, b.getD j 0)))).finish i
        else
          match s.storeBlocked 128 (.virt va pa attr) with
          | some t => t
          | none => ((s.storeNow b (.virt va pa attr)).asPartner s.nid).finish i
      | .tile 6 o =>
        match s.storeBlocked 128 (.tile 6 o) with
        | some t => t
        | none => s.writePlane i (planePieces o b)
      | acc =>
        match s.storeBlocked 128 acc with
        | some t => t
        | none => (s.storeNow b acc).finish i)

/-- `vstp` (R231). -/
def execVstp (v : VReg) (a : Reg) (t : Bool) (o : BitVec 10) (s : State) : Host.Outcome State Fault Refusal :=
  .next (s.runVstp (.vstp v a t o) v a t o false)

/-- `vstp.nt` (R231). -/
def execVstpNt (v : VReg) (a : Reg) (t : Bool) (o : BitVec 10) (s : State) : Host.Outcome State Fault Refusal :=
  .next (s.runVstp (.vstpNt v a t o) v a t o true)

/-- The lanes of an indexed access that are not skipped, with their addresses (R232). -/
def laneAddrs (base : Word) (x e : Nat) : List (Nat × Nat) :=
  let n := 128 / e
  ((upTo n).zip (elems x (8 * e) n)).filterMap (fun q =>
    if q.2 = 2 ^ (8 * e) - 1 then none else some (q.1, (base + BitVec.ofNat 64 (q.2 * e)).toNat))

/-- An address through the plane window, which indexed accesses do not go through (R302). -/
def planeAddr (ea : Nat) : Bool := ea / 2 ^ 36 == 0xF800000 && bits ea 35 32 == 6

/-- The checks of every lane, the lowest failing lane deciding (R232, R302). -/
def State.laneChecks (s : State) (e : Nat) (store : Bool) : List (Nat × Nat) → Option State × List (Nat × Acc)
  | [] => (none, [])
  | (i, ea) :: t =>
    match (if planeAddr ea then .stop (s.trap 0x04 0 (BitVec.ofNat 64 ea)) else s.access ea e e store false) with
    | .stop u => (some u, [])
    | acc =>
      let (f, l) := s.laneChecks e store t
      (f, (i, acc) :: l)

/-- An indexed access: the index register's mark, the base's alignment, every lane's checks, then k with the lanes (R232). -/
def State.runIndexed (s : State) (a : Reg) (t : Bool) (marks : List Nat) (x : VReg) (e : Nat) (store : Bool)
    (k : State → List (Nat × Acc) → State) : State :=
  s.runPartner a t (if store then marks else [x.val]) (fun s =>
    let base := s.val a
    if marks.any (s.vbank s.partnerKey).marked then s.trap 0x09 3 base
    else if base.toNat % e ≠ 0 then s.trap 0x04 0 base
    else
      match s.laneChecks e store (laneAddrs base (s.partnerCell x.val).val.toNat e) with
      | (some u, _) => u
      | (none, l) => k s l)

/-- The element size of `vldpx` and `vstpx`: codes 0, 1, 2 for 4, 2 and 1 bytes (R232). -/
def laneSize (e : Fin 4) : Nat := if e = 0 then 4 else if e = 1 then 2 else 1

/-- `vldpx` (R232). -/
def execVldpx (v : VReg) (a : Reg) (t : Bool) (x : VReg) (e : Fin 4) (s : State) : Host.Outcome State Fault Refusal :=
  let n := laneSize e
  .next (s.runIndexed a t [x.val] x n false (fun s l =>
    ((l.foldl (fun s q => s.loadPart v.val (n * q.1) n q.2) s).asGroup s.nid).finish (.vldpx v a t x e)))

/-- `vstpx` (R232): lanes are written in ascending order. -/
def execVstpx (v : VReg) (a : Reg) (t : Bool) (x : VReg) (e : Fin 4) (s : State) : Host.Outcome State Fault Refusal :=
  let n := laneSize e
  .next (s.runIndexed a t [x.val, v.val] x n true (fun s l =>
    let d := elems (s.partnerCell v.val).val.toNat (8 * n) (128 / n)
    match l.findSome? (fun q => s.storeBlocked n q.2) with
    | some u => u
    | none => ((l.foldl (fun s q => s.storeNow (toBytes (d.getD q.1 0) n) q.2) s).asPartner s.nid).finish (.vstpx v a t x e)))

end Sys2Proof.Machine
end

