-- ==== Sys2Proof/Machine/System.lean ====
section
/-! DEFINITION. Traps by instruction, the return from a trap, special registers, translation removal, termination by name, and the signature check (R15 to R20, R89 to R91, R356 to R358, R362, R367, R379, R386, R409, R410, R486). -/

namespace Sys2Proof.Machine

/-! ### Entering and leaving the supervisor -/

/-- `sys` (R89): the trap's return address is the next instruction after the end check. -/
def execSys (c : Fin 1024) (s : State) : Host.Outcome State Fault Refusal :=
  .next (s.issue useNothing
    (let y := s.self.fallThrough 4
     takeTrapAt (s.setSelf { s.self with loops := y.loops, sig := y.sig }) s.cur.1 s.cur.2 0x0C 0 (BitVec.ofNat 64 c.val) y.pc 0 false))

/-- `brk` (R89). -/
def execBrk (c : Fin 1024) (s : State) : Host.Outcome State Fault Refusal :=
  .next (s.issue useNothing (s.trap 0x0B 0 (BitVec.ofNat 64 c.val)))

/-- A word that is no instruction for the executing core (R40, R61).
Argument: a, the subcode; w, the word. -/
def execIllegal (s : State) : Host.Outcome State Fault Refusal := .next (s.trap 0x01 s.arg.a s.arg.w)

/-- The instruction is refused to user mode (R26, R55). -/
def State.supervisorOnly (s : State) (i : Instr) (k : State) : State :=
  if s.self.priv = .user then s.trapC (privCond i) else k

/-- `rte` (R362). -/
def execRte (s : State) : Host.Outcome State Fault Refusal :=
  let x := s.self
  let p := x.tcause.toNat / 1024 % 4
  .next (s.supervisorOnly .rte
    (if s.cur.2 = 8 then endEvent s s.cur.1
     else if p = 3 then s.trapC (illegalValue .rte)
     else if p = 2 then s.trapC (privCond .rte)
     else if x.tpc.toNat % 4 ≠ 0 then s.trap 0x04 0 x.tpc
     else s.setSelf ((x.feed .rte).leave.issuedAt s.cycle)))

/-- `sig` (R386): the next instruction is a block entry (R385). -/
def execSig (i : BitVec 16) (s : State) : Host.Outcome State Fault Refusal :=
  let x := s.self
  .next (s.issue useNothing
    (if bitAt x.sigctl.toNat 16 && x.sig != i then s.trap 0x0A 0 (BitVec.ofNat 64 (x.sig.toNat * 65536 + i.toNat))
     else s.setSelf (({ x with sig := 0 }.fallThrough 4).issuedAt s.cycle)))

/-! ### Chains and injected errors -/

/-- A chain link names a mesh neighbour in the same cluster (R357). -/
def State.linkOk (s : State) (core t : Nat) : Bool :=
  decide (core < 256) && adjacentTiles (tileOf core) t && (s.tile (tileOf core)).owner.isSome
    && (s.tile t).owner == (s.tile (tileOf core)).owner

/-- A value of `chain` that breaks a rule of R357, for a context of a core. -/
def State.chainBad (s : State) (core ctx w : Nat) : Bool :=
  bits w 63 20 != 0 || bits w 3 1 != 0 || decide (7 < ctx)
    || (bitAt w 4 && !s.linkOk core (bits w 11 5)) || (bitAt w 12 && !s.linkOk core (bits w 19 13))

/-- A chain configured: the contents of both queues of the context's links are discarded (R357). -/
def State.chainSet (s : State) (core ctx : Nat) (w : Word) : State :=
  let k := ctxKey core ctx
  let x := s.ctx k
  let y := { x with chain := w }
  let drop (s : State) (z : Ctx) : State := if hasDn z then s.setUpQ (ctxKey (dnCore core z) ctx) [] else s
  drop (drop ((s.setCtx k y).setUpQ k []) x) y

/-- CHAIN_WRITE: the write of `chain` for a context (R357).
Argument: a, the core; b, the context; w, the value. DEDUCED, safe: log entry 61. -/
def execChainWrite (s : State) : Host.Outcome State Fault Refusal :=
  let g := s.arg
  .next (if s.chainBad g.a g.b g.w.toNat then s else s.chainSet g.a g.b g.w)

/-- The cube-local address of a place in the stacks, the inverse of R219. -/
def State.placeAddr (s : State) (p : Place) : Nat :=
  let sl := p.die / 2
  let q := p.die % 2 * 2 ^ 29 + p.group * 2 ^ 27 + p.bank * 2 ^ 25 + p.row * 2 ^ 10 + p.byte
  if s.isLinear sl then sl * 2 ^ 36 + p.vault * 2 ^ 30 + q
  else
    let hi := q / 128
    sl * 2 ^ 36 + (hi * 64 + (p.vault ^^^ hashVault (hi * 64))) * 128 + q % 128

/-- A value of `einj` that breaks a rule of R409. -/
def einjBad (w : Nat) : Bool :=
  bits w 63 56 != 0 || decide (191 < bits w 55 48) || bits w 12 1 != 0 || bits w 26 20 == bits w 19 13

/-- The injection of R410: two data bits of a half are inverted, and its check word stays. -/
def State.inject (s : State) (vault w : Nat) : State :=
  let n := bits w 55 48
  let p : Place := ⟨vault, n / 16, n / 4 % 4, n % 4, bits w 47 33, bits w 32 28 * 32 + bits w 27 27 * 16⟩
  let la := s.placeAddr p
  let d := s.rawSector la ^^^ 2 ^ bits w 26 20 ^^^ 2 ^ bits w 19 13
  { s with mem := Memory.write s.mem la (toBytes d 16), ecc := smPut 0 s.ecc (la / 16) (s.checkOf la + eccStuck + 1) }

/-- Data bits i and j of a DRAM half inverted under its old check word, one bit when they are the same (R407, R487). -/
def State.flipBits (s : State) (la i j : Nat) : State :=
  let old := s.checkOf la
  let m := if i % 128 = j % 128 then 2 ^ (i % 128) else 2 ^ (i % 128) ^^^ 2 ^ (j % 128)
  let d := s.rawSector la ^^^ m
  let stuck := decide (eccStuck < smGet 0 s.ecc (la / 16))
  { s with mem := Memory.write s.mem la (toBytes d 16)
           ecc := smPut 0 s.ecc (la / 16) (if stuck then old + eccStuck + 1 else if old = checkWord d then 0 else old + 1) }

/-- A micro-word with bit 0 such that the parity over [127:0] is even (R352, R353). -/
def withParity (w : Nat) : Nat := w / 2 * 2 + popCount (w / 2) 127 % 2

/-- A shipped micro-word (R351). DESIGN CHOICE, safe: log entry 40. -/
def shippedWord (a : Nat) : Nat := withParity (Config.microWord a % 2 ^ 128)

/-- A micro-word of a vault's control store (R351): as written, or as shipped. DESIGN CHOICE, safe: log entry 40. -/
def State.microAt (s : State) (v a : Nat) : Nat :=
  match smGet 0 s.micro (256 * v + a) with
  | 0 => shippedWord a
  | w + 1 => w

/-- A write of a vault core's `einj`: the fields are kept, go reads 0, and with go the injection is made (R409, R410). -/
def State.writeEinj (s : State) (vault : Nat) (w : Word) : State :=
  let s := { s with einj := smPut 0 s.einj vault (w &&& ~~~1#64) }
  if bitAt w.toNat 0 then s.inject vault w.toNat else s

/-- A bit error of the hardware itself, in one of the places that the cube checks (R407).
b says where: 1, scalar register d of context a; 2 and 3, vector or predicate register d of that context's bank; 4, bit e of quarter d of the queue entry of command a, which stands for slot d;
5, accumulator element d of tile a; 6, the on-die sector at key a; 7, bits d and e of the DRAM half at address a; 8, bit e of micro-word d of vault a (below 128). DESIGN CHOICE, unsafe: log entry 83. -/
def State.bitError (s : State) (g : EvArg) : State :=
  match g.b with
  | 1 => let x := s.ctx g.a; if x.occ then s.setCtx g.a (x.setCell g.d { x.cell g.d with poison := true }) else s
  | 2 => let b := s.vbank g.a; s.setVbank g.a { b with bad := smPut false b.bad (g.d % 32) true }
  | 3 => let b := s.vbank g.a; s.setVbank g.a { b with bad := smPut false b.bad (33 + g.d % 7) true }
  | 4 => { s with cmds := s.cmds.map (fun (c : Cmd) => if c.id = g.a ∧ c.st = .queued then
      { c with flip := c.flip ^^^ 2 ^ (g.d % 4), slots := c.slots.set (g.d % 4) (c.slots.getD (g.d % 4) 0 ^^^ BitVec.ofNat 64 (2 ^ (g.e % 64))) } else c) }
  | 5 => let x := s.array g.a; s.setArray g.a { x with accBad := smPut false x.accBad g.d true }
  | 6 => s.dieSpoil g.a
  | 7 => s.flipBits (g.a / 16 * 16) g.d g.e
  | _ => { s with micro := smPut 0 s.micro (256 * g.a + g.d) ((s.microAt g.a g.d ^^^ 2 ^ (g.e % 128)) + 1) }

/-- ERROR_INJECTION: a write of `einj` with go = 1 (R410).
Argument: a, the vault; w, the value; b, 0, or the place of a bit error of the hardware itself, with the rest as `State.bitError` has it (R407). -/
def execErrorInjection (s : State) : Host.Outcome State Fault Refusal :=
  .next (if s.arg.b ≠ 0 then s.bitError s.arg else if einjBad s.arg.w.toNat then s else s.writeEinj s.arg.a s.arg.w)

/-! ### Special registers -/

/-- The numbers with a register behind them on a core (R15, R356, R409, R486). -/
def srExists (core n : Nat) : Bool :=
  decide (n ≤ 15) || (decide (32 ≤ n) && decide (n ≤ 47)) || (decide (64 ≤ n) && decide (n ≤ 67)) || (n == 80 && decide (256 ≤ core))

/-- The registers that refuse a write (R15, R356, R486). -/
def srReadOnly (n : Nat) : Bool :=
  decide (n ≤ 4) || (decide (9 ≤ n) && decide (n ≤ 15)) || n == 38 || n == 41 || (decide (45 ≤ n) && decide (n ≤ 47))
    || (decide (64 ≤ n) && decide (n ≤ 67))

/-- The three steps of R20 for an access to a number. -/
def State.srFate (s : State) (i : Instr) (n : Nat) (write : Bool) : Option Cond :=
  let bad : Cond := ⟨0x01, 0x0C, BitVec.ofNat 64 ((encode i).headD 0)⟩
  let p := s.self.priv
  if (16 ≤ n ∧ n ≤ 31) ∨ 96 ≤ n then some bad
  else if (32 ≤ n ∧ n ≤ 63 ∧ p = .user) ∨ (64 ≤ n ∧ p ≠ .firmware) then some (privCond i)
  else if !srExists s.cur.1 n || (write && srReadOnly n) then some bad
  else none

/-- The location word of a context (R16). -/
def State.whereWord (s : State) (core ctx : Nat) : Word := BitVec.ofNat 64 (s.cube * 65536 + core * 16 + ctx)

/-- Occupancies of the port queues (R19). -/
def State.qstat (s : State) : Word :=
  let x := s.self
  let part := hasPartner s.cur.1 s.cur.2
  let pin := if part then (s.pinQ s.me).length else 0
  let pout := if part then (s.pinQ s.poutKey).length else 0
  let up := (s.upQ s.me).length
  let dn := if hasDn x then (s.upQ s.dnKey).length else 0
  BitVec.ofNat 64 ((chainOn x).toNat * 2 ^ 32 + dn * 2 ^ 24 + up * 2 ^ 16 + pout * 2 ^ 8 + pin)

/-- The dispatch-ring entry that ctxsel selects, as 192 bits (R186, R357). -/
def State.ringWord (s : State) (j : Nat) : Word :=
  let sel := s.self.ctxsel.toNat
  match (s.core s.cur.1).ring.find? (fun e => e.ctx == sel % 16 && e.seq == bits sel 31 16 && e.tenant == s.self.tenant) with
  | none => BitVec.allOnes 64
  | some e =>
    if j = 0 then BitVec.ofNat 64 (e.word % 2 ^ 32 * 2 ^ 32 + e.kind * 2 ^ 20 + e.ctx * 2 ^ 16 + e.seq)
    else if j = 1 then e.pc
    else BitVec.ofNat 64 (e.pass * 2 ^ 48)

/-- The identity registers (R486). A split port counts as trained when its four links are. DESIGN CHOICE, unsafe: log entry 85. -/
def State.idr (s : State) (j : Nat) : Word :=
  if j = 0 then 0x4C5A038401000000
  else if j = 1 then BitVec.ofNat 64 (Config.fuse 0)
  else if j = 2 then BitVec.ofNat 64 (s.fw.security % 2 ^ 32 * 2 ^ 32 + s.fw.version % 2 ^ 32)
  else
    let tiles := ((upTo 128).filter (fun t => (s.array t).rows ≠ 0)).length
    let port (p : Nat) : Port := smGet Port.zero s.ports p
    let links := ((upTo 12).filter (fun p => (port p).up || (port p).split && (upTo 4).all (fun k => (port (12 + 4 * (p - 6) + k)).up))).length
    BitVec.ofNat 64 (s.cube * 65536 + tiles * 256 + links)

/-- What a special register reads (R15, R16, R19, R356, R409, R486). -/
def State.srRead (s : State) (n : Nat) : Word :=
  let x := s.self
  let core := s.cur.1
  let t := s.tenant x.tenant
  match n with
  | 0 => x.pc
  | 1 => BitVec.ofNat 64 s.myName
  | 2 => s.whereWord core s.cur.2
  | 3 => BitVec.ofNat 64 s.time
  | 4 => BitVec.ofNat 64 s.cycle
  | 5 => x.live
  | 6 => x.vlive
  | 7 => x.fmode
  | 8 => x.fflags
  | 9 => BitVec.ofNat 64 x.dseq
  | 10 => BitVec.ofNat 64 x.job
  | 11 => BitVec.ofNat 64 x.lid
  | 12 => if core < 256 then BitVec.ofNat 64 ((s.array (tileOf core)).shapeWord) else 0
  | 13 => BitVec.ofNat 64 s.mapgen
  | 14 => s.qstat
  | 32 => x.tcause
  | 33 => x.tpc
  | 34 => x.tval
  | 35 => x.tseq
  | 36 => x.tsub
  | 37 => t.tvec
  | 38 => BitVec.ofNat 64 x.tenant
  | 39 => t.xroot
  | 40 => t.spill
  | 41 => x.rect
  | 42 => (s.ctx (ctxKey core (x.ctxsel.toNat % 16))).chain
  | 43 => x.sigctl
  | 44 => x.ctxsel
  | 45 => s.ringWord 0
  | 46 => s.ringWord 1
  | 47 => s.ringWord 2
  | 80 => smGet 0 s.einj (core - 256)
  | _ => if 64 ≤ n ∧ n ≤ 67 then s.idr (n - 64) else 0

/-- A value that a register refuses (R91, R357, R409). -/
def State.srBad (s : State) (n w : Nat) : Bool :=
  match n with
  | 6 => bits w 63 32 != 0
  | 7 => bits w 63 2 != 0
  | 8 => bits w 63 6 != 0
  | 32 => bits w 63 12 != 0 || bits w 11 10 == 3
  | 35 => bits w 63 16 != 0
  | 36 => bits w 63 8 != 0
  | 37 => bits w 63 56 != 0 || bits w 7 0 != 0
  | 39 => bits w 63 52 != 0 || bits w 11 0 != 0
  | 40 => bits w 63 56 != 0 || bits w 12 0 != 0
  | 42 => s.chainBad s.cur.1 (s.self.ctxsel.toNat % 16) w
  | 43 => bits w 63 17 != 0
  | 44 => bits w 63 32 != 0 || bits w 15 4 != 0 || decide (8 < bits w 3 0)
  | 80 => einjBad w
  | _ => false

/-- A special register written (R91, R356 to R358, R409). -/
def State.srWrite (s : State) (n : Nat) (w : Word) : State :=
  let x := s.self
  let t := s.tenant x.tenant
  match n with
  | 5 => s.setSelf { x with live := w }
  | 6 => if kindOf s.cur.1 == .e then s.setSelf { x with vlive := w } else s
  | 7 => s.setSelf { x with fmode := w }
  | 8 => s.setSelf { x with fflags := w }
  | 32 => s.setSelf { x with tcause := w }
  | 33 => s.setSelf { x with tpc := w }
  | 34 => s.setSelf { x with tval := w }
  | 35 => s.setSelf { x with tseq := w }
  | 36 => s.setSelf { x with tsub := w }
  | 37 => s.setTenant x.tenant { t with tvec := w }
  | 39 => s.setTenant x.tenant { t with xroot := w }
  | 40 => s.setTenant x.tenant { t with spill := w }
  | 42 => s.chainSet s.cur.1 (x.ctxsel.toNat % 16) w
  | 43 => s.setSelf { x with sigctl := w }
  | 44 => s.setSelf { x with ctxsel := w }
  | 80 => s.writeEinj (s.cur.1 - 256) w
  | _ => s

/-- `rdsr` (R20, R90). -/
def execRdsr (d : Reg) (n : Fin 1024) (s : State) : Host.Outcome State Fault Refusal :=
  let i : Instr := .rdsr d n
  let u : Use := ⟨[], [], [d], []⟩
  .next (s.issueWith u (s.srFate i n.val false) (s.retire i u d (s.srRead n.val)))

/-- `wrsr` (R20, R91, R357): the number's fate, then the value's form, before any other condition of the source. -/
def execWrsr (a : Reg) (t : Bool) (n : Fin 1024) (s : State) : Host.Outcome State Fault Refusal :=
  let i : Instr := .wrsr a t n
  let u : Use := ⟨[(a, t)], [], [], []⟩
  let v := s.val a
  match s.srFate i n.val true with
  | some c => .next (s.issueWith u (some c) s)
  | none => .next (s.issueVal i u [a] (s.srBad n.val v.toNat) (((s.popAll u.srcs).srWrite n.val v).finish i))

/-! ### Removing translations -/

/-- The value of `tlb.inv` breaks a rule of R367. -/
def tlbInvBad (w : Nat) : Bool := bits w 62 56 != 0 || bits w 15 0 != 0 || (bitAt w 63 && bits w 55 16 != 0)

/-- Walks of the tenant in progress when an address, or with `none` every page, is removed: each notes it until its own page is known (R367). -/
def State.staleWalks (s : State) (tenant : Nat) (va : Option Nat) : State :=
  { s with walks := s.walks.map (fun (w : Walk) => if w.tenant = tenant then { w with stale := w.stale ++ [va.getD w.va] } else w) }

/-- Accesses in frames sent on their way to being performed at cube scope: buffer lines written out and dirty lines written back (R367). -/
def State.pushOut (s : State) (inFrame : Nat → Bool) : State :=
  let s := (s.nt.filter (fun l => inFrame (l.line * 128))).foldl (fun s l => s.writeOut l) s
  (upTo 128).foldl (fun s t => (((s.tile t).lines.filter (fun c => c.dirty ≠ 0 && inFrame (c.line * 128))).foldl
    (fun s c => s.writeBackLine s.template t c) s).pushStores t (fun l => inFrame (l * 16))) s

/-- The removal of R367: entries and walks go, accesses through them are sent on, and the requests still to be performed are the ones to wait for. -/
def State.removeEntries (s : State) (gone : TlbEntry → Bool) (va : Option Nat) : List Nat × State :=
  let es := s.tlbs.flatMap (fun q => q.2.filter gone)
  let inFrame (pa : Nat) : Bool := es.any (fun e => decide (e.pa ≤ pa) && decide (pa < e.pa + e.size))
  let s := { s with tlbs := s.tlbs.foldl (fun m (q : Nat × List TlbEntry) => smPut [] m q.1 ((smGet [] m q.1).filter (fun e => !gone e))) s.tlbs }
  let s := (s.staleWalks s.self.tenant va).pushOut inFrame
  ((s.reqs.filter (fun r => r.kind != .status && inFrame r.pa)).map (·.id), s)

/-- `tlb.inv` (R367): the entries go, and the context waits until every access made through them is performed. -/
def execTlbInv (a : Reg) (t : Bool) (s : State) : Host.Outcome State Fault Refusal :=
  let i : Instr := .tlbInv a t
  let u : Use := ⟨[(a, t)], [], [], []⟩
  let w := (s.val a).toNat
  let all := bitAt w 63
  let gone (e : TlbEntry) : Bool := e.tenant == s.self.tenant && (all || (decide (e.page ≤ w) && decide (w < e.page + e.size)))
  let bad := s.readable [a] && tlbInvBad w
  let go : State :=
    if s.second then (s.popAll u.srcs).finish i
    else
      let (ids, s) := s.removeEntries gone (if all then none else some w)
      if ids.isEmpty then (s.popAll u.srcs).finish i else s.waitFor ids
  .next (s.issueWith u (if bad then some (illegalValue i) else if s.self.priv = .user then some (privCond i) else none)
    (if tlbInvBad w then s.trapC (illegalValue i) else go))

/-! ### Termination by name -/

/-- A named thread on this cube: resident, spilled or held, or arriving (R379). -/
inductive Found where
  | ctx (k : Nat)
  | stored (t : Stored)
  deriving Repr

/-- The thread with a name, wherever on this cube it is (R134, R379). -/
def State.findThread (s : State) (name : Nat) : Option Found :=
  match s.ctxs.find? (fun e => e.1 % 16 != 8 && e.2.occ && e.2.name == name && e.2.park != some .away) with
  | some e => some (.ctx e.1)
  | none => (s.stored.find? (fun t => t.ctx.name == name)).map .stored

/-- Termination of a found thread for a tenant: the status of R379, and the state. A resident thread ends at its next instruction boundary; one in a packet, where it lands. -/
def State.killFound (s : State) (tenant : Nat) : Found → Nat × State
  | .ctx k =>
    let x := s.ctx k
    if x.tenant ≠ tenant then (6, s)
    else if x.ending then (2, s)
    else (0, s.setCtx k { x with dying := true })
  | .stored t =>
    if t.ctx.tenant ≠ tenant then (6, s)
    else if 24 ≤ t.slot then
      (0, { s with stored := s.stored.map (fun (u : Stored) => if u = t then { u with ctx := { u.ctx with dying := true } } else u) })
    else (0, s.killStored t)

/-- The cube that a stub of this cube, the part of the directory on it, or the name itself points to (R133 to R135). -/
def State.nameCube (s : State) (tenant name : Nat) : Nat :=
  match s.cores.findSome? (fun c => c.2.stubs.find? (fun b => b.name == name)) with
  | some b => b.cube
  | none =>
    match s.tenant tenant |>.dir.find? (fun e => e.1 == name) with
    | some e => if e.2 < 2 ^ 40 then e.2 / 512 else bits name 30 18
    | none => bits name 30 18

/-- `ctx.kill` (R379). On core 320, which no thread has, the request of another cube: argument a, its request; b, the name; c, the tenant; d, the cube; e, how often the request has been sent on after a thread that has gone on to another cube (R134, R135). -/
def execCtxKill (d a : Reg) (t : Bool) (s : State) : Host.Outcome State Fault Refusal :=
  let i : Instr := .ctxKill d a t
  if 320 ≤ s.cur.1 then
    let g := s.arg
    let answer (st : Nat) (s : State) : State := s.sendTo g.d 3 .producerCompletion { EvArg.zero with a := g.a, b := 1, c := 0, bytes := toBytes st 8 }
    let on := s.nameCube g.c g.b
    .next (match s.findThread g.b with
      | some f => let (st, s) := s.killFound g.c f; answer st s
      | none => if on ≠ s.cube && s.peers.contains on && decide (g.e < 4) then s.sendTo on 3 i { g with e := g.e + 1 } else answer 2 s)
  else
    let u : Use := ⟨[(a, t)], [], [d], []⟩
    let w := (s.val a).toNat
    let name := w % 2 ^ 32
    let bad := bits w 63 32 != 0 || name == s.myName
    let early := if s.readable [a] && bad then some (illegalValue i) else if s.self.priv = .user then some (privCond i) else none
    .next (s.issueWith u early
      (if bad then s.trapC (illegalValue i)
       else
         let ten := s.self.tenant
         let s := s.popAll u.srcs
         if isStewardEnd name then (s.later d 6).finish i
         else
           match s.findThread name with
           | some f =>
             let (st, s) := s.killFound ten f
             (s.later d (BitVec.ofNat 64 st)).finish i
           | none =>
             let home := s.nameCube ten name
             if !isThreadEnd name || home = s.cube || !s.peers.contains home then (s.later d 2).finish i
             else
               let (id, s) := s.producer d
               let s := { s with reqs := s.reqs.map (fun (r : Req) => if r.id = id then { r with pa := home, remote := true, sent := true } else r) }
               (s.sendTo home 3 i { EvArg.zero with a := id, b := name, c := ten, d := s.cube }).finish i))

end Sys2Proof.Machine
end

