-- ==== Sys2Proof/Machine/Engine.lean ====
section
/-! DEFINITION. Command words at the engines: the push into a queue, completion, late faults and discarded commands (R57 to R59, R186, R253, R267 to R269, R290, R293, R316, R323). -/

namespace Sys2Proof.Machine

/-- The registers that flagged slots name (R57). -/
def cmdRegs (c : CmdWord) : List Reg :=
  let f {n : Nat} (x : Slot n) : List Reg := match x with
    | .lit _ => []
    | .reg r => [r]
  f c.s0 ++ f c.s1 ++ f c.s2 ++ f c.s3 ++ f c.s4

/-- What the engine receives from a slot (R57). -/
def State.slotVal (s : State) {n : Nat} : Slot n → Word
  | .lit v => v.zeroExtend 64
  | .reg r => s.val r

/-- The five slots as the engine receives them: of a register in slot 4 only bits [31:0] (R57). -/
def State.slotVals (s : State) (c : CmdWord) : List Word :=
  [s.slotVal c.s0, s.slotVal c.s1, s.slotVal c.s2, s.slotVal c.s3, s.slotVal c.s4 &&& 0xFFFFFFFF]

/-- The queue length of an engine class (R267). -/
def engRoom : EngClass → Nat
  | .push => 32
  | .matrix => 16
  | .collective => 16
  | .health => 2

/-- The number of a class (R60). -/
def engCode : EngClass → Nat
  | .push => 0
  | .matrix => 1
  | .collective => 2
  | .health => 3

/-- The commands of one engine, in push order. -/
def State.engine (s : State) (unit : Nat) (cls : EngClass) : List Cmd := s.cmds.filter (fun c => c.unit == unit && c.cls == cls)

/-- The commands in an engine's queue. -/
def State.engineQueue (s : State) (unit : Nat) (cls : EngClass) : List Cmd := (s.engine unit cls).filter (fun c => c.st == .queued)

/-- A command word can be pushed: its queue and the dispatch ring have room (R58, R186). -/
def State.engineRoom (s : State) (core : Nat) (cls : EngClass) : Bool :=
  decide ((s.engineQueue (unitOf core) cls).length < engRoom cls) && s.ringRoom core

/-- The thread's stores still on their way, behind which the command reads, and the writes of finished commands of its tile (R253). -/
def State.storesOut (s : State) : List Nat :=
  ((s.reqs.filter (fun r => r.agent == s.agent || (r.ofCommand && r.sameTile s.template))).filter (fun r => match r.kind with
    | .store => true
    | .storeFill => true
    | .writeBack => true
    | .amo _ => true
    | _ => false)).map (·.id)

/-- A command word's push, when nothing holds it back: timeline number, dispatch number, ring entry and queue entry (R58, R186, R268). -/
def State.pushCmd (s : State) (w0 : Nat) (c : CmdWord) (cls : EngClass) (opc : Nat) : State :=
  let core := s.cur.1
  let x := s.self
  let tl := (x.timeline c.tl.val).take
  let slots := s.slotVals c
  let s := s.setSelf (x.setTimeline c.tl.val tl)
  let (seq, s) := s.nextSeq 1
  let (id, s) := s.fresh
  let s := s.ringPut core (s.ringEntry seq 0 x.pc w0 (engCode cls))
  let cmd : Cmd := { id := id, cls := cls, unit := unitOf core, opc := opc, core := core, ctx := s.cur.2, agent := s.agent
                     name := x.name, tenant := x.tenant, job := x.job, launch := x.launch, user := decide (x.priv = .user)
                     tl := c.tl.val, num := tl.issued, seq := seq, flags := c.flags.toNat, slots := slots, st := .queued
                     waited := 0, flip := 0, after := s.storesOut, pos := 0, fault := none, work := [], ranges := [] }
  let s := { s with cmds := s.cmds ++ [cmd] }
  s.setSelf ((({ s.self with sig := sigFeed s.self.sig w0 }).fallThrough 32).issuedAt s.cycle)

/-- The push of a command word (R57, R58): flagged slots are read, matrix and health commands need the array (R293, R323), and a full queue parks. -/
def State.pushCommand (s : State) (c : CmdWord) (cls : EngClass) (opc : Nat) : State :=
  let u : Use := ⟨[], (cmdRegs c).map (fun r => (r, false)), [], []⟩
  let w0 := (encodeCmd (engCode cls) opc c).headD 0
  let owned := cls == .push || cls == .collective || s.ownsArray s.cur.1 s.agent
  s.issueWith u (if owned then none else some ⟨0x01, 2, BitVec.ofNat 64 w0⟩)
    (if s.engineRoom s.cur.1 cls then s.pushCmd w0 c cls opc else s.parkMe (.engine cls))

/-! ### Completion -/

/-- Slot j of a command. -/
def Cmd.slot (c : Cmd) (j : Nat) : Nat := (c.slots.getD j 0).toNat

/-- The identity under which a command's own accesses are ordered. -/
def Cmd.agentId (c : Cmd) : Nat := 2 ^ 50 + c.id

/-- Who a command's accesses are made for. -/
def Cmd.who (c : Cmd) : Who := ⟨c.tenant, c.launch⟩

/-- A command by its identity. -/
def State.cmd (s : State) (id : Nat) : Option Cmd := s.cmds.find? (fun c => c.id == id)

/-- A command replaced by its image. -/
def State.mapCmd (s : State) (id : Nat) (f : Cmd → Cmd) : State := { s with cmds := s.cmds.map (fun c => if c.id = id then f c else c) }

/-- The thread that pushed a command still takes late faults: it has not begun to end (R119). -/
def State.takesFaults (s : State) (agent : Nat) : Bool :=
  match s.ctxOfAgent agent with
  | some k => !(s.ctx k).ending
  | none => (s.storedOf agent).isSome || (s.heldHome agent).isSome || decide (2 ^ 40 ≤ agent)

/-- The core whose dispatch ring holds a dispatch: a thread's entries go with it to another core (R377). -/
def State.ringCore (s : State) (core agent seq : Nat) : Nat :=
  ((s.cores.find? (fun e => e.2.ring.any (fun r => r.agent == agent && r.seq == seq))).map (·.1)).getD core

/-- A late fault of a dispatch in its ring entry; once its thread ends, or has ended, it goes to the steward (R119, R290, R370). -/
def State.workFault (s : State) (core agent seq : Nat) (l : Late) : State :=
  let core := s.ringCore core agent seq
  let s := s.ringFault core agent seq l
  if s.takesFaults agent then s
  else
    match (s.core core).ring.find? (fun e => e.agent == agent && e.seq == seq && e.fault == some l && !e.orphan) with
    | some e => s.orphan core e l
    | none => s

/-- The push of a cistern's entry 5 counts on no timeline and has no ring entry (R345); its number is the invocation's identity. -/
def Cmd.ofCistern (c : Cmd) : Bool := c.tl == 4

/-- A command removed from its engine, with its number completed on its timeline (R268, R269). -/
def State.retireCmd (s : State) (c : Cmd) : State :=
  let s := { s with cmds := s.cmds.filter (fun d => d.id ≠ c.id) }.dropWaiters (fun w => w.isCmd && w.who == c.id)
  if c.ofCistern then { s with invs := s.invs.map (fun (i : Inv) => if i.id = c.num then { i with push := 2 } else i) }
  else s.timelineDone c.agent c.tl c.num

/-- A command that ends without a fault: its ring entry is freed (R186). -/
def State.endCmd (s : State) (c : Cmd) : State :=
  if c.ofCistern then s.retireCmd c else (s.retireCmd c).ringFree (s.ringCore c.core c.agent c.seq) c.agent c.seq

/-- A command that ends with a late fault: its entry stays (R186, R290); of a cistern's push the invocation has the fault (R345). -/
def State.faultCmd (s : State) (c : Cmd) (l : Late) : State :=
  if c.ofCistern then
    let f (i : Inv) : Inv := if l.sub = 5 then { i with bad := some (l.val.toNat / 32 * 32) } else { i with fault := some ⟨0x13, 0x20 + l.sub, l.val⟩ }
    { s with invs := s.invs.map (fun (i : Inv) => if i.id = c.num then f i else i) }.retireCmd c
  else (s.workFault c.core c.agent c.seq l).retireCmd c

/-- Queued commands that a predicate names, discarded: each counts as completed and does nothing (R290, R316, R333). -/
def State.discardCmds (s : State) (p : Cmd → Bool) : State :=
  (s.cmds.filter (fun c => c.st == .queued && p c)).foldl (fun s c => s.endCmd c) s

/-- A late fault of an engine command and what it discards: for a push, `ord` commands behind it on the timeline (R290); for matrix and health commands, the later ones of their class and context (R316, R333). -/
def State.failCmd (s : State) (c : Cmd) (l : Late) : State :=
  let behind (d : Cmd) : Bool := d.agent == c.agent && decide (c.id < d.id) &&
    !c.ofCistern && (match c.cls with
     | .push => d.cls == .push && d.tl == c.tl && bitAt d.flags 0
     | .collective => false
     | k => d.cls == k)
  (s.faultCmd c l).discardCmds behind

/-- Requests of a command that are still on their way and that its completion waits for: at tile scope not its writes to DRAM of this cube (R254, R269). -/
def State.cmdReqs (s : State) (c : Cmd) : List Req :=
  s.reqs.filter (fun r => r.agent == c.agentId && !(c.cls == .push && bits c.flags 3 2 == 0 && r.ofCommand))

/-- `cp.push` (R283). -/
def execCpPush (c : CmdWord) (s : State) : Host.Outcome State Fault Refusal := .next (s.pushCommand c .push 0)
/-- Combining `cp.push` (R284). -/
def execCpPushAdd (c : CmdWord) (s : State) : Host.Outcome State Fault Refusal := .next (s.pushCommand c .push 0)
/-- `cp.fill` (R286). -/
def execCpFill (c : CmdWord) (s : State) : Host.Outcome State Fault Refusal := .next (s.pushCommand c .push 1)
/-- `cp.x24` (R287, R289). -/
def execCpX24 (c : CmdWord) (s : State) : Host.Outcome State Fault Refusal := .next (s.pushCommand c .push 2)
/-- `cp.c24` (R287, R288). -/
def execCpC24 (c : CmdWord) (s : State) : Host.Outcome State Fault Refusal := .next (s.pushCommand c .push 3)
/-- `mma` (R305). -/
def execMma (c : CmdWord) (s : State) : Host.Outcome State Fault Refusal := .next (s.pushCommand c .matrix 0)
/-- `mmb` (R312). -/
def execMmb (c : CmdWord) (s : State) : Host.Outcome State Fault Refusal := .next (s.pushCommand c .matrix 1)
/-- `mzero` (R313). -/
def execMzero (c : CmdWord) (s : State) : Host.Outcome State Fault Refusal := .next (s.pushCommand c .matrix 2)
/-- `mld` (R314). -/
def execMld (c : CmdWord) (s : State) : Host.Outcome State Fault Refusal := .next (s.pushCommand c .matrix 3)
/-- `mst` (R315). -/
def execMst (c : CmdWord) (s : State) : Host.Outcome State Fault Refusal := .next (s.pushCommand c .matrix 4)
/-- `col.red` (R435). -/
def execColRed (c : CmdWord) (s : State) : Host.Outcome State Fault Refusal := .next (s.pushCommand c .collective 0)
/-- `col.rs` (R435). -/
def execColRs (c : CmdWord) (s : State) : Host.Outcome State Fault Refusal := .next (s.pushCommand c .collective 1)
/-- `col.mc` (R435). -/
def execColMc (c : CmdWord) (s : State) : Host.Outcome State Fault Refusal := .next (s.pushCommand c .collective 2)
/-- `mtest` (R324). -/
def execMtest (c : CmdWord) (s : State) : Host.Outcome State Fault Refusal := .next (s.pushCommand c .health 0)
/-- `mremap` (R326). -/
def execMremap (c : CmdWord) (s : State) : Host.Outcome State Fault Refusal := .next (s.pushCommand c .health 1)

end Sys2Proof.Machine
end

