-- ==== Sys2Proof/Machine/Push.lean ====
section
/-! DEFINITION. The push engines: sources, destinations, shapes, checks, and the work of `cp.push`, `cp.fill`, `cp.x24` and `cp.c24` (R279 to R291, R449, R488). -/

namespace Sys2Proof.Machine

/-! ### Sides and shapes -/

/-- One side of a push, at its first byte. -/
inductive Side where
  | virt (va : Nat)
  /-- The issuing core's own local memory by its address (R21). -/
  | die (core o : Nat)
  /-- Local memory of a core of this cube (kind 2). -/
  | peer (core o : Nat)
  | win (tile w o : Nat)
  /-- Scratch (kind 1) or local memory (kind 2) on another cube. -/
  | far (cube kind unit w o : Nat)
  | host (a : Nat)
  deriving DecidableEq, Repr

/-- A side, n bytes further. -/
def Side.plus (d : Side) (n : Nat) : Side :=
  match d with
  | .virt a => .virt (a + n)
  | .die c o => .die c (o + n)
  | .peer c o => .peer c (o + n)
  | .win t w o => .win t w (o + n)
  | .far c k u w o => .far c k u w (o + n)
  | .host a => .host (a + n)

/-- The address, offset or view offset of a side. -/
def Side.addr : Side → Nat
  | .virt a => a
  | .die _ o => localBase + o
  | .peer _ o => o
  | .win _ _ o => o
  | .far _ _ _ _ o => o
  | .host a => a

/-- The window of a side; 0 for raw bytes. -/
def Side.window : Side → Nat
  | .win _ w _ => w
  | .far _ k _ w _ => if k = 1 then w else 0
  | _ => 0

/-- The rows, row length and strides of `cp.push` and `cp.fill` (R281). -/
structure Shape where
  rows : Nat
  len  : Nat
  ss   : Nat
  ds   : Nat
  deriving DecidableEq, Repr

/-- The shape in slots 3 and 4 (R281). -/
def Cmd.shape (c : Cmd) : Shape :=
  let len := bits (c.slot 3) 31 0
  let st (x : Nat) : Nat := if x = 0 then len else 16 * x
  ⟨bits (c.slot 3) 47 32 + 1, len, st (bits (c.slot 4) 31 16), st (bits (c.slot 4) 15 0)⟩

/-- The issuing core is a tile's A-core. -/
def Cmd.onTile (c : Cmd) : Bool := decide (c.unit < 128)

/-- An on-die or virtual address as the issuing core names it: a side, if it is one (R21, R215, R280). -/
def Cmd.sideAt (c : Cmd) (a : Nat) : Option Side :=
  if a / 2 ^ 60 = 15 then
    if localBase ≤ a ∧ a < localBase + 65536 then some (.die c.core (a - localBase))
    else if c.onTile && a / 2 ^ 36 == 0xF800000 && decide (bits a 35 32 ≤ 6) then some (.win c.unit (bits a 35 32) (a % 2 ^ 32))
    else none
  else if a / 2 ^ 56 = 0 then some (.virt a)
  else none

/-- The destination of slots 1 and 2, when the selector's fields keep R280. -/
def State.destAt (s : State) (c : Cmd) (a : Nat) : Option Side :=
  let q := c.slot 2
  let here := bitAt q 45 || bits q 44 32 == s.cube
  let unit := bits q 23 16
  let w := bits q 15 12
  if q / 2 ^ 48 ≠ 0 ∨ bits q 31 24 ≠ 0 ∨ bits q 6 0 ≠ 0 then none
  else match bits q 47 46 with
    | 0 => if bits q 45 32 ≠ 0 ∨ unit ≠ 0 ∨ w ≠ 0 then none else c.sideAt a
    | 1 => if 128 ≤ unit ∨ 6 < w ∨ a / 2 ^ 32 ≠ 0 then none
           else some (if here then .win unit w a else .far (bits q 44 32) 1 unit w a)
    | 2 => if w ≠ 0 then none else some (if here then .peer unit a else .far (bits q 44 32) 2 unit 0 a)
    | _ => if bits q 45 32 ≠ 0 ∨ unit ≠ 0 ∨ w ≠ 0 then none else some (.host a)

/-- The source of `cp.push`, `cp.x24` and `cp.c24` under R279; a vault engine has no windows, a tile engine no virtual source. -/
def Cmd.sourceAt (c : Cmd) (a : Nat) : Option Side :=
  match c.sideAt a with
  | some (.virt va) => if c.onTile then none else some (.virt va)
  | x => x

/-! ### Checks at the start -/

/-- Whether a row of n bytes at a side keeps to its storage (R21, R215). -/
def State.sideOk (s : State) (d : Side) (n : Nat) : Bool :=
  match d with
  | .virt va => decide (va + n ≤ 2 ^ 56)
  | .die _ o => decide (o + n ≤ 65536)
  | .win t w o => windowOk (s.scratchSize t) w o n
  | _ => true

/-- A row that crosses a record boundary, or an unaligned one, of the plane window (R302). -/
def planeMisfit (d : Side) (n : Nat) : Bool :=
  d.window == 6 && (let vb := planeVB (bits d.addr 26 24); d.addr % vb != 0 || n % vb != 0)

/-- The alignment rules of `cp.push` and `cp.fill` (R283, R284, R302). -/
def pushMisaligned (src : Option Side) (dst : Side) (sh : Shape) (add : Bool) : Bool :=
  let win (d : Side) : Bool := decide (1 ≤ d.window) && decide (d.window ≤ 5)
  let four := add || win dst || src.any win
  let rows := upTo sh.rows
  (four && (dst.addr % 4 != 0 || sh.len % 4 != 0 || sh.ds % 4 != 0 || (src.isSome && (sh.ss % 4 != 0 || src.any (fun d => d.addr % 4 != 0)))))
    || rows.any (fun r => planeMisfit (dst.plus (r * sh.ds)) sh.len)

/-- The destination rules of a combining push (R284). -/
def combineForm (dst : Side) : Bool :=
  match dst with
  | .host _ => false
  | d => decide (d.window ≤ 3)

/-- The number of bytes from the first to the last of a side's range (R283). -/
def rangeLen (rows len stride : Nat) : Nat := (rows - 1) * stride + len

/-- Source and destination in one form whose bounding ranges meet (R283). -/
def sidesOverlap (a b : Side) (n m : Nat) : Bool :=
  let meet (x y : Nat) : Bool := decide (x < y + m) && decide (y < x + n)
  match a, b with
  | .virt x, .virt y => meet x y
  | .die c x, .die d y => c == d && meet x y
  | .die c x, .peer d y => c == d && meet x y
  | .win t v x, .win u w y => t == u && v == w && meet x y
  | _, _ => false

/-- The tile of a destination of kind 1 or 2 on this cube. -/
def Side.tile : Side → Option Nat
  | .win t _ _ => some t
  | .peer c _ => some (c / 2)
  | _ => none

/-- The tile belongs to a launch of the issuing thread's tenant (R280). -/
def State.tileOfTenant (s : State) (t tenant : Nat) : Bool :=
  (s.tile t).owner.any (fun l => (s.launch l).any (fun q => q.tenant == tenant))

/-- DENIED (R280): the destination of kind 1 or 2 lies on a tile of no launch of the tenant; a fenced tile faults as it is written (R390). -/
def State.pushDenied (s : State) (c : Cmd) (dst : Side) : Bool :=
  (bits (c.slot 2) 47 46 == 1 || bits (c.slot 2) 47 46 == 2) &&
    dst.tile.any (fun t => !(s.tile t).fence && !s.tileOfTenant t c.tenant)

/-- The translation that an engine uses: its unit's cache, else a walk (R223). -/
def State.engineXlate (s : State) (c : Cmd) (va : Nat) (store : Bool) : Xl := s.cachedXlate c.unit c.tenant va c.user store

/-- A virtual source of n bytes with a part whose home is another cube (R279). -/
def State.sourceAway (s : State) (c : Cmd) (d : Side) (n : Nat) : Bool :=
  match d with
  | .virt va => (upTo ((va + n - 1) / 4096 + 1 - va / 4096)).any (fun i =>
      match s.engineXlate c (max va ((va / 4096 + i) * 4096)) false with
      | .ok pa _ => s.isRemote pa
      | _ => false)
  | _ => false

/-- The completion scope of a command of the push engine (R282). -/
def Cmd.scope (c : Cmd) : Nat := bits c.flags 3 2

/-- The pages of a virtual side of n bytes. -/
def Side.pages (d : Side) (n : Nat) : List Nat :=
  match d with
  | .virt va => (upTo ((va + n - 1) / 4096 + 1 - va / 4096)).map (fun i => max va ((va / 4096 + i) * 4096))
  | _ => []

/-- The table entry of another cube that the translation of a source still lacks (R279). -/
def State.sourceWait (s : State) (c : Cmd) (va : Nat) : Option Nat :=
  match s.engineXlate c va false with
  | .wait pa => some pa
  | _ => none

/-- The subcodes of the checks of R290 that a `cp.push` or `cp.fill` fails at its start. -/
def State.pushFaults (s : State) (c : Cmd) : List Nat :=
  let sh := c.shape
  let add := c.opc = 0 ∧ bitAt c.flags 1
  let signal := bitAt (c.slot 2) 11
  let src := if c.opc = 0 then c.sourceAt (c.slot 0) else none
  let rows (d : Side) (st : Nat) (p : Side → Bool) : Bool := (upTo sh.rows).all (fun r => p (d.plus (r * st)))
  let noSrc := c.opc = 0 && (match src with
    | none => true
    | some (.die k o) => !rows (.die k o) sh.ss (fun d => s.sideOk d sh.len)
    | some d => (upTo sh.rows).any (fun r => s.sourceAway c (d.plus (r * sh.ss)) sh.len))
  let format := if signal && !c.onTile then [7] else []
  match s.destAt c (c.slot 1) with
  | none => [3] ++ format ++ (if noSrc then [8] else [])
  | some dst =>
    let srcOk := match src with
      | some (.win t w o) => rows (.win t w o) sh.ss (fun d => s.sideOk d sh.len)
      | some (.virt va) => rows (.virt va) sh.ss (fun d => s.sideOk d sh.len)
      | _ => true
    (if rows dst sh.ds (fun d => s.sideOk d sh.len) && srcOk then [] else [3])
      ++ (if pushMisaligned src dst sh add then [4] else [])
      ++ (if s.pushDenied c dst then [6] else [])
      ++ format ++ (if add && !combineForm dst then [7] else [])
      ++ (if noSrc then [8] else [])
      ++ (if src.any (fun d => sidesOverlap d dst (rangeLen sh.rows sh.len sh.ss) (rangeLen sh.rows sh.len sh.ds)) then [9] else [])

/-- The element size of `cp.x24` and `cp.c24` (R287). -/
def Cmd.elemSize (c : Cmd) : Nat := if bits c.flags 5 4 < 2 then 2 else 1

/-- The number of groups (R287). -/
def Cmd.groups (c : Cmd) : Nat := bits (c.slot 4) 31 0

/-- The metadata's side: a source for `cp.x24`, on the destination's side for `cp.c24` (R287). -/
def State.metaAt (s : State) (c : Cmd) : Option Side := if c.opc = 2 then c.sourceAt (c.slot 3) else s.destAt c (c.slot 3)

/-- Bytes that a command of groups reads densely or kept at its source, writes at its destination, and has as metadata (R287). -/
def Cmd.spans (c : Cmd) : Nat × Nat × Nat :=
  let g := c.groups
  let b := c.elemSize
  if c.opc = 2 then (2 * g * b, 4 * g * b, (g + 1) / 2) else (4 * g * b, 2 * g * b, (g + 1) / 2)

/-- The subcodes of the checks that a `cp.x24` or `cp.c24` fails at its start (R287, R290). -/
def State.groupFaults (s : State) (c : Cmd) : List Nat :=
  let (n, m, q) := c.spans
  let b := c.elemSize
  let src := c.sourceAt (c.slot 0)
  let dst := s.destAt c (c.slot 1)
  let md := s.metaAt c
  let raw (d : Option Side) : Bool := d.all (fun d => d.window == 0)
  let stays (d : Option Side) (k : Nat) : Bool := d.all (fun d => s.sideOk d k)
  let die (d : Option Side) : Bool := match d with
    | some (.die _ _) => true
    | _ => false
  let lost (d : Option Side) (k : Nat) : Bool := d.isNone || d.any (fun d => s.sourceAway c d k) || (die d && !stays d k)
  let mdSrc := c.opc = 2
  (if dst.isNone || !stays dst m || (!mdSrc && (md.isNone || !stays md q)) || (!die src && !stays src n) || (mdSrc && !die md && !stays md q) then [3] else [])
    ++ (if c.slot 0 % b ≠ 0 ∨ c.slot 1 % b ≠ 0 ∨ c.slot 3 % b ≠ 0 then [4] else [])
    ++ (if dst.any (s.pushDenied c) then [6] else [])
    ++ (if raw src && raw dst && raw md && !(bitAt (c.slot 2) 11 && !c.onTile) then [] else [7])
    ++ (if lost src n || (mdSrc && lost md q) then [8] else [])

/-! ### Reading and writing -/

/-- A side read: bytes, which of them come from uncorrectable sectors, and the address of the first such piece; a fault; or an answer of another cube wanting. -/
inductive SideRead where
  | ok (b : List Byte) (marks : List Bool) (bad : Option Nat) (s : State)
  | fault (sub : Nat) (at_ : Nat)
  | wait (pa : Nat)

/-- A piece with its mark. -/
def SideRead.piece (b : List Byte) (bad : Bool) (a : Nat) (s : State) : SideRead :=
  .ok b (List.replicate b.length bad) (if bad then some a else none) s

/-- One piece that comes from one sector, or one block of the plane window, read. -/
def State.readPiece (s : State) (c : Cmd) (d : Side) (n : Nat) : SideRead :=
  match d with
  | .die k o =>
    if c.user && decide (0xD000 < o + n) then .fault 2 d.addr
    else
      let (b, bad) := s.dieRead (localKey k o) n
      .piece b bad d.addr s
  | .win t w o =>
    let (b, bad) := s.windowRead t w o n
    .piece b bad d.addr s
  | .virt va =>
    match s.engineXlate c va false with
    | .wait pa => .wait pa
    | .fault cause _ => .fault (if cause = 0x07 then 2 else 1) va
    | .ok pa _ =>
      if s.isRemote pa then .fault 8 va
      else
        let ((b, bad), s) := (s.learn c.unit c.tenant va).readHome pa (s.localAddr pa) n c.launch
        .piece b bad va s
  | _ => .fault 8 d.addr

/-- n bytes of a side: sector by sector, through windows 1 to 5 element by element, through the plane window at once. -/
def State.readSide (s : State) (c : Cmd) : Nat → Side → Nat → SideRead
  | 0, _, _ => .ok [] [] none s
  | fuel + 1, d, n =>
    if n = 0 then .ok [] [] none s
    else
      let k := if d.window = 0 then min n (16 - d.addr % 16) else if d.window = 6 then n else min n 4
      match s.readPiece c d k with
      | .ok b marks bad s =>
        match s.readSide c fuel (d.plus k) (n - k) with
        | .ok b' marks' bad' s => .ok (b ++ b') (marks ++ marks') (if bad.isSome then bad else bad') s
        | x => x
      | x => x

/-- A side written: the state and the address of an uncorrectable element that a combine has met; a fault; an answer wanting; or a wait, with `held` for another launch's line. -/
inductive SideWrite where
  | ok (s : State) (met : Option Nat)
  | fault (sub : Nat)
  | wait (pa : Nat)
  | blocked (held : Bool)

/-- A request of a command for another cube. -/
def State.pushReq (s : State) (c : Cmd) (kind : ReqKind) (pa attr : Nat) (b : List Byte) (bad : Bool) : State :=
  let (id, s) := s.fresh
  s.addReq { id := id, grp := id, kind := kind, core := c.core, ctx := c.ctx, agent := c.agentId, tenant := c.tenant, launch := c.launch
             dest := .none, pa := pa, size := b.length, data := b, mask := upTo b.length, sampled := false, poison := bad, attr := attr
             user := c.user, since := 0, acq := 0, remote := s.isRemote pa, sent := false, pc := 0 }

/-- FP32 addition of a combine, rounded to nearest even (R284). -/
def combine (old v : List Byte) (bad : Bool) : List Byte :=
  toBytes (if bad then Fmt.poison .f32 else (fpAdd .f32 0 (ofBytes old) (ofBytes v)).bits) 4

/-- The marks of four-byte elements, from those of their bytes. -/
def elemMarks (marks : List Bool) : List Bool := (upTo ((marks.length + 3) / 4)).map (fun i => ((marks.drop (4 * i)).take 4).any id)

/-- Elements combined through local memory or a window, those with a mark as poison: an uncorrectable one is left (R284, R290). -/
def State.combineDie (s : State) (marks : List Bool) : Nat → Side → List Byte → Option Nat → State × Option Nat
  | 0, _, _, met => (s, met)
  | fuel + 1, d, b, met =>
    match b with
    | [] => (s, met)
    | _ =>
      let v := b.take 4
      let (old, spoiled) := match d with
        | .die k o => s.dieRead (localKey k o) 4
        | .peer k o => s.dieRead (localKey k o) 4
        | .win t w o => s.windowRead t w o 4
        | _ => ([], false)
      let new := combine old v (marks.headD false)
      let t := if spoiled then s else match d with
        | .die k o => s.dieWrite (localKey k o) new
        | .peer k o => s.dieWrite (localKey k o) new
        | .win t w o => s.windowWrite t w o new
        | _ => s
      t.combineDie (marks.drop 1) fuel (d.plus 4) (b.drop 4) (if spoiled && met.isNone then some d.addr else met)

/-- Elements combined at their home's atomic unit (R284): nothing when one has to wait. -/
def State.combineHome (s : State) (c : Cmd) (attr : Nat) (marks : List Bool) : Nat → Nat → Nat → List Byte → Option Nat → Option (State × Option Nat)
  | 0, _, _, _, met => some (s, met)
  | fuel + 1, va, pa, b, met =>
    match b with
    | [] => some (s, met)
    | _ =>
      let ((old, spoiled), s) := s.readHome pa (s.localAddr pa) 4 c.launch
      if spoiled then s.combineHome c attr (marks.drop 1) fuel (va + 4) (pa + 4) (b.drop 4) (if met.isNone then some va else met)
      else
        match s.placePieces c.who attr false [(pa, combine old (b.take 4) (marks.headD false))] with
        | some s => s.combineHome c attr (marks.drop 1) fuel (va + 4) (pa + 4) (b.drop 4) met
        | none => none

/-- A word with a bit for each of at most 64 marks. -/
def markWord (l : List Bool) : Word := BitVec.ofNat 64 (packBits (fun i => (l.getD i false).toNat) 1 (upTo 64))

/-- The write of a chunk that lies in one destination sector, or is one block of the plane window; one with marked bytes makes the sector uncorrectable, or, combining, the marked elements poison. A command at tile scope leaves its writes to DRAM of this cube on their way (R254, R283, R284, R290, R291, R488). -/
def State.writeSide (s : State) (c : Cmd) (d : Side) (b : List Byte) (marks : List Bool) (add : Bool) : SideWrite :=
  let n := b.length
  let bad := marks.any id
  let es := elemMarks marks
  let fenced := d.tile.any (fun t => (s.tile t).fence)
  match d with
  | .die k o =>
    if c.user && decide ((if k < 256 then 0xCE00 else 0xD000) < o + n) then .fault 2
    else if add then let (s, m) := s.combineDie es 8 d b none; .ok s m
    else .ok (let s := s.dieWrite (localKey k o) b; if bad then s.dieSpoil (localKey k o) else s) none
  | .peer k o =>
    if 0xD000 < o + n then .fault 2
    else if fenced then .fault 0x0A
    else if add then let (s, m) := s.combineDie es 8 d b none; .ok s m
    else .ok (let s := s.dieWrite (localKey k o) b; if bad then s.dieSpoil (localKey k o) else s) none
  | .win t w o =>
    let (p, m) := windowSpan w o n
    if fenced then .fault 0x0A
    else if t = c.unit && (s.rangeHeld t p m).isSome then .blocked false
    else if add then let (s, m) := s.combineDie es 128 d b none; .ok s m
    else if w = 6 ∧ c.cls = .push then
      -- a record is written sector by sector
      .ok (s.mapCmd c.id (fun c => { c with secs := (planePieces o b).map (fun x => (x.1, x.2, bad)) })) none
    else .ok (let s := s.windowWrite t w o b; if bad then s.scratchSpoil t p m else s) none
  | .virt va =>
    match s.engineXlate c va true with
    | .wait pa => .wait pa
    | .fault cause _ => .fault (if cause = 0x07 then 2 else 1)
    | .ok pa attr =>
      let s := s.learn c.unit c.tenant va
      if s.isRemote pa then
        if add then .ok ((upTo (n / 4)).foldl (fun s i =>
            s.pushReq c (.amo .fadd) (pa + 4 * i) attr (if es.getD i false then toBytes (Fmt.poison .f32) 4 else (b.drop (4 * i)).take 4) false) s) none
        else .ok (s.pushReq c .store pa attr b bad) none
      else if add then
        match s.combineHome c attr es 8 va pa b none with
        | some (s, m) => .ok s m
        | none => .blocked (s.heldByOther (pa / 128) c.launch)
      else if c.cls = .push ∧ c.scope = 0 then
        if s.heldByOther (pa / 128) c.launch then .blocked true else .ok (s.pushReq c .store pa attr b bad) none
      else
        match s.placePieces c.who attr bad [(pa, b)] with
        | some s => .ok s none
        | none => .blocked (s.heldByOther (pa / 128) c.launch)
  | .far cube kind unit w o =>
    if kind = 2 ∧ 0xD000 < o + n then .fault 2
    else
      let (id, s) := s.fresh
      let r : Req := { id := id, grp := id, kind := .status, core := c.core, ctx := c.ctx, agent := c.agentId, tenant := c.tenant
                       launch := c.launch, dest := .none, pa := o, size := n, data := [], mask := [], sampled := false, poison := bad
                       attr := cube, user := c.user, since := 0, acq := 0, remote := true, sent := true, pc := 0 }
      .ok ((s.addReq r).sendTo cube 2 .remoteRequest { EvArg.zero with a := id, c := 32 + kind, d := n, e := unit + 256 * w,
                                                                       w := BitVec.ofNat 64 o, bytes := b,
                                                                       words := [BitVec.ofNat 64 c.tenant, BitVec.ofNat 64 bad.toNat, BitVec.ofNat 64 add.toNat, markWord es, markWord (es.drop 64)] }) none
  | .host a =>
    if 2 ^ 48 < a + n then .fault 0x0A
    else .ok (s.sendOut .remoteRequest { EvArg.zero with c := 40, d := n, e := c.tenant, w := BitVec.ofNat 64 a, bytes := b,
                                                          words := [BitVec.ofNat 64 bad.toNat] }) none

/-! ### Progress -/

/-- View bytes of a destination that lie in one stored sector, or in one block of the plane window (R216, R297). -/
def chunkUnit (d : Side) : Nat :=
  match d.window with
  | 0 => 16
  | 6 => planeVB (bits d.addr 26 24)
  | w => 512 / windowBits w

/-- The bytes of the chunk that starts at a side with n bytes of the row left. -/
def chunkLen (d : Side) (n : Nat) : Nat := min n (chunkUnit d - d.addr % chunkUnit d)

/-- What a step of a command's work gives. -/
inductive Work where
  /-- A chunk is done: the state, the bytes or groups done, and the address of data that failed. -/
  | done (s : State) (n : Nat) (data : Option Nat)
  | fault (sub : Nat) (at_ : Nat)
  | wait (pa : Nat)
  | blocked (held : Bool) (at_ : Nat)

/-- The next chunk of `cp.push` or `cp.fill` (R281, R283, R286). -/
def State.pushChunk (s : State) (c : Cmd) : Work :=
  let sh := c.shape
  let add := c.opc = 0 ∧ bitAt c.flags 1
  match s.destAt c (c.slot 1) with
  | none => .fault 3 0
  | some dst =>
    let r := c.pos / sh.len
    let j := c.pos % sh.len
    let d := dst.plus (r * sh.ds + j)
    let n := chunkLen d (sh.len - j)
    let put (s : State) (b : List Byte) (marks : List Bool) (bad : Option Nat) : Work :=
      match s.writeSide c d b marks add with
      | .ok s met => .done s n (if bad.isSome then bad else met)
      | .fault sub => .fault sub d.addr
      | .wait pa => .wait pa
      | .blocked h => .blocked h d.addr
    if c.opc = 0 then
      match c.sourceAt (c.slot 0) with
      | none => .fault 8 0
      | some src =>
        match s.readSide c 130 (src.plus (r * sh.ss + j)) n with
        | .ok b marks bad s => put s b marks bad
        | .fault sub a => .fault sub a
        | .wait pa => .wait pa
    else
      let pat := toBytes (c.slot 0) 8
      put s ((upTo n).map (fun i => pat.getD ((d.addr + i) % 8) 0)) [] none

/-- The magnitude that orders elements in `cp.c24` (R288). -/
def magnitude (ty x : Nat) : Nat :=
  match ty with
  | 0 => if x = Fmt.poison .f16 then 2 ^ 17 else if (match Fmt.val .f16 x with | .num _ => true | .inf _ => true | _ => false) then x % 2 ^ 15 else 2 ^ 16
  | 1 => if x = Fmt.poison .bf16 then 2 ^ 17 else if (match Fmt.val .bf16 x with | .num _ => true | .inf _ => true | _ => false) then x % 2 ^ 15 else 2 ^ 16
  | 2 => (sextInt x 8).natAbs
  | _ => if x = 0x80 then 2 ^ 8 else x % 128

/-- The indices of the two largest of four magnitudes, ties to the lower index, in ascending order (R288). -/
def twoLargest (m : List Nat) : Nat × Nat :=
  let best (skip : Nat) : Nat := (upTo 4).foldl (fun (a : Nat) i => if i = skip then a else if a = 4 ∨ m.getD a 0 < m.getD i 0 then i else a) 4
  let a := best 4
  let b := best a
  (min a b, max a b)

/-- The elements of b bytes each. -/
def elemsOf (x : List Byte) (b n : Nat) : List (List Byte) := (upTo n).map (fun i => (x.drop (i * b)).take b)

/-- Kept elements with the marks of their bytes, and the metadata nibble of one dense group (R288). -/
def compactGroup (ty b : Nat) (x : List Byte) (marks : List Bool) : (List Byte × List Bool) × Nat :=
  let es := elemsOf x b 4
  let (i, j) := twoLargest (es.map (fun e => magnitude ty (ofBytes e)))
  let m (k : Nat) : List Bool := (marks.drop (k * b)).take b
  ((es.getD i [] ++ es.getD j [], m i ++ m j), i + 4 * j)

/-- Pieces of raw bytes with their marks written one after the other to a side; the first that does not go through decides. -/
def State.writeAll (s : State) (c : Cmd) : Nat → Side → List Byte → List Bool → SideWrite
  | 0, _, _, _ => .ok s none
  | fuel + 1, d, b, marks =>
    match b with
    | [] => .ok s none
    | _ =>
      let k := min b.length (16 - d.addr % 16)
      match s.writeSide c d (b.take k) (marks.take k) false with
      | .ok s _ => s.writeAll c fuel (d.plus k) (b.drop k) (marks.drop k)
      | x => x

/-- A write of a command of groups, and what follows it. -/
def SideWrite.andThen (x : SideWrite) (a : Nat) (k : State → Work) : Work :=
  match x with
  | .ok s _ => k s
  | .fault sub => .fault sub a
  | .wait pa => .wait pa
  | .blocked h => .blocked h a

/-- The next two groups of `cp.c24`, which share a metadata byte (R287, R288). -/
def State.compactChunk (s : State) (c : Cmd) : Work :=
  let b := c.elemSize
  let g := c.pos
  let n := min 2 (c.groups - g)
  match c.sourceAt (c.slot 0), s.destAt c (c.slot 1), s.destAt c (c.slot 3) with
  | some src, some dst, some md =>
    match s.readSide c 20 (src.plus (4 * g * b)) (4 * n * b) with
    | .wait pa => .wait pa
    | .fault sub a => .fault sub a
    | .ok x marks bad s =>
      let part {α : Type} (l : List α) (i : Nat) : List α := (l.drop (4 * i * b)).take (4 * b)
      let gs := (upTo n).map (fun i => compactGroup (bits c.flags 5 4) b (part x i) (part marks i))
      let d := dst.plus (2 * g * b)
      let e := md.plus (g / 2)
      let nib := (gs.map (·.2)).getD 0 0 + 16 * (gs.map (·.2)).getD 1 0
      (s.writeAll c 20 d (gs.flatMap (·.1.1)) (gs.flatMap (·.1.2))).andThen d.addr (fun s =>
        (s.writeSide c e (toBytes nib 1) [marks.any id] false).andThen e.addr (fun s => .done s n bad))
  | _, _, _ => .fault 3 0

/-- The next group of `cp.x24` (R287, R289). -/
def State.expandChunk (s : State) (c : Cmd) : Work :=
  let b := c.elemSize
  let g := c.pos
  match c.sourceAt (c.slot 0), s.destAt c (c.slot 1), c.sourceAt (c.slot 3) with
  | some src, some dst, some md =>
    match s.readSide c 20 (md.plus (g / 2)) 1 with
    | .wait pa => .wait pa
    | .fault sub a => .fault sub a
    | .ok m mm bad s =>
      match s.readSide c 20 (src.plus (2 * g * b)) (2 * b) with
      | .wait pa => .wait pa
      | .fault sub a => .fault sub a
      | .ok x xm bad' s =>
        let nib := ofBytes m / (if g % 2 = 0 then 1 else 16) % 16
        let i := nib % 4
        let j := nib / 4
        let d := dst.plus (4 * g * b)
        let failed := if bad.isSome then bad else bad'
        if j ≤ i then .fault 7 (md.addr + g / 2)
        else
          let spread {α : Type} (l z : List α) : List α := (upTo 4).flatMap (fun k => if k = i then l.take b else if k = j then l.drop b else z)
          (s.writeAll c 20 d (spread x (toBytes 0 b)) (spread (xm.map (fun m => m || mm.any id)) (List.replicate b (mm.any id)))).andThen d.addr (fun s => .done s 1 failed)
  | _, _, _ => .fault 3 0

/-- The next step of a started push command. -/
def State.pushWork (s : State) (c : Cmd) : Work :=
  match c.opc with
  | 2 => s.expandChunk c
  | 3 => s.compactChunk c
  | _ => s.pushChunk c

/-- The number of positions of a command: bytes, or groups. -/
def Cmd.total (c : Cmd) : Nat := if 2 ≤ c.opc then c.groups else c.shape.rows * c.shape.len

/-- The completion of a push: signal, timeline and ring entry, or the DATA fault it has met (R269, R290). -/
def State.finishPush (s : State) (c : Cmd) : State :=
  let signal (s : State) : State := if bitAt (c.slot 2) 11 && c.onTile then s.addSem (semKey c.unit (bits (c.slot 2) 10 7)) 1 else s
  match c.fault with
  | none => signal (s.endCmd c)
  | some l => signal (s.failCmd c l)

/-- A command may start (R253, R267, R282): the head of its queue, fewer than eight in progress, its issuer's stores done, and with ord every earlier command of its timeline. -/
def State.mayStartPush (s : State) (c : Cmd) : Bool :=
  c.st == .queued && (s.engineQueue c.unit .push).head?.any (fun d => d.id == c.id)
    && decide (((s.engine c.unit .push).filter (fun d => d.st == .started)).length < 8)
    && !s.reqs.any (fun r => c.after.contains r.id)
    && !(bitAt c.flags 0 && s.cmds.any (fun d => d.agent == c.agent && d.tl == c.tl && decide (d.num < c.num)))

/-- The table entry of another cube that the start's checks still lack: the home of a virtual source is judged before anything is written (R279, R290). -/
def State.sourceWants (s : State) (c : Cmd) : Option Nat :=
  let (n, _, q) := c.spans
  let sh := c.shape
  let src (a : Nat) (l : List (Nat × Nat)) : List Nat := match c.sourceAt a with
    | some d => l.flatMap (fun p => (d.plus p.1).pages p.2)
    | none => []
  let pages := match c.opc with
    | 0 => src (c.slot 0) ((upTo sh.rows).map (fun r => (r * sh.ss, sh.len)))
    | 2 => src (c.slot 0) [(0, n)] ++ src (c.slot 3) [(0, q)]
    | 3 => src (c.slot 0) [(0, n)]
    | _ => []
  pages.findSome? (s.sourceWait c)

/-- A destination of kind 1 or 2 on another cube is judged there before anything is written: the question (R280, R290); a lost cube is FENCED (R423). -/
def State.askShape (s : State) (c : Cmd) : Option State :=
  match s.destAt c (c.slot 1) with
  | some (.far cube kind unit w o) =>
    if s.lost.contains cube then some (s.failCmd c ⟨0x12, 0x0A, 0⟩) else
    let sh := if 2 ≤ c.opc then (⟨1, c.spans.2.1, 0, 0⟩ : Shape) else c.shape
    some ({ s with asking := some cube }.sendTo cube 0 .remoteRequest
      { EvArg.zero with c := 43, d := sh.len, e := unit + 256 * w, w := BitVec.ofNat 64 o,
                        words := [BitVec.ofNat 64 c.tenant, BitVec.ofNat 64 kind, BitVec.ofNat 64 sh.rows, BitVec.ofNat 64 sh.ds] })
  | _ => none

/-- PUSH_START: the push engine starts the command at the head of its queue and checks it (R267, R290).
Argument: a, the command; far, table entries of other cubes; d, one more than the subcode with which a destination on another cube fails its check there. -/
def execPushStart (s : State) : Host.Outcome State Fault Refusal :=
  .next (
    match s.cmd s.arg.a with
    | none => s
    | some c =>
      if c.total = 0 then s.finishPush c
      else
        match s.sourceWants c with
        | some pa => s.ask pa 8
        | none =>
        match (if 2 ≤ c.opc then s.groupFaults c else s.pushFaults c) with
        | [] =>
          match (if s.arg.d = 0 then s.askShape c else none) with
          | some t => t
          | none =>
            if 1 < s.arg.d then s.failCmd c ⟨0x12, s.arg.d - 1, 0⟩
            else s.mapCmd c.id (fun c => { c with st := .started, work := [0, 0] })
        | x :: l =>
          let (sub, s) := s.pick x (x :: l)
          s.failCmd c ⟨0x12, sub, 0⟩)

/-- The last write to host memory has been followed by its zero-length read (R449). -/
def Cmd.flushed (c : Cmd) : Bool := c.work.getD 0 0 == 2

/-- The zero-length read behind the last write to host memory (R449). -/
def State.flushHost (s : State) (c : Cmd) : State :=
  let (id, s) := s.fresh
  let r : Req := { id := id, grp := id, kind := .status, core := c.core, ctx := c.ctx, agent := c.agentId, tenant := c.tenant
                   launch := c.launch, dest := .none, pa := 0, size := 0, data := [], mask := [], sampled := false, poison := false
                   attr := 2 ^ 13, user := c.user, since := 0, acq := 0, remote := true, sent := true, pc := 0 }
  ((s.addReq r).mapCmd c.id (fun c => { c with work := [2, 0] })).sendOut .remoteRequest
    { EvArg.zero with a := id, c := 41, e := c.tenant, w := BitVec.ofNat 64 (c.slot 1) }

/-- A fault stops a push: it is reported once the writes before it have been performed (R290). -/
def State.stopPush (s : State) (c : Cmd) (sub a : Nat) : State :=
  let l : Late := ⟨0x12, sub, BitVec.ofNat 64 a⟩
  if (s.cmdReqs c).isEmpty then s.failCmd c l else s.mapCmd c.id (fun c => { c with fault := some l })

/-- One sector of a plane record that a push has still to write, in an order that the spec leaves open (R302). -/
def State.writeSector (s : State) (c : Cmd) (t : Nat) : State :=
  let (x, s) := s.pick (0, [], false) c.secs
  if (s.tile t).fence then s.stopPush { c with secs := [] } 0x0A 0
  else if t = c.unit && (s.rangeHeld t x.1 16).isSome then s
  else
    let s := s.scratchWrite t x.1 x.2.1
    (if x.2.2 then s.scratchSpoil t x.1 16 else s).mapCmd c.id (fun c => { c with secs := c.secs.filter (· ≠ x) })

/-- A write of an engine's command that had to wait: for a journal record perhaps (R402). -/
def State.stallAt (s : State) (c : Cmd) (va : Nat) : State :=
  if va / 2 ^ 56 ≠ 0 then s
  else
    match s.engineXlate c va true with
    | .ok pa _ => s.noteStall pa
    | _ => s

/-- A started push goes on; `late` says that its 1 ms of waiting is over. -/
def State.pushOn (s : State) (c : Cmd) (late : Bool) : State :=
  match c.secs, (s.destAt c (c.slot 1)).bind (·.tile) with
  | _ :: _, some t => s.writeSector c t
  | _, _ =>
  if c.total ≤ c.pos then
    if (s.cmdReqs c).isEmpty then
      match s.destAt c (c.slot 1) with
      | some (.host _) => if c.flushed then s.finishPush c else s.flushHost c
      | _ => s.finishPush c
    else s
  else
    match s.pushWork c with
    | .done t n data =>
      t.mapCmd c.id (fun c => { c with pos := c.pos + n, work := [0, 0]
                                       fault := if c.fault.isSome then c.fault else data.map (fun a => ⟨0x12, 5, BitVec.ofNat 64 a⟩) })
    | .fault sub a => s.stopPush c sub a
    | .wait pa => (s.ask pa 8).mapCmd c.id (fun c => { c with work := [1, 0] })
    | .blocked held a =>
      if late then s.stopPush c 0x0B a
      else (if held then s else s.stallAt c a).mapCmd c.id (fun c => { c with work := if !held then [0, 0] else if c.work.headD 0 = 3 then c.work else [3, s.time] })

/-- A fault other than DATA has stopped the command (R290). -/
def Cmd.stopped (c : Cmd) : Bool := c.fault.any (fun l => l.sub != 5)

/-- PUSH_COMPLETION: a started push moves its next chunk, and completes when every write has been performed (R269, R281, R290).
A chunk for another cube leaves once the earlier ones have been acknowledged, so that nothing behind a refused one is written.
Argument: a, the command; b = 1, its 1 ms of waiting at a held line is over (R260); far, table entries of other cubes. -/
def execPushCompletion (s : State) : Host.Outcome State Fault Refusal :=
  .next (
    match s.cmd s.arg.a with
    | none => s
    | some c =>
      match c.fault with
      | none => s.pushOn c (s.arg.b == 1)
      | some l => if l.sub = 5 then s.pushOn c (s.arg.b == 1) else if (s.cmdReqs c).isEmpty then s.failCmd c l else s)

end Sys2Proof.Machine
end

