-- ==== Sys2Proof/Machine/Matrix.lean ====
section
/-! DEFINITION. The matrix array: ownership, shape, and the commands `mma`, `mmb`, `mzero`, `mld` and `mst` (R292 to R317, R319 to R321, R331, R332). -/

namespace Sys2Proof.Machine

/-! ### Ownership and shape -/

/-- `mown` (R294). -/
def execMown (s : State) : Host.Outcome State Fault Refusal :=
  let t := tileOf s.cur.1
  let a := s.array t
  .next (s.issue useNothing
    (match a.owner with
     | none => (s.setArray t { a with owner := some (s.agent, s.cur.2), sticky := 0 }).finish .mown
     | some (u, _) =>
       if u = s.agent then s.finish .mown
       else
         let s := if a.waiting.contains s.agent then s else s.setArray t { a with waiting := a.waiting ++ [s.agent] }
         s.parkMe .array))

/-- Matrix commands of an agent that have not completed (R295). -/
def State.matrixOut (s : State) (core agent : Nat) : Bool :=
  s.cmds.any (fun c => c.cls == .matrix && c.unit == unitOf core && c.agent == agent)

/-- `mfree` (R295). -/
def execMfree (s : State) : Host.Outcome State Fault Refusal :=
  let t := tileOf s.cur.1
  .next (s.issue useNothing
    (if !s.ownsArray s.cur.1 s.agent then s.finish .mfree
     else if s.matrixOut s.cur.1 s.agent then s.parkMe .commands
     else (s.setArray t ((s.array t).release s.ctxNoOf)).finish .mfree))

/-- The word that `mshape` reads (R296). -/
def ArraySt.stateWord (a : ArraySt) : Nat :=
  a.shapeWord + a.sticky % 16 * 2 ^ 20 + (match a.owner with
    | some (_, c) => c % 16 * 2 ^ 24 + 2 ^ 28
    | none => 0)

/-- `mshape` (R296). -/
def execMshape (d : Reg) (s : State) : Host.Outcome State Fault Refusal :=
  .next (s.run0 (.mshape d) d (BitVec.ofNat 64 (s.array (tileOf s.cur.1)).stateWord))

/-- A row or column entry of a map (R320). -/
def mapEntry (retired : List Nat) (i : Nat) : Nat :=
  match (dimMap retired)[i]? with
  | some p => 128 + p
  | none => 0x7F

/-- The part of the summary that depends on the set (R321). -/
def setSummary (rows cols : List Nat) : Nat :=
  dimSize rows + dimSize cols * 2 ^ 8 + rows.length * 2 ^ 16 + cols.length * 2 ^ 24 + min rows.length 2 * 2 ^ 32 + min cols.length 2 * 2 ^ 34

/-- What `mmap.rd` reads under a legal selector (R319 to R321). -/
def ArraySt.mapWord (a : ArraySt) (x : Nat) : Nat :=
  let i := bits x 6 0
  let set := if bits x 15 14 = 0 then some (a.retRows, a.retCols) else a.cand
  match bits x 13 12 with
  | 0 => (set.map (fun q => mapEntry q.1 i)).getD 0x7F
  | 1 => (set.map (fun q => mapEntry q.2 i)).getD 0x7F
  | 2 =>
    (set.map (fun q => setSummary q.1 q.2)).getD 0
      + min a.count 255 * 2 ^ 40 + a.cand.isSome.toNat * 2 ^ 48 + a.running.toNat * 2 ^ 49
  | _ =>
    match a.defects[i]? with
    | some (r, c, k) => r + c * 2 ^ 8 + k * 2 ^ 16 + 2 ^ 24
    | none => 0

/-- A selector that breaks the table of R319. -/
def badMapSelector (x : Nat) : Bool :=
  x / 2 ^ 16 != 0 || decide (2 ≤ bits x 15 14) || bits x 11 7 != 0
    || (if bits x 13 12 = 2 then bits x 6 0 != 0 else decide (64 ≤ bits x 6 0))

/-- `mmap.rd` (R319). DEDUCED, unsafe: log entry 26. -/
def execMmapRd (d a : Reg) (t : Bool) (s : State) : Host.Outcome State Fault Refusal :=
  let i : Instr := .mmapRd d a t
  let u : Use := ⟨[(a, t)], [], [d], []⟩
  let x := (s.val a).toNat
  .next (s.issueVal i u [a] (badMapSelector x) (s.retire i u d (BitVec.ofNat 64 ((s.array (tileOf s.cur.1)).mapWord x))))

/-! ### Fields of matrix commands -/

/-- pA, pB, mode and bank of slot 4 (R304). -/
def Cmd.pA (c : Cmd) : Nat := bits (c.slot 4) 31 28 + 1
def Cmd.pB (c : Cmd) : Nat := bits (c.slot 4) 27 24 + 1
/-- Mode 1 is integer, or AND for `mmb`. -/
def Cmd.mode (c : Cmd) : Nat := bits (c.slot 4) 23 22
/-- The accumulator bank. -/
def Cmd.bank (c : Cmd) : Nat := bits (c.slot 4) 21 21
/-- m and n of slot 3 (R305). -/
def Cmd.m (c : Cmd) : Nat := bits (c.slot 3) 5 0 + 1
def Cmd.n (c : Cmd) : Nat := bits (c.slot 3) 13 8 + 1
/-- Passes of B (R297). -/
def Cmd.passes (c : Cmd) : Nat := if c.opc = 0 ∧ 8 < c.pB then 2 else 1
/-- The lengths of A and B records (R297, R305). -/
def Cmd.lenA (c : Cmd) : Nat := if c.opc = 1 then 16 else planeLen false c.pA
def Cmd.lenB (c : Cmd) : Nat := if c.opc = 1 then 16 else planeLen true c.pB
/-- Blocks, and the strides from block to block in bytes (R305). -/
def Cmd.nb (c : Cmd) : Nat := bits (c.slot 2) 15 0
def Cmd.strideA (c : Cmd) : Nat := if bits (c.slot 2) 31 16 = 0 then c.m * c.lenA else 16 * bits (c.slot 2) 31 16
def Cmd.strideB (c : Cmd) : Nat := if bits (c.slot 2) 47 32 = 0 then c.n * c.lenB else 16 * bits (c.slot 2) 47 32
/-- The window and the view offset of `mld` and `mst` (R314, R315). -/
def Cmd.win (c : Cmd) : Nat := bits (c.slot 0) 35 32
def Cmd.off (c : Cmd) : Nat := bits (c.slot 0) 31 0
/-- The view bytes of one row. -/
def Cmd.rowBytes (c : Cmd) : Nat := if c.win = 6 then c.n / 32 * planeVB (bits c.off 26 24) else 4 * c.n
/-- The row stride in view bytes. -/
def Cmd.rowStride (c : Cmd) : Nat := if bits (c.slot 1) 31 0 = 0 then c.rowBytes else bits (c.slot 1) 31 0

/-- The scratch ranges that a command reads (R305, R314, R317). -/
def Cmd.reads (c : Cmd) : List (Nat × Nat) :=
  match c.opc with
  | 3 => [windowSpan c.win c.off ((c.m - 1) * c.rowStride + c.rowBytes)]
  | 2 => []
  | 4 => []
  | _ => if c.nb = 0 then [] else
    [(c.slot 0, (c.nb - 1) * c.strideA + c.m * c.lenA), (c.slot 1, (c.nb - 1) * c.strideB + c.n * c.lenB)]

/-- The scratch range that `mst` writes (R315). -/
def Cmd.writes (c : Cmd) : List (Nat × Nat) :=
  if c.opc = 4 then [windowSpan c.win c.off ((c.m - 1) * c.rowStride + c.rowBytes)] else []

/-- Two lists of ranges meet. -/
def rangesMeet (a b : List (Nat × Nat)) : Bool :=
  a.any (fun x => b.any (fun y => decide (x.1 < y.1 + y.2) && decide (y.1 < x.1 + x.2)))

/-! ### Start -/

/-- The FORMAT checks (R304, R305, R312 to R315). -/
def Cmd.badFormat (c : Cmd) : Bool :=
  let w := c.slot 4
  let shape3 := bits (c.slot 3) 7 6 != 0 || c.slot 3 / 2 ^ 14 != 0
  decide (2 ≤ c.mode) || decide (6 ≤ bits w 20 18) || decide (6 ≤ bits w 17 15) || bitAt w 0 || (c.opc != 0 && bits w 31 24 != 0)
    || (match c.opc with
        | 2 => c.slot 0 != 0 || c.slot 1 != 0 || c.slot 2 != 0 || c.slot 3 != 0
        | 3 => shape3 || decide (6 ≤ c.win) || c.slot 0 / 2 ^ 36 != 0 || c.slot 1 / 2 ^ 32 != 0 || c.slot 2 != 0
               || (if c.mode = 0 then c.win == 4 || c.win == 5 else c.win == 1 || c.win == 2 || c.win == 3)
        | 4 => shape3 || decide (7 ≤ c.win) || c.slot 2 / 2 ^ 33 != 0
        | _ => shape3 || c.slot 0 / 2 ^ 21 != 0 || c.slot 1 / 2 ^ 21 != 0)

/-- Window-6 qualifiers that R297 refuses. -/
def Cmd.badPlane (c : Cmd) : Bool := c.opc == 4 && c.win == 6 && (bits c.off 26 24 == 7 || bits c.off 23 21 != 0)

/-- The ALIGN checks (R305, R314, R315). -/
def Cmd.badAlign (c : Cmd) : Bool :=
  match c.opc with
  | 2 => false
  | 0 => c.slot 0 % 16 != 0 || c.slot 1 % 16 != 0
  | 1 => c.slot 0 % 16 != 0 || c.slot 1 % 16 != 0
  | _ =>
    if c.win = 6 then
      let vb := planeVB (bits c.off 26 24)
      c.n % 32 != 0 || c.off % 2 ^ 21 % vb != 0 || c.rowStride % vb != 0
    else c.off % 4 != 0 || c.rowStride % 4 != 0

/-- The range check (R305, R314, R315). -/
def Cmd.badRange (c : Cmd) (scratch : Nat) : Bool :=
  match c.opc with
  | 3 => !windowOk scratch c.win c.off ((c.m - 1) * c.rowStride + c.rowBytes)
  | 4 => if c.win = 6 then (upTo c.m).any (fun i => !windowOk scratch 6 (c.off + i * c.rowStride) c.rowBytes
                                                     || decide (2 ^ 21 < c.off % 2 ^ 21 + i * c.rowStride + c.rowBytes))
         else !windowOk scratch c.win c.off ((c.m - 1) * c.rowStride + c.rowBytes)
  | _ => c.reads.any (fun r => decide (scratch < r.1 + r.2))

/-- The SHAPE check (R316, R328). -/
def Cmd.badShape (c : Cmd) (a : ArraySt) : Bool :=
  decide (a.rows < minSize (bits (c.slot 4) 20 18)) || decide (a.cols < minSize (bits (c.slot 4) 17 15))
    || (c.opc != 2 && (decide (a.rows < c.m) || decide (a.cols < c.n)))

/-- The scratch or view offset that an ALIGN fault reports: the first misaligned base, else 0. DEDUCED, unsafe: log entry 86. -/
def Cmd.alignAt (c : Cmd) : Nat :=
  if c.opc ≤ 1 then (if c.slot 0 % 16 ≠ 0 then c.slot 0 else c.slot 1)
  else if c.win = 6 then (if c.off % 2 ^ 21 % planeVB (bits c.off 26 24) ≠ 0 then c.off else 0)
  else if c.off % 4 ≠ 0 then c.off else 0

/-- The scratch offset that an ADDR fault of a range reports: the first byte of it outside scratch; for a range of a window the view offset. DEDUCED, unsafe: log entry 86. -/
def Cmd.rangeAt (c : Cmd) (scratch : Nat) : Nat :=
  if c.opc ≤ 1 then ((c.reads.find? (fun r => decide (scratch < r.1 + r.2))).map (fun r => max r.1 scratch)).getD 0 else c.off

/-- The start checks in the order of R316: the subcode and what tval reports. -/
def State.matrixFault (s : State) (c : Cmd) : Option (Nat × Nat) :=
  let scratch := s.scratchSize c.unit
  if c.badFormat then some (1, 0)
  else if c.badPlane then some (2, c.off)
  else if c.badAlign then some (3, c.alignAt)
  else if c.badRange scratch then some (2, c.rangeAt scratch)
  else if c.badShape (s.array c.unit) then some (4, 0)
  else none

/-- Started matrix commands of a tile. -/
def State.matrixStarted (s : State) (t : Nat) : List Cmd := (s.engine t .matrix).filter (fun c => c.st == .started)

/-- The conditions of R306 and R323 for the command at the head, apart from its wait. -/
def State.matrixFree (s : State) (c : Cmd) : Bool :=
  let l := s.matrixStarted c.unit
  decide (l.length < 4)
    && !l.any (fun d => rangesMeet (c.reads ++ c.writes) d.writes || rangesMeet c.writes d.ranges)
    && !(s.engine c.unit .health).any (fun d => decide (d.id < c.id))

/-- The signal of a command at its completion (R304, R307, R322). -/
def State.cmdSignal (s : State) (c : Cmd) : State := s.addSem (semKey c.unit (bits (c.slot 4) 6 3)) (bits (c.slot 4) 2 1)

/-- A command at the head of its queue whose parity check fails is dropped (R331). -/
def State.dropFlipped (s : State) (c : Cmd) : State := s.failCmd c ⟨0x11, 5, 0⟩

/-- MATRIX_COMMAND_START: the command at the head of the matrix queue is checked for parity, joins its semaphore's order, or starts (R306, R307, R316, R331).
Argument: a, the command. -/
def execMatrixCommandStart (s : State) : Host.Outcome State Fault Refusal :=
  .next (
    match s.cmd s.arg.a with
    | none => s
    | some c =>
      let n := bits (c.slot 4) 8 7
      if c.flip ≠ 0 ∧ c.waited = 0 then s.dropFlipped c
      else if n ≠ 0 ∧ c.waited = 0 then
        (s.mapCmd c.id (fun c => { c with waited := 1 })).joinSem (semKey c.unit (bits (c.slot 4) 12 9)) ⟨true, c.id, n⟩
      else if !s.matrixFree c then s
      else
        match s.matrixFault c with
        | some (sub, o) => s.failCmd c ⟨0x11, sub, BitVec.ofNat 64 o⟩
        | none => s.mapCmd c.id (fun c => { c with st := .started, ranges := c.reads }))

/-! ### Accumulators -/

/-- The key of an accumulator element: its bank and physical cell. -/
def accKey (bank row col : Nat) : Nat := bank * 4356 + row * 66 + col

/-- The keys of logical elements (i, j) with i < m and j < n, row by row (R318). -/
def ArraySt.cells (a : ArraySt) (bank m n : Nat) : List (List Nat) :=
  let rm := dimMap a.retRows
  let cm := dimMap a.retCols
  (upTo m).map (fun i => (upTo n).map (fun j => accKey bank (rm.getD i 0) (cm.getD j 0)))

/-- An element and its parity. -/
def ArraySt.elem (a : ArraySt) (k : Nat) : Nat × Bool := (smGet 0 a.acc k, smGet false a.accBad k)

/-- An array with an element written, with good parity. -/
def ArraySt.put (a : ArraySt) (k x : Nat) : ArraySt :=
  { a with acc := smPut 0 a.acc k x, accBad := if a.accBad = [] then [] else smPut false a.accBad k false }

/-- An array with a sticky bit set. -/
def ArraySt.stick (a : ArraySt) (b : Nat) : ArraySt := { a with sticky := a.sticky ||| b }

/-- Sticky bits (R296): saturation, overflow, NaN and poison. -/
def stSat : Nat := 1
def stOvf : Nat := 2
def stNan : Nat := 4
def stPoison : Nat := 8

/-- The default NaN and the poison of the accumulators (R97). -/
def accNan : Nat := 0x7FC00000
def accPoison : Nat := 0x7FC00BAD

/-- The flags of an A and a B record together: bit 0 NaN, bit 1 poison. -/
def pairFlags (fa fb : Nat) : Nat := if bitAt fa 1 || bitAt fb 1 then 2 else if bitAt fa 0 || bitAt fb 0 then 1 else 0

/-- One element updated by one block in floating-point mode (R309, R332). -/
def ArraySt.accumFp (a : ArraySt) (k fl : Nat) (p : Int) (e : Int) : ArraySt :=
  let (x, bad) := a.elem k
  if fl = 2 then (a.put k accPoison).stick stPoison
  else if fl = 1 then (a.put k (if bad || x == accPoison then accPoison else accNan)).stick (if bad then stNan + stPoison else stNan)
  else if p = 0 then a
  else if bad then (a.put k accPoison).stick stPoison
  else
    let r := (fpAddV .f32 0 (Fmt.val .f32 x) (.num ⟨decide (p < 0), p.natAbs, e⟩)).bits
    let finite (y : Nat) : Bool := match Fmt.val .f32 y with
      | .num _ => true
      | _ => false
    let infinite : Bool := match Fmt.val .f32 r with
      | .inf _ => true
      | _ => false
    let a := a.put k r
    if finite x && infinite then a.stick stOvf else a

/-- One element updated by one block in integer mode, or by a bit count (R310, R312, R332). -/
def ArraySt.accumInt (a : ArraySt) (k fl : Nat) (p : Int) : ArraySt :=
  let (x, bad) := a.elem k
  if fl ≠ 0 then (a.put k 0x80000000).stick (if fl = 2 then stPoison else stNan)
  else
    let v := sextInt (if bad then 0x80000000 else x) 32 + p
    let r := sat v 32
    let a := a.put k (wrapN r 32)
    (if r = v then a else a.stick stSat).stick (if bad then stPoison else 0)

/-! ### mma and mmb -/

/-- The 32 bytes of B that one pass reads, as signed or unsigned numbers (R308, R317). -/
def passB (r : List Byte) (q : Nat) : List Int :=
  (upTo 32).map (fun t => let b := (r.getD t 0).toNat; if q = 0 then sextInt b 8 else (b : Int))

/-- The partial of a pass: Σ mA × bq, times 256 for the high pass of two (R308). -/
def passPartial (ma bq : List Int) (high : Bool) : Int :=
  ((ma.zip bq).foldl (fun (acc : Int) x => acc + x.1 * x.2) 0) * (if high then 256 else 1)

/-- The records of one block of an operand: bytes and whether they are uncorrectable. -/
def State.blockRecords (s : State) (t base stride len kb n : Nat) : List (List Byte × Bool) :=
  (upTo n).map (fun i => s.scratchRead t (base + kb * stride + i * len) len)

/-- The fault DATA or PARITY of a command, the first one kept (R316). -/
def Cmd.noted (c : Cmd) (sub a : Nat) : Cmd := if c.fault.isSome then c else { c with fault := some ⟨0x11, sub, BitVec.ofNat 64 a⟩ }

/-- An integer in a list of naturals. -/
def natOfInt (v : Int) : Nat := wrapN v 64
/-- The integer back. -/
def intOfNat (x : Nat) : Int := sextInt x 64

/-- Exponent, flags and partials that the passes of a block leave in a command's scratch: for each A record, each B record, and each cell. -/
structure BlockScratch where
  ea : List Nat
  fa : List Nat
  eb : List Nat
  fb : List Nat
  ps : List Int

/-- The scratch list read. -/
def blockScratch (m n : Nat) (w : List Nat) : BlockScratch :=
  ⟨w.take m, (w.drop m).take m, (w.drop (2 * m)).take n, (w.drop (2 * m + n)).take n, (w.drop (2 * m + 2 * n)).map intOfNat⟩

/-- The scratch list written. -/
def BlockScratch.list (b : BlockScratch) : List Nat := b.ea ++ b.fa ++ b.eb ++ b.fb ++ b.ps.map natOfInt

/-- The scratch offsets of the sectors that a pass over a block reads, record by record: every sector of A, and of B those of its own pass, the first with the sector of the exponent and flags (R308, R317). -/
def Cmd.passSectors (c : Cmd) (kb q : Nat) : List Nat :=
  let recs (base stride len n : Nat) (offs : List Nat) : List Nat :=
    (upTo n).flatMap (fun i => offs.map (fun o => base + kb * stride + i * len + o))
  recs (c.slot 0) c.strideA c.lenA c.m ((upTo (c.lenA / 16)).map (16 * ·))
    ++ recs (c.slot 1) c.strideB c.lenB c.n (if q = 0 then [0, 16, 32] else [48, 64])

/-- Consecutive groups of k of a list. -/
def groupsOf {α : Type} (k : Nat) (n : Nat) (l : List α) : List (List α) := (upTo n).map (fun i => (l.drop (k * i)).take k)

/-- One pass over one block of `mma`: what its sectors give, added to what earlier passes of the block have left; and the offset of the first uncorrectable one (R308, R317). -/
def Cmd.mmaPass (c : Cmd) (q : Nat) (secs : List (Nat × List Byte × Bool)) : BlockScratch × Option Nat :=
  let na := c.lenA / 16
  let join (g : List (Nat × List Byte × Bool)) : List Byte × Bool := (g.flatMap (·.2.1), g.any (·.2.2))
  let as := (groupsOf na c.m secs).map join
  let bs := (groupsOf (if q = 0 then 3 else 2) c.n (secs.drop (na * c.m))).map join
  let bad := (secs.find? (·.2.2)).map (·.1)
  let ras := as.map (fun r => PRec.of false c.pA r.1)
  let high := c.passes == 2 && q == 0
  let part (b : List Byte) : List Byte := if q = 0 then b.drop 16 else b
  let ps := ras.flatMap (fun a => bs.map (fun b => passPartial a.ms (passB (part b.1) q) high))
  let poison (f : Nat) (b : Bool) : Nat := if b then f ||| 2 else f
  if q = 0 then
    (⟨ras.map (·.e), (ras.zip as).map (fun x => poison x.1.fl x.2.2), bs.map (fun b => (b.1.getD 0 0).toNat),
      bs.map (fun b => poison (b.1.getD 1 0).toNat b.2), ps⟩, bad)
  else
    let old := blockScratch c.m c.n c.work
    (⟨old.ea, (old.fa.zip as).map (fun x => poison x.1 x.2.2), old.eb, (old.fb.zip bs).map (fun x => poison x.1 x.2.2),
      (old.ps.zip ps).map (fun x => x.1 + x.2)⟩, bad)

/-- The next sectors of a pass read, so many as the spec leaves open: at least one, at most all that are left; each supplies its value of that moment (R317). -/
def State.readSectors (s : State) (c : Cmd) (want : List Nat) : List (Nat × List Byte × Bool) × State :=
  let left := want.drop c.secs.length
  let (k, t) := s.choose left.length
  (c.secs ++ (left.take (k + 1)).map (fun o => (o, s.scratchRead c.unit o 16)), t)

/-- The accumulation of a block (R309, R310). -/
def ArraySt.mmaBlock (a : ArraySt) (c : Cmd) (b : BlockScratch) : ArraySt :=
  let cells := a.cells c.bank c.m c.n
  (upTo c.m).foldl (fun a i =>
    (upTo c.n).foldl (fun (a : ArraySt) j =>
      let k := (cells.getD i []).getD j 0
      let fl := pairFlags (b.fa.getD i 0) (b.fb.getD j 0)
      let p := b.ps.getD (i * c.n + j) 0
      if c.mode = 0 then a.accumFp k fl p ((b.ea.getD i 0 : Int) + (b.eb.getD j 0 : Int) - 254) else a.accumInt k fl p) a) a

/-- A block of `mmb` (R312): XOR or AND of the planes, counted. -/
def State.mmbBlock (s : State) (c : Cmd) (kb : Nat) : ArraySt × Option Nat :=
  let as := s.blockRecords c.unit (c.slot 0) c.strideA 16 kb c.m
  let bs := s.blockRecords c.unit (c.slot 1) c.strideB 16 kb c.n
  let a := s.array c.unit
  let cells := a.cells c.bank c.m c.n
  let plane (r : List Byte) : Nat := fieldAt r 0 4
  let bad := match as.findIdx? (·.2) with
    | some i => some (c.slot 0 + kb * c.strideA + 16 * i)
    | none => (bs.findIdx? (·.2)).map (fun j => c.slot 1 + kb * c.strideB + 16 * j)
  ((upTo c.m).foldl (fun a i =>
    (upTo c.n).foldl (fun (a : ArraySt) j =>
      let x := plane (as.getD i ([], false)).1
      let y := plane (bs.getD j ([], false)).1
      a.accumInt ((cells.getD i []).getD j 0) 0 (popCount (if c.mode = 0 then x ^^^ y else x &&& y) 32)) a) a, bad)

/-! ### mzero, mld and mst -/

/-- `mzero` (R313): every element of the bank. -/
def ArraySt.zeroBank (a : ArraySt) (bank : Nat) : ArraySt :=
  let mine (k : Nat) : Bool := k / 4356 == bank && (a.cells bank 64 64).any (fun r => r.contains k)
  { a with acc := a.acc.filter (fun e => !mine e.1), accBad := a.accBad.filter (fun e => !mine e.1) }

/-- Row i of `mld` (R314, R316). -/
def State.mldRow (s : State) (c : Cmd) (i : Nat) : State × Option Nat :=
  let a := s.array c.unit
  let row := (a.cells c.bank c.m c.n).getD i []
  let o := c.off + i * c.rowStride
  let es := (upTo c.n).map (fun j => if c.win = 0 then
      let (b, bad) := s.scratchRead c.unit (o + 4 * j) 4; (ofBytes b, bad)
    else s.elemRead c.unit c.win (o / 4 + j))
  let lost := if c.mode = 0 then accPoison else 0x80000000
  (s.setArray c.unit ((row.zip es).foldl (fun a x => a.put x.1 (if x.2.2 then lost else x.2.1)) a),
   (es.findIdx? (·.2)).map (fun j => (windowSpan c.win (o + 4 * j) 4).1))

/-- A value times the scale of `mst`, exact (R97, R315). -/
def scaleV (v sc : FVal) : FVal :=
  let nan (x : FVal) : Bool := match x with
    | .qnan => true
    | .snan => true
    | _ => false
  if v = .poison || sc = .poison then .poison
  else if nan v || nan sc || (mulV v sc).2 then .qnan
  else (mulV v sc).1

/-- The value of an accumulator element for `mst` (R315, R332). -/
def Cmd.elemVal (c : Cmd) (x : Nat) (bad : Bool) : FVal :=
  let v : FVal := if c.mode = 0 then (if bad then .poison else Fmt.val .f32 x)
    else
      let i := sextInt (if bad then 0x80000000 else x) 32
      .num ⟨decide (i < 0), i.natAbs, 0⟩
  if bitAt (c.slot 2) 32 then scaleV v (Fmt.val .f32 (c.slot 2 % 2 ^ 32)) else v

/-- The stored code of an element through windows 0 to 5 (R315). -/
def Cmd.storeCode (c : Cmd) (v : FVal) : Nat :=
  match c.win with
  | 0 => if c.mode = 0 then (cvtV .f32 0 v).bits else wrapN (intOf (-(2 : Int) ^ 31) ((2 : Int) ^ 31 - 1) v) 32
  | 1 => (cvtV .f16 0 v).bits
  | 2 => (cvtV .bf16 0 v).bits
  | 3 => (cvtTf8V v).bits
  | 4 => wrapN (intOf (-128) 127 v) 8
  | _ => wrapN (intOf (-8) 7 v) 4

/-- An element for R300 from its exact value (R315). -/
def viewOf (f : Nat) (v : FVal) : ViewVal :=
  match v with
  | .poison => .poison
  | .num n => if 4 ≤ f then
      let (q, _) := quantize 0 n.neg n.m n.e false 0
      .int (if n.neg then -(q : Int) else q)
    else .fp n
  | _ => .bad

/-- Bytes at an offset cut into sectors (R302). -/
def sectorsOf (o : Nat) (b : List Byte) : List (Nat × List Byte) :=
  (pieces o (b.length + 1) b)

/-- Row i of `mst` (R315); through window 6 one sector of its records that is not written yet, in an order that the spec leaves open (R302). What has been written of the row is in `work`; the row is done unless the last result says otherwise. -/
def State.mstRow (s : State) (c : Cmd) (i : Nat) : State × Bool × Option (List Nat) :=
  let a := s.array c.unit
  let es := ((a.cells c.bank c.m c.n).getD i []).map a.elem
  let vs := es.map (fun e => c.elemVal e.1 e.2)
  let o := c.off + i * c.rowStride
  let flipped := c.mode = 1 && es.any (·.2)
  if c.win = 6 then
    let f := bits c.off 26 24
    let vb := planeVB f
    let all := (upTo (c.n / 32)).flatMap (fun b =>
      let q := planeAt (o + b * vb)
      sectorsOf (q.v / vb * planeLen q.kindB q.p) ((planeConvert f q.p (((vs.drop (32 * b)).take 32).map (viewOf f))).bytes q.kindB q.p))
    let left := (indices all).filter (fun j => !c.work.contains j)
    let (j, s) := s.pick 0 left
    let (p, b) := all.getD j (0, [])
    (s.scratchWrite c.unit p b, flipped, if 1 < left.length then some (j :: c.work) else none)
  else
    ((upTo c.n).foldl (fun (s : State) j =>
      let x := c.storeCode (vs.getD j .qnan)
      if c.win = 0 then s.scratchWrite c.unit (o + 4 * j) (toBytes x 4) else s.elemStore c.unit c.win (o / 4 + j) x) s, flipped, none)

/-! ### Progress -/

/-- The number of steps of a command's work: passes over blocks, rows, or one. -/
def Cmd.matrixSteps (c : Cmd) : Nat :=
  match c.opc with
  | 0 => c.nb * c.passes
  | 1 => c.nb
  | 2 => 1
  | _ => c.m

/-- One step of a started command's work. -/
def State.matrixStep (s : State) (c : Cmd) : State :=
  let next (s : State) (w : List Nat) (f : Cmd → Cmd) : State := s.mapCmd c.id (fun c => f { c with pos := c.pos + 1, work := w })
  let data (a : Option Nat) (c : Cmd) : Cmd := match a with
    | some x => c.noted 7 x
    | none => c
  match c.opc with
  | 0 =>
    let q := c.pos % c.passes
    let want := c.passSectors (c.pos / c.passes) q
    let (secs, s) := s.readSectors c want
    if secs.length < want.length then s.mapCmd c.id (fun c => { c with secs := secs })
    else
      let (b, bad) := c.mmaPass q secs
      let done (c : Cmd) : Cmd := data bad { c with secs := [] }
      if q + 1 < c.passes then next s b.list done
      else next (s.setArray c.unit ((s.array c.unit).mmaBlock c b)) [] done
  | 1 =>
    let (a, bad) := s.mmbBlock c c.pos
    next (s.setArray c.unit a) [] (data bad)
  | 2 => next (s.setArray c.unit ((s.array c.unit).zeroBank c.bank)) [] (fun c => c)
  | 3 =>
    let (s, bad) := s.mldRow c c.pos
    next s [] (data bad)
  | _ =>
    let (s, flipped, more) := s.mstRow c c.pos
    let note (c : Cmd) : Cmd := if flipped then c.noted 6 0 else c
    match more with
    | some w => s.mapCmd c.id (fun c => note { c with work := w })
    | none => next s [] note

/-- A started command may work (R306): no earlier command uses its bank; it completes only behind all earlier ones. -/
def State.matrixMayStep (s : State) (c : Cmd) : Bool :=
  let earlier := (s.matrixStarted c.unit).filter (fun d => decide (d.id < c.id))
  c.st == .started && (if c.pos < c.matrixSteps then !earlier.any (fun d => d.bank == c.bank) else earlier.isEmpty)

/-- MATRIX_COMMAND_COMPLETION: a started command does its next step, and completes in queue order (R269, R306, R307, R316).
Argument: a, the command. -/
def execMatrixCommandCompletion (s : State) : Host.Outcome State Fault Refusal :=
  .next (
    match s.cmd s.arg.a with
    | none => s
    | some c =>
      if c.pos < c.matrixSteps then s.matrixStep c
      else
        match c.fault with
        | none => (s.endCmd c).cmdSignal c
        | some l => (s.failCmd c l).cmdSignal c)

end Sys2Proof.Machine
end

