-- ==== Sys2Proof/Machine/Health.lean ====
section
/-! DEFINITION. Array health: `mtest`, `mremap` and the health queue (R318, R322 to R329, R331, R333). -/

namespace Sys2Proof.Machine

/-- A command may start (R323): it heads the health queue, no other runs, and every matrix command pushed earlier has completed. -/
def State.healthFree (s : State) (c : Cmd) : Bool :=
  (s.engine c.unit .health).head?.any (fun d => d.id == c.id) && c.st == .queued
    && !(s.engine c.unit .matrix).any (fun d => decide (d.id < c.id))

/-- The slot rules of R322. -/
def Cmd.badHealth (c : Cmd) : Bool :=
  c.slot 0 != 0 || c.slot 1 != 0 || c.slot 2 != 0 || c.slot 3 != 0
    || c.slot 4 / 2 ^ 15 != 0 || bits (c.slot 4) 12 7 != 0 || bitAt (c.slot 4) 0

/-- HEALTH_COMMAND_START: the command at the head of the health queue starts (R322 to R324, R331, R333).
Argument: a, the command. -/
def execHealthCommandStart (s : State) : Host.Outcome State Fault Refusal :=
  .next (
    match s.cmd s.arg.a with
    | none => s
    | some c =>
      let a := s.array c.unit
      if c.flip ≠ 0 then s.dropFlipped c
      else if c.badHealth then s.failCmd c ⟨0x11, 1, 0⟩
      else if c.opc = 0 then
        (s.setArray c.unit { a with running := true, cand := none, defects := [], count := 0 }).mapCmd c.id (fun c => { c with st := .started })
      else if a.cand.isNone then s.failCmd c ⟨0x11, 9, 0⟩
      else s.mapCmd c.id (fun c => { c with st := .started }))

/-- The order of the defect list: row, then column, then class (R324). -/
def defectKey (d : Nat × Nat × Nat) : Nat := d.1 * 1024 + d.2.1 * 4 + d.2.2

/-- A defect put into its place; a defect that is there already stays once. -/
def insertDefect (d : Nat × Nat × Nat) : List (Nat × Nat × Nat) → List (Nat × Nat × Nat)
  | [] => [d]
  | e :: l => if defectKey d < defectKey e then d :: e :: l else if defectKey d = defectKey e then e :: l else e :: insertDefect d l

/-- A defect that retirement does not cover (R324): class 0 a cell, 1 a row path, 2 a column path. -/
def ArraySt.uncovered (a : ArraySt) (d : Nat × Nat × Nat) : Bool :=
  let (r, c, k) := d
  decide (r < 66) && decide (c < 66) && decide (k < 3)
    && (match k with
        | 0 => !a.retRows.contains r && !a.retCols.contains c
        | 1 => !a.retRows.contains r
        | _ => !a.retCols.contains c)

/-- The end of a self-test that found defects (R324, R325). -/
def ArraySt.tested (a : ArraySt) (found : List (Nat × Nat × Nat)) : ArraySt :=
  let l := (found.filter a.uncovered).foldr insertDefect []
  let rows := (upTo 66).filter (fun r => a.retRows.contains r || l.any (fun d => d.2.2 == 1 && d.1 == r))
  let cols := (upTo 66).filter (fun c => a.retCols.contains c || l.any (fun d => d.2.2 != 1 && d.2.1 == c))
  { a with running := false, cand := some (rows, cols), defects := l.take 64, count := min l.length 255 }

/-- MTEST_COMPLETION: the defect list, its count and the candidate map are written (R324, R325).
Argument: a, the command. -/
def execMtestCompletion (s : State) : Host.Outcome State Fault Refusal :=
  .next (
    match s.cmd s.arg.a with
    | none => s
    | some c =>
      let s := s.setArray c.unit ((s.array c.unit).tested (Config.defects c.unit s.free))
      (s.drawn.endCmd c).cmdSignal c)

/-- The candidate applied: every old element is read before any new one is written (R326). -/
def ArraySt.remapped (a : ArraySt) (rows cols : List Nat) : ArraySt :=
  let b := { a with retRows := rows, retCols := cols, cand := none }
  let m := b.rows
  let n := b.cols
  let move (bank : Nat) : List (Nat × Nat) :=
    (b.cells bank m n).flatten.zip ((a.cells bank m n).flatten)
  let pairs := move 0 ++ move 1
  { b with acc := pairs.foldl (fun acc x => smPut 0 acc x.1 (smGet 0 a.acc x.2)) []
           accBad := if a.accBad = [] then [] else pairs.foldl (fun acc x => smPut false acc x.1 (smGet false a.accBad x.2)) [] }

/-- The end of an `mremap`: the accumulators are copied and the candidate map applied; a new shape makes the launch unit evaluate starvation (R326, R327, R329). -/
def State.remap (s : State) (c : Cmd) : State :=
  let a := s.array c.unit
  match a.cand with
  | none => s.failCmd c ⟨0x11, 9, 0⟩
  | some (r, q) =>
    let b := a.remapped r q
    let s := ((s.setArray c.unit b).endCmd c).cmdSignal c
    if b.shapeWord = a.shapeWord then s
    else
      match (s.tile c.unit).owner with
      | some l => s.evaluate l c.unit
      | none => s

/-- MREMAP_COMPLETION (R326).
Argument: a, the command. -/
def execMremapCompletion (s : State) : Host.Outcome State Fault Refusal :=
  .next (
    match s.cmd s.arg.a with
    | none => s
    | some c => s.remap c)

/-- A self-test that is cut short: not running, no candidate, and the list stays cleared (R333). -/
def ArraySt.untested (a : ArraySt) : ArraySt := { a with running := false, cand := none, defects := [], count := 0 }

end Sys2Proof.Machine
end

