-- ==== Sys2Proof/Machine/Cistern.lean ====
section
/-! DEFINITION. Cisterns: `cist`, the shipped entries, loaded micro-programs, `cerr.rd` and `cist.ld` (R334 to R353, R405). -/

namespace Sys2Proof.Machine

/-! ### Instructions -/

/-- The end of local memory that `cist` and `cist.ld` may read (R337). -/
def cistLimit : Nat := localBase + 0xD000

/-- The invocations of a vault. -/
def State.vaultInvs (s : State) (v : Nat) : List Inv := s.invs.filter (fun i => i.core == 256 + v)

/-- Invocations in a vault's queue (R337). -/
def State.cistQueued (s : State) (core : Nat) : Nat := (s.invs.filter (fun i => i.core == core && i.st == .queued)).length

/-- An invocation queued for the running context (R337). -/
def State.queueInv (s : State) (i : Instr) (d : Reg) (entry set o : Nat) : State :=
  let x := s.self
  let core := s.cur.1
  let b := (s.dieRead (localKey core o) 64).1
  let w := (encode i).headD 0
  let after := s.storesOut
  let (seq, s) := s.nextSeq 1
  let s := s.ringPut core (s.ringEntry seq 0 x.pc w 5)
  let (req, s) := s.producer d
  let (id, s) := s.fresh
  let n : Inv := { id := id, req := req, core := core, agent := s.agent, name := x.name, ctx := s.cur.2, tenant := x.tenant, job := x.job
                   launch := x.launch, user := decide (x.priv = .user), seq := seq, entry := entry, set := set
                   args := (upTo 8).map (fun k => fieldAt b (8 * k) 8), st := .queued, after := after, pages := [], pos := 0, ca := [], x := [], xbad := []
                   bad := none, got := [], outs := [], push := 0, result := none, seqs := [], fault := none, since := 0, asked := false, last := s.time }
  { s with invs := s.invs ++ [n] }.finish i

/-- `cist` (R337, R338). -/
def execCist (d a b : Reg) (t v : Bool) (s : State) : Host.Outcome State Fault Refusal :=
  let i : Instr := .cist d a b t v
  let u : Use := ⟨[], [(a, t), (b, v)], [], [d]⟩
  let x := (s.val a).toNat
  let y := (s.val b).toNat
  let bad := x / 2 ^ 56 ≠ 0 ∨ bits x 51 48 ≠ 0 ∨ x % 2 ^ 48 = 0
  .next (s.issueVal i u [a] bad
    (if y % 16 ≠ 0 then s.trap 0x04 0 (s.val b)
     else if y < localBase ∨ cistLimit < y + 64 then s.trap 0x05 0 (s.val b)
     else if 16 ≤ s.cistQueued s.cur.1 ∨ !s.ringRoom s.cur.1 then s.parkMe .cisternRoom
     else s.queueInv i d (bits x 55 52) (x % 2 ^ 48) (y - localBase)))

/-- `cerr.rd` (R336, R350). -/
def execCerrRd (d a : Reg) (t : Bool) (s : State) : Host.Outcome State Fault Refusal :=
  let i : Instr := .cerrRd d a t
  let u : Use := ⟨[(a, t)], [], [d], []⟩
  let x := (s.val a).toNat
  let key := (s.cur.1 - 256) * 192 + x % 256
  let v := BitVec.ofNat 64 (smGet 0 s.berr key)
  let early : Option Cond :=
    if !s.readable [a] then none
    else if x / 2 ^ 9 ≠ 0 ∨ 192 ≤ x % 256 then some (illegalValue i)
    else if bitAt x 8 && decide (s.self.priv = .user) then some (privCond i)
    else none
  .next (s.issueWith u early
    (if x / 2 ^ 9 ≠ 0 ∨ 192 ≤ x % 256 then s.trapC (illegalValue i)
     else if bitAt x 8 && decide (s.self.priv = .user) then s.trapC (privCond i)
     else (if bitAt x 8 then { s with berr := smPut 0 s.berr key 0 } else s).retire i u d v))

/-- Elements written into the control store of a vault (R353). -/
def State.storeMicro (s : State) (v : Nat) (table : Bool) (first : Nat) (ws : List Nat) : State :=
  (upTo ws.length).foldl (fun (s : State) i =>
    let w := ws.getD i 0
    if table then { s with entries := smPut 0 s.entries (16 * v + first + i) (w % 2 ^ 9 + 1) }
    else { s with micro := smPut 0 s.micro (256 * v + first + i) (withParity w + 1) }) s

/-- `cist.ld` (R353). -/
def execCistLd (a b : Reg) (t v : Bool) (s : State) : Host.Outcome State Fault Refusal :=
  let i : Instr := .cistLd a b t v
  let u : Use := ⟨[], [(a, t), (b, v)], [], []⟩
  let x := (s.val a).toNat
  let y := (s.val b).toNat
  let core := s.cur.1
  let table := bitAt x 17
  let count := bits x 16 8
  let first := x % 256
  let bad := x / 2 ^ 18 ≠ 0 ∨ count = 0 ∨ 256 < count ∨ (if table then 16 else 256) < first + count
  let early : Option Cond :=
    if s.readable [a] && bad then some (illegalValue i)
    else if s.self.priv ≠ .firmware then some (privCond i)
    else none
  .next (s.issueWith u early
    (if y % 16 ≠ 0 then s.trap 0x04 0 (s.val b)
     else if y < localBase ∨ localBase + 65536 < y + 16 * count then s.trap 0x05 0 (s.val b)
     else if (s.vaultInvs (core - 256)).any (fun n => n.st == .running || n.asked) then s.parkMe .cisterns
     else
       let ws := (upTo count).map (fun k => ofBytes (s.dieRead (localKey core (y - localBase + 16 * k)) 16).1)
       (s.storeMicro (core - 256) table first ws).finish i))

/-! ### Arguments -/

/-- Argument dword k. -/
def Inv.arg (n : Inv) (k : Nat) : Nat := n.args.getD k 0
/-- The fields of R339. -/
def Inv.fmt (n : Inv) : Nat := bits (n.arg 3) 49 48
def Inv.rows (n : Inv) : Nat := bits (n.arg 3) 47 32 + 1
def Inv.n (n : Inv) : Nat := n.arg 3 % 2 ^ 32
def Inv.stride (n : Inv) : Nat := n.arg 4 / 2 ^ 32
def Inv.alpha (n : Inv) : Nat := n.arg 4 % 2 ^ 32
/-- The element size (R340). -/
def Inv.esize (n : Inv) : Nat := if n.fmt = 2 then 1 else 2
/-- The vault. -/
def Inv.vault (n : Inv) : Nat := n.core - 256
/-- The operand bytes: n elements, or n bytes of entries 5 and 6. -/
def Inv.opBytes (n : Inv) : Nat := if n.entry = 5 ∨ n.entry = 6 then n.n else n.n * n.esize

/-- An entry that `cist.ld` has written, with its element (R353). -/
def State.loadedEntry (s : State) (n : Inv) : Option Nat :=
  match smGet 0 s.entries (16 * n.vault + n.entry) with
  | 0 => none
  | e + 1 => some e

/-- The entry is valid: a loaded element's bit 8, or one of the shipped eight (R340, R351). -/
def State.entryValid (s : State) (n : Inv) : Bool :=
  match s.loadedEntry n with
  | some e => bitAt e 8
  | none => decide (n.entry < 8)

/-- The start micro-address of an entry (R351). -/
def State.startOf (s : State) (n : Inv) : Nat :=
  match s.loadedEntry n with
  | some e => e % 256
  | none => Config.entryStart n.entry % 256

/-- A micro-word of the vault that a shipped entry uses and that satisfies a predicate of its address and value. DESIGN CHOICE, safe: log entry 40. -/
def State.usesMicro (s : State) (n : Inv) (p : Nat → Nat → Bool) : Bool :=
  s.micro.any (fun e => e.1 / 256 == n.vault && Config.entryUses n.entry (e.1 % 256) && e.2 != 0 && p (e.1 % 256) (e.2 - 1))

/-- The parity of a micro-word is right (R352). -/
def microParity (w : Nat) : Bool := popCount w 128 % 2 == 0

/-- An invocation that the micro-words in the store decide: an entry from 8 on, one whose table element `cist.ld` wrote, or one that uses a rewritten word (R351, R353). -/
def State.byMicro (s : State) (n : Inv) : Bool :=
  decide (8 ≤ n.entry) || (s.loadedEntry n).isSome || s.usesMicro n (fun a w => microParity w && w != shippedWord a)

/-- An address lies in local memory below 0xD000, n bytes long (R340). -/
def inLocal (a n : Nat) : Bool := decide (localBase ≤ a) && decide (a + n ≤ cistLimit)

/-! ### Micro-words -/

/-- The micro-addresses that may follow a word (R352). -/
def microNext (a w : Nat) : List Nat :=
  match bits w 119 117 with
  | 0 => [(a + 1) % 256]
  | 1 => [bits w 127 120]
  | 2 => [bits w 127 120, (a + 1) % 256]
  | 3 => [bits w 127 120, (a + 1) % 256]
  | _ => []

/-- The micro-words that an entry can reach: those found, and those found last. -/
def State.microReach (s : State) (v : Nat) : Nat → List Nat → List Nat → List Nat
  | 0, acc, _ => acc
  | fuel + 1, acc, front =>
    match (distinct (front.flatMap (fun a => microNext a (s.microAt v a)))).filter (fun a => !acc.contains a) with
    | [] => acc
    | l => s.microReach v fuel (acc ++ l) l

/-- The micro-words of an entry's program. -/
def State.program (s : State) (n : Inv) : List Nat :=
  (s.microReach n.vault 256 [s.startOf n] [s.startOf n]).map (s.microAt n.vault)

/-- A word reads, writes or tests generator k (R352). -/
def microGen (k w : Nat) : Bool :=
  ((bitAt w 115 || bits w 119 117 == 3) && bits w 114 113 == k) || (bitAt w 111 && bits w 110 109 == k)

/-- The program of an entry from 8 on uses generator k (R339). DEDUCED, unsafe: log entry 87. -/
def State.usesGen (s : State) (n : Inv) (k : Nat) : Bool := (s.program n).any (microGen k)

/-- The program of an entry uses an operation (R339). -/
def State.usesOp (s : State) (n : Inv) (k : Nat) : Bool := (s.program n).any (fun w => bits w 105 102 == k)

/-- x of the row latch: of entry 1, and of a loaded entry whose program names it. -/
def State.usesLatch (s : State) (n : Inv) : Bool := if n.entry < 8 then n.entry == 1 else s.usesOp n 2 && inLocal (n.arg 1) 0

/-! ### Checks -/

/-- The FORMAT rules of the entries 0 to 7 (R339, R340). -/
def Inv.badShipped (n : Inv) : Bool :=
  let zero (k : Nat) : Bool := n.arg k == 0
  let e := n.entry
  let noRows := n.rows == 1
  let fmtOk := match e with
    | 0 => n.fmt == 0
    | 5 => n.fmt == 0
    | 6 => n.fmt == 0
    | 7 => n.fmt == 2
    | _ => decide (n.fmt < 2)
  let used := match e with
    | 0 => zero 2 && noRows && zero 4
    | 1 => n.alpha == 0
    | 2 => noRows && n.stride == 0
    | 3 => zero 1 && n.alpha == 0
    | 4 => zero 1 && noRows && n.stride == 0
    | 5 => zero 1 && noRows && zero 4
    | 6 => zero 0 && zero 1 && noRows && zero 4
    | _ => zero 2 && noRows && zero 4
  let matrix := e == 1 || e == 3
  !fmtOk || !used || (e != 5 && (!zero 5 || !zero 6))
    || (matrix && (decide (1024 < n.n * n.esize) || !inLocal (n.arg 2) (4 * n.rows)))
    || (e == 1 && !inLocal (n.arg 1) (n.n * n.esize))

/-- A field that the program of an entry from 8 on does not use, and that is not zero (R339). -/
def State.badLoaded (s : State) (n : Inv) : Bool :=
  let zero (k : Nat) : Bool := n.arg k == 0
  (!zero 0 && !s.usesGen n 0 && !s.usesGen n 3) || (!zero 1 && !s.usesGen n 1 && !s.usesOp n 2) || (!zero 2 && !s.usesGen n 2)
    || ((n.rows != 1 || n.stride != 0) && !s.usesGen n 3) || (n.alpha != 0 && !s.usesOp n 4 && !s.usesOp n 5) || !zero 5 || !zero 6

/-- The FORMAT rules (R339). -/
def State.invFormat (s : State) (n : Inv) : Bool :=
  n.arg 3 / 2 ^ 50 != 0 || n.fmt == 3 || n.arg 6 / 4 != 0 || n.arg 7 != 0 || (if n.entry < 8 then n.badShipped else s.badLoaded n)

/-- The alignment rules of R340. -/
def Inv.offAlign (n : Inv) : Bool :=
  let off (k m : Nat) : Bool := n.arg k % m != 0
  let e := n.entry
  off 0 (if e = 1 ∨ e = 3 ∨ e = 5 then 32 else 1024) || off 1 (if e = 1 then 32 else 1024) || off 2 (if e = 1 ∨ e = 3 then 4 else 1024)
    || n.stride % 32 != 0 || (e == 5 && n.n % 32 != 0) || (e == 6 && n.n % 1024 != 0)

/-- A piece of an operand's range: the operand (3 for matrix rows), its chunk or row number, its address and length. -/
structure Piece where
  op  : Nat
  k   : Nat
  va  : Nat
  len : Nat
  deriving DecidableEq, Repr

/-- The chunks of an operand (R341). -/
def Inv.chunksOf (n : Inv) (op : Nat) : List Piece :=
  let a := n.arg op
  let len := n.opBytes
  (upTo ((a + len + 1023) / 1024 - a / 1024)).map (fun k =>
    let lo := max a ((a / 1024 + k) * 1024)
    ⟨op, k, lo, min (a + len) ((a / 1024 + k + 1) * 1024) - lo⟩)

/-- The matrix rows (R340). -/
def Inv.rowsOf (n : Inv) : List Piece := (upTo n.rows).map (fun r => ⟨3, r, n.arg 0 + n.stride * r, n.opBytes⟩)

/-- The operand ranges in memory (R340); of an entry from 8 on, those that its generators name and that are no local addresses. -/
def State.invPieces (s : State) (n : Inv) : List Piece :=
  if n.n = 0 then []
  else
    match n.entry with
    | 0 => n.chunksOf 0 ++ n.chunksOf 1
    | 1 => n.rowsOf
    | 2 => n.chunksOf 0 ++ n.chunksOf 1 ++ n.chunksOf 2
    | 3 => n.rowsOf
    | 4 => n.chunksOf 0 ++ n.chunksOf 2
    | 5 => n.chunksOf 0
    | 6 => n.chunksOf 2
    | 7 => n.chunksOf 0 ++ n.chunksOf 1
    | _ => ([0, 1, 2].filter (fun k => s.usesGen n k && !inLocal (n.arg k) 0)).flatMap n.chunksOf ++ (if s.usesGen n 3 then n.rowsOf else [])

/-- The blocks of 1 KiB that a piece touches. -/
def Piece.blocks (p : Piece) : List Nat := (upTo ((p.va + p.len - 1) / 1024 + 1 - p.va / 1024)).map (fun i => (p.va / 1024 + i) * 1024)

/-- The translation of an invocation's page: the vault core's cache, else a walk (R341). -/
def State.invXlate (s : State) (n : Inv) (va : Nat) (store : Bool) : Xl := s.cachedXlate (unitOf n.core) n.tenant va n.user store

/-- The result of a check. -/
inductive Chk where
  | ok (pages : List (Nat × Nat × Nat))
  | fault (sub va : Nat)
  | wait (pa : Nat)

/-- Every page of the ranges translated (R341, step 1). -/
def State.invPages (s : State) (n : Inv) : List (Nat × Bool) → List (Nat × Nat × Nat) → Chk
  | [], acc => .ok acc
  | (va, store) :: r, acc =>
    match s.invXlate n va store with
    | .wait pa => .wait pa
    | .fault c _ => .fault (if c = 0x07 then 5 else 4) va
    | .ok pa attr =>
      let e := (va / 65536, pa - va % 65536, attr)
      s.invPages n r (if acc.contains e then acc else acc ++ [e])

/-- The physical address and attributes under translated pages. -/
def pageOf (pages : List (Nat × Nat × Nat)) (va : Nat) : Nat × Nat :=
  match pages.find? (fun e => e.1 == va / 65536) with
  | some (_, pa, attr) => (pa + va % 65536, attr)
  | none => (0, 0)

/-- The place of a byte of an operand. -/
def State.placeOf (s : State) (pages : List (Nat × Nat × Nat)) (va : Nat) : Place := s.place (s.localAddr (pageOf pages va).1)

/-- The cistern that serves a place (R334). -/
def Place.cistern (p : Place) : Nat := 4 * p.die + p.group

/-- Step 2 of R341 fails for a block. -/
def State.offLayout (s : State) (n : Inv) (pages : List (Nat × Nat × Nat)) (va : Nat) : Bool :=
  let (pa, attr) := pageOf pages va
  !attrB attr || s.isRemote pa || !s.isLinear (s.localAddr pa / 2 ^ 36) || (s.placeOf pages va).vault != n.vault

/-- Step 4 of R341: the pairing of chunks, and matrix rows within one bank. -/
def State.unpaired (s : State) (n : Inv) (pages : List (Nat × Nat × Nat)) (ps : List Piece) (p : Piece) : Bool :=
  let g (q : Piece) : Nat := (s.placeOf pages q.va).cistern
  if n.entry = 1 ∨ n.entry = 3 then p.blocks.any (fun b => (s.placeOf pages (max b p.va)).bankNo != (s.placeOf pages p.va).bankNo)
  else if n.entry = 0 ∨ n.entry = 2 ∨ n.entry = 4 ∨ n.entry = 7 then ps.any (fun q => q.k == p.k && g q != g p)
  else false

/-- The DRAM row of a place. -/
def Place.rowKey (p : Place) : Nat := p.bankNo * 2 ^ 15 + p.row

/-- The first address of a list that a check fails for. -/
def firstBad (l : List Nat) (p : Nat → Bool) : Option Nat := l.find? p

/-- The three checks before the numbered steps of R341. -/
def State.invArgs (s : State) (n : Inv) : Option Nat :=
  if !s.entryValid n then some 3 else if s.invFormat n then some 2 else if n.offAlign then some 7 else none

/-- The addresses to be translated, one in each block, and whether they are written (R341). -/
def State.invBlocks (s : State) (n : Inv) : List (Nat × Bool) :=
  (s.invPieces n).flatMap (fun p => p.blocks.map (fun b => (max b p.va, p.op == 2)))

/-- The checks of R341 in their order. -/
def State.invCheck (s : State) (n : Inv) : Chk :=
  match s.invArgs n with
  | some sub => .fault sub 0
  | none =>
    let ps := s.invPieces n
    match s.invPages n (s.invBlocks n) [] with
    | .ok pages =>
      let blocks := (s.invBlocks n).map (·.1)
      match firstBad blocks (s.offLayout n pages) with
      | some va => .fault 6 va
      | none =>
        match firstBad blocks (fun b => !bitAt n.set (s.placeOf pages b).cistern) with
        | some va => .fault 6 va
        | none =>
          match ps.find? (s.unpaired n pages ps) with
          | some p => .fault 6 p.va
          | none =>
            let rowsOf (w : Bool) : List (Nat × Nat) := (ps.filter (fun p => (p.op == 2) == w)).flatMap (fun p =>
              p.blocks.map (fun b => (max b p.va, (s.placeOf pages (max b p.va)).rowKey)))
            let reads := rowsOf false
            match (rowsOf true).find? (fun x => reads.any (fun y => y.2 == x.2)) with
            | some x => .fault 8 x.1
            | none => .ok pages
    | x => x

/-- The translations that the checks have made, installed in the vault core's cache (R223, R341). -/
def State.invLearn (s : State) (n : Inv) : State :=
  if (s.invArgs n).isSome then s
  else ((s.invBlocks n).takeWhile (fun b => match s.invXlate n b.1 b.2 with | .ok _ _ => true | _ => false)).foldl
    (fun (s : State) b => s.learn (unitOf n.core) n.tenant b.1) s

/-! ### Start and end -/

/-- An invocation replaced by its image. -/
def State.mapInv (s : State) (id : Nat) (f : Inv → Inv) : State := { s with invs := s.invs.map (fun i => if i.id = id then f i else i) }

/-- The failure form of d (R343). -/
def failForm (sub : Nat) : Word := BitVec.ofNat 64 (0xFFFFFFFF00000700 + sub)

/-- An invocation ends FAULTED (R343). -/
def State.invFail (s : State) (n : Inv) (sub va : Nat) : State :=
  ({ s with invs := s.invs.filter (fun i => i.id ≠ n.id) }.answer n.req (failForm sub)).workFault n.core n.agent n.seq
    ⟨0x13, sub, BitVec.ofNat 64 va⟩

/-- An invocation ends DONE: its result, and the DATA fault or the ring entry freed (R343). -/
def State.invDone (s : State) (n : Inv) (d : Nat) : State :=
  let s := { s with invs := s.invs.filter (fun i => i.id ≠ n.id) }.answer n.req (BitVec.ofNat 64 d)
  match n.bad with
  | some va => s.workFault n.core n.agent n.seq ⟨0x13, 1, BitVec.ofNat 64 va⟩
  | none => s.ringFree (s.ringCore n.core n.agent n.seq) n.agent n.seq

/-- Sets of cisterns that share one. -/
def setsMeet (a b : Nat) : Bool := decide (a &&& b ≠ 0)

/-- An invocation may start (R253, R342, R353). -/
def State.mayStartInv (s : State) (n : Inv) : Bool :=
  let same := s.vaultInvs n.vault
  n.st == .queued && !n.asked
    && !same.any (fun i => i.st == .running && setsMeet i.set n.set)
    && !(same.takeWhile (fun i => i.id != n.id)).any (fun i => i.st == .queued && setsMeet i.set n.set)
    && !s.reqs.any (fun r => n.after.contains r.id)
    && !s.ctxs.any (fun e => e.1 / 16 == n.core && e.2.park == some .cisterns)

/-- A column of an operand: its address, its bytes before the operand's end, and its number in its row. -/
structure Column where
  va   : Nat
  live : Nat
  no   : Nat
  deriving DecidableEq, Repr

/-- The columns of a piece. -/
def Piece.columns (p : Piece) : List Column :=
  (upTo ((p.len + 31) / 32)).map (fun i => ⟨p.va + 32 * i, min 32 (p.len - 32 * i), if p.op = 3 then i else (p.va + 32 * i) % 1024 / 32⟩)

/-- The pieces that a generator goes through: operand 0, 1 or 2, or the matrix rows; without an operand 0 of its own generator 0 goes
through the rows, and without rows generator 3 through operand 0 (R351). -/
def genPieces (ps : List Piece) (k : Nat) : List Piece :=
  let own (k : Nat) : List Piece := ps.filter (fun p => p.op == k)
  if own k ≠ [] then own k else if k = 0 then own 3 else if k = 3 then own 0 else []

/-- The columns of a generator in a cistern's own bank group (R334, R351). -/
def State.genCols (s : State) (pages : List (Nat × Nat × Nat)) (ps : List Piece) (g k : Nat) : List Column :=
  (genPieces ps k).flatMap (fun p => p.columns.filter (fun c => (s.placeOf pages c.va).cistern == g))

/-- The sequencer of an invocation at its start (R351); its loop counters count a cistern's own columns and chunks, or the columns of a row and the rows. -/
def State.seqrStart (s : State) (n : Inv) (pages : List (Nat × Nat × Nat)) (ps : List Piece) (g : Nat) : Seqr :=
  let own (k : Nat) : Nat := (s.genCols pages ps g k).length
  let parts (k : Nat) : Nat := ((genPieces ps k).filter (fun p => p.columns.any (fun c => (s.placeOf pages c.va).cistern == g))).length
  let most (f : Nat → Nat) : Nat := [0, 1, 2].foldl (fun m k => max m (f k)) 0
  { g := g, pc := s.startOf n, gens := [0, 0, 0, 0]
    loops := [if ps.any (fun p => p.op == 3) then (n.opBytes + 31) / 32 else most own, most parts]
    ca := List.replicate 8 (List.replicate 16 0), latch := ([], 0), col := ([], 0), ended := false }

/-- The sectors of x that are uncorrectable in local memory (R340). -/
def State.xBad (s : State) (n : Inv) : List Nat :=
  (upTo ((min 1024 n.opBytes + 15) / 16)).filter (fun j => (s.dieRead (localKey n.core (n.arg 1 - localBase + 16 * j)) (min 16 (n.opBytes - 16 * j))).2)

/-- CISTERN_INVOCATION_START: an invocation whose cisterns are idle is checked and runs (R341 to R343).
Argument: a, the invocation; far, table entries of other cubes. -/
def execCisternInvocationStart (s : State) : Host.Outcome State Fault Refusal :=
  .next (
    match s.invs.find? (fun i => i.id == s.arg.a && i.st == .queued) with
    | none => s
    | some n =>
      match s.invCheck n with
      | .wait pa => ((s.invLearn n).ask pa 8).mapInv n.id (fun i => { i with asked := true })
      | .fault sub va => (s.invLearn n).invFail n sub va
      | .ok pages =>
        let ps := s.invPieces n
        let gs := (upTo 48).filter (fun g => (s.invBlocks n).any (fun b => (s.placeOf pages b.1).cistern == g))
        let latch := s.usesLatch n
        let x := if latch then (s.dieRead (localKey n.core (n.arg 1 - localBase)) (min 1024 n.opBytes)).1 else []
        let xbad := if latch then s.xBad n else []
        let seqs := if s.byMicro n then gs.map (s.seqrStart n pages ps) else []
        (s.invLearn n).mapInv n.id (fun i => { i with st := .running, asked := false, pages := pages, x := x, xbad := xbad, seqs := seqs, last := s.time
                                                      bad := if xbad.isEmpty then none else some (n.arg 1) }))

/-! ### Columns -/

/-- A sector read by an invocation (R335, R348). -/
def State.invSector (s : State) (n : Inv) (va : Nat) : State :=
  let pa := (pageOf n.pages va).1
  let ((b, x), s) := s.readSector (pa / 128) (s.localAddr pa) n.launch
  s.mapInv n.id (fun i => { i with got := i.got ++ [(va, b, x)], last := s.time })

/-- A column whose sectors have been read: its 32 bytes and which halves are uncorrectable (R335). -/
def Inv.column (n : Inv) (va : Nat) : List Byte × Bool × Bool :=
  let half (a : Nat) : List Byte × Bool := ((n.got.find? (fun e => e.1 == a)).map (·.2)).getD ([], false)
  ((half va).1 ++ (half (va + 16)).1, (half va).2, (half (va + 16)).2)

/-- The parts of a column to be written, cut at its sectors (R345, R348). -/
def columnParts (va : Nat) (b : List Byte) : List (Nat × List Byte) :=
  [(va, b.take 16), (va + 16, b.drop 16)].filter (fun e => !e.2.isEmpty)

/-- The number of elements of a column's 32 bytes that lie before the operand's end. -/
def liveElems (n : Inv) (i : Nat) : Nat := min (32 / n.esize) (n.n - i * (32 / n.esize))

/-- An element of a column as a value: +0 beyond the end, poison in an uncorrectable half (R335). -/
def elemOf (n : Inv) (live : Nat) (col : List Byte × Bool × Bool) (j : Nat) : FVal :=
  if live ≤ j then .num ⟨false, 0, 0⟩
  else if (if j < 8 then col.2.1 else col.2.2) then .poison
  else (if n.fmt = 0 then Fmt.f16 else Fmt.bf16).val (fieldAt col.1 (2 * j) 2)

/-- A half with an element before the end is uncorrectable (R335). -/
def colBad (n : Inv) (live : Nat) (col : List Byte × Bool × Bool) : Bool :=
  let h := 16 / n.esize
  (col.2.1 && decide (0 < live)) || (col.2.2 && decide (h < live))

/-- The lowest column of which a poisoned lane was used (R413). -/
def Inv.noteBad (n : Inv) (bad : Bool) (va : Nat) : Inv :=
  if bad then { n with bad := some (match n.bad with | some a => min a va | none => va) } else n

/-- FP32 multiply-add of a lane, rounded once (R344). -/
def laneMac (acc : Nat) (x y : FVal) : Nat := (fpFmaV .f32 0 x y (Fmt.val .f32 acc)).bits

/-- The reduction tree of sixteen FP32 lanes (R195, R344). -/
def treeFp (l : List Nat) : Nat := (reduceTree (fun a b => fpAdd .f32 0 a.bits b.bits) 4 (l.map (fun x => ⟨x, 0⟩))).bits

/-- The tree of sixteen INT32 lanes, modulo 2^32. -/
def treeInt (l : List Nat) : Nat := l.foldl (· + ·) 0 % 2 ^ 32

/-- The accumulator ca0 of a cistern. -/
def Inv.acc (n : Inv) (g : Nat) : List Nat := smGet (List.replicate 16 0) n.ca g

/-- The sixteen lanes after one column of entry 0, 1 or 3 (R344). -/
def macColumn (acc : List Nat) (x y : Nat → FVal) : List Nat := (upTo 16).map (fun l => laneMac (acc.getD l 0) (x l) (y l))

/-- The lanes after one column of entry 7: two products in each, modulo 2^32 (R344). -/
def macInt (live : Nat) (acc : List Nat) (x y : List Byte) : List Nat :=
  let v (b : List Byte) (j : Nat) : Int := if live ≤ j then 0 else sextInt (b.getD j 0).toNat 8
  (upTo 16).map (fun l => wrapN ((acc.getD l 0 : Int) + v x (2 * l) * v y (2 * l) + v x (2 * l + 1) * v y (2 * l + 1)) 32)

/-- 1.0 (R344). -/
def fpOne : FVal := .num ⟨false, 1, 0⟩

/-- An element of x in the row latch: +0 beyond the end (R335). -/
def Inv.xElem (n : Inv) (j : Nat) : FVal :=
  if n.n ≤ j then .num ⟨false, 0, 0⟩
  else if n.xbad.contains (j / 8) then .poison else (if n.fmt = 0 then Fmt.f16 else Fmt.bf16).val (fieldAt n.x (2 * j) 2)

/-- What a step of an invocation gives. -/
inductive Turn where
  | ok (s : State)
  | done (s : State) (d : Nat)
  | fail (sub va : Nat)
  | blocked (held : Bool) (va : Nat)

/-- The columns of an operand or row. -/
def Inv.columns (n : Inv) : Nat := (n.opBytes + 31) / 32

/-- A column step done: what it read is used, and what it writes is to be placed. -/
def State.advanceInv (s : State) (n : Inv) (outs : List (Nat × List Byte)) (f : Inv → Inv) : State :=
  s.mapInv n.id (fun i => f { i with pos := i.pos + 1, got := [], outs := outs, last := s.time })

/-- The fold of the cisterns' parts, lowest first (R344). -/
def Inv.fold (n : Inv) : Nat :=
  let parts := n.ca.map (fun e => if n.entry = 7 then treeInt e.2 else treeFp e.2)
  match parts with
  | [] => 0
  | p :: ps => ps.foldl (fun a b => if n.entry = 7 then (a + b) % 2 ^ 32 else (fpAdd .f32 0 a b).bits) p

/-- One column of a dot product, entries 0 and 7 (R344). -/
def State.dotTurn (s : State) (n : Inv) : Turn :=
  if n.columns ≤ n.pos then
    .done s (if n.entry = 7 ∧ n.bad.isSome then 0x80000000 else n.fold)
  else
    let va := n.arg 0 + 32 * n.pos
    let wb := n.arg 1 + 32 * n.pos
    let x := n.column va
    let y := n.column wb
    let live := liveElems n n.pos
    let g := (s.placeOf n.pages va).cistern
    let acc := if n.entry = 7 then macInt live (n.acc g) x.1 y.1 else macColumn (n.acc g) (elemOf n live x) (elemOf n live y)
    -- a cistern that takes part has its accumulator in the table, even when it is zero
    .ok (s.advanceInv n [] (fun i => ((({ i with ca := smPut [] i.ca g acc }).noteBad (colBad n live x) va).noteBad (colBad n live y) wb)))

/-- The address of the column of a matrix row at a position. -/
def Inv.rowColumn (n : Inv) : Nat := n.arg 0 + n.stride * (n.pos / n.columns) + 32 * (n.pos % n.columns)

/-- One column of a matrix row, entries 1 and 3; the last one writes y[r] (R344). -/
def State.rowTurn (s : State) (n : Inv) : Turn :=
  if n.rows * n.columns ≤ n.pos then .done s 0
  else
    let r := n.pos / n.columns
    let c := n.pos % n.columns
    let va := n.rowColumn
    let col := n.column va
    let live := liveElems n c
    let acc := macColumn (if c = 0 then List.replicate 16 0 else n.acc 0) (elemOf n live col)
      (fun l => if n.entry = 1 then n.xElem (16 * c + l) else fpOne)
    let s := if c + 1 = n.columns then s.dieWrite (localKey n.core (n.arg 2 - localBase + 4 * r)) (toBytes (treeFp acc) 4) else s
    .ok (s.advanceInv n [] (fun i => ({ i with ca := smPut [] i.ca 0 acc }).noteBad (colBad n live col) va))

/-- The result format of entries 2 and 4. -/
def Inv.outFmt (n : Inv) : Fmt := if n.fmt = 0 then .f16 else .bf16

/-- A product with one rounding into a format (R340, entry 4). -/
def scaleTo (f : Fmt) (a x : FVal) : Nat :=
  let (p, inv) := mulV a x
  (settle f [a, x] inv (match p with
    | .inf s => ⟨f.inf s, 0⟩
    | .num m => roundNum f 0 m
    | _ => quietRes f)).bits

/-- One column of entries 2, 4 and 6, written masked at the range's end (R345). -/
def State.writeTurn (s : State) (n : Inv) : Turn :=
  if n.columns ≤ n.pos then .done s 0
  else
    let o := 32 * n.pos
    let live := liveElems n n.pos
    let put (b : List Byte) (f : Inv → Inv) : Turn := .ok (s.advanceInv n (columnParts (n.arg 2 + o) b) f)
    if n.entry = 6 then put (toBytes 0 32) (fun i => i)
    else
      let alpha := Fmt.val .f32 n.alpha
      let x := n.column (n.arg 0 + o)
      if n.entry = 4 then
        put ((upTo live).flatMap (fun j => toBytes (scaleTo n.outFmt alpha (elemOf n live x j)) 2))
          (fun i => i.noteBad (colBad n live x) (n.arg 0 + o))
      else
        let y := n.column (n.arg 1 + o)
        put ((upTo live).flatMap (fun j => toBytes (fpFmaV n.outFmt 0 alpha (elemOf n live x j) (elemOf n live y j)).bits 2))
          (fun i => (i.noteBad (colBad n live x) (n.arg 0 + o)).noteBad (colBad n live y) (n.arg 1 + o))

/-- Entry 5: one push of the vault's engine (R345). -/
def State.copyTurn (s : State) (n : Inv) : Turn :=
  match n.push with
  | 0 =>
    if 32 ≤ (s.engineQueue (unitOf n.core) .push).length then .blocked false 0
    else
      let (id, s) := s.fresh
      let c : Cmd := { id := id, cls := .push, unit := unitOf n.core, opc := 0, core := n.core, ctx := n.ctx, agent := n.agent, name := n.name
                       tenant := n.tenant, job := n.job, launch := n.launch, user := n.user, tl := 4, num := n.id, seq := n.seq
                       flags := 4 * (n.arg 6 % 4), slots := [n.arg 0, n.arg 2, n.arg 5, n.n, 0].map (BitVec.ofNat 64), st := .queued
                       waited := 0, flip := 0, after := [], pos := 0, fault := none, work := [], ranges := [] }
      .ok ({ s with cmds := s.cmds ++ [c] }.mapInv n.id (fun i => { i with push := 1, last := s.time }))
  | 1 => .blocked false 0
  | _ =>
    match n.fault with
    | some l => .fail l.sub l.val.toNat
    | none => .done s 0

/-! ### Micro-programs -/

/-- A field without meaning, a flipped bit, or a forbidden combination: CSTORE (R352). -/
def microBad (n : Inv) (w : Nat) : Bool :=
  let op := bits w 105 102
  !microParity w || decide (5 ≤ bits w 119 117) || decide (10 ≤ op) || bits w 95 94 == 3 || bits w 89 1 != 0
    || ((op == 4 || op == 5) && !bitAt w 111) || (bitAt w 115 && bitAt w 111)
    || ((n.entry == 0 || n.entry == 3 || n.entry == 7) && bitAt w 111 && !(bits w 110 109 == 2 && inLocal (n.arg 2) 0))

/-- The lanes of 32 bytes in the word's format; a poisoned half gives poison (R335). -/
def microLane (f : Nat) (col : List Byte × Nat) (l : Nat) : FVal :=
  if bitAt col.2 (l / 8) then .poison else (if f = 0 then Fmt.f16 else Fmt.bf16).val (fieldAt col.1 (2 * l) 2)

/-- A column as it enters the datapath: zero beyond the operand's end, and a mark for each poisoned half with a byte before it (R335). -/
def Inv.entering (n : Inv) (c : Column) : List Byte × Nat :=
  let (b, x, y) := n.column c.va
  (b.take c.live ++ List.replicate (32 - c.live) 0, (x && decide (0 < c.live)).toNat + 2 * (y && decide (16 < c.live)).toNat)

/-- 32 bytes of the row latch: column c of x, zero beyond the end (R334, R352). -/
def Inv.latchRow (n : Inv) (c : Nat) : List Byte × Nat :=
  ((n.x.drop (32 * c)).take 32, (n.xbad.contains (2 * c)).toNat + 2 * (n.xbad.contains (2 * c + 1)).toNat)

/-- The accumulators after a micro-word's operation; `col` is the number of the column at rg (R352). DEDUCED, unsafe: log entry 88. -/
def Seqr.operate (q : Seqr) (n : Inv) (w col : Nat) : Seqr :=
  let f := bits w 95 94
  let ad := bits w 101 99
  let acc := q.ca.getD ad []
  let row := n.latchRow col
  let put (v : List Nat) : Seqr := { q with ca := q.ca.set ad v }
  let mac (y : List Byte × Nat) : Seqr :=
    put (if f = 2 then macInt 32 acc q.col.1 y.1 else macColumn acc (microLane f q.col) (microLane f y))
  match bits w 105 102 with
  | 1 => mac q.latch
  | 2 => mac row
  | 3 => put (if f = 2 then macInt 32 acc q.col.1 (List.replicate 32 1) else macColumn acc (microLane f q.col) (fun _ => fpOne))
  | 6 => put (List.replicate 16 0)
  | 7 => put (acc.set 0 (if f = 2 then treeInt (q.ca.getD (bits w 98 96) []) else treeFp (q.ca.getD (bits w 98 96) [])))
  | 8 => put (macInt 32 acc q.col.1 q.latch.1)
  | _ => q

/-- The 32 bytes that a micro-word writes (R352); of an INT8 write the spec states no layout and no conversion, and they are free values. DESIGN CHOICE, safe: log entry 89. -/
def Seqr.output (q : Seqr) (n : Inv) (w free : Nat) : List Byte :=
  let f := bits w 95 94
  let fm := if f = 0 then Fmt.f16 else Fmt.bf16
  let alpha := Fmt.val .f32 n.alpha
  if f = 2 then (upTo 4).flatMap (fun j => toBytes (Config.value (free + j)).toNat 8)
  else
    match bits w 105 102 with
    | 4 => (upTo 16).flatMap (fun l => toBytes (fpFmaV fm 0 alpha (microLane f q.latch l) (microLane f q.col l)).bits 2)
    | 5 => (upTo 16).flatMap (fun l => toBytes (scaleTo fm alpha (microLane f q.col l)) 2)
    | _ => (upTo 16).flatMap (fun l => toBytes (cvtV fm 0 (Fmt.val .f32 ((q.ca.getD (bits w 108 106) []).getD l 0))).bits 2)

/-- The next micro-address and loop counters (R352). -/
def Seqr.follow (q : Seqr) (w : Nat) (passed : Bool) : Seqr :=
  let target := bits w 127 120
  let lc := bits w 116 116
  let next := { q with pc := (q.pc + 1) % 256 }
  match bits w 119 117 with
  | 0 => next
  | 1 => { q with pc := target }
  | 2 =>
    let c := q.loops.getD lc 0 - 1
    let q' := { q with loops := q.loops.set lc c }
    if c = 0 then { q' with pc := (q.pc + 1) % 256 } else { q' with pc := target }
  | 3 => if passed then { q with pc := target } else next
  | _ => { q with ended := true }

/-- The columns of a generator of a sequencer. -/
def State.seqrCols (s : State) (n : Inv) (q : Seqr) (k : Nat) : List Column := s.genCols n.pages (s.invPieces n) q.g k

/-- The column that the next micro-word of a sequencer reads. -/
def State.microRead (s : State) (n : Inv) (q : Seqr) : Option Column :=
  let w := s.microAt n.vault q.pc
  let rg := bits w 114 113
  if microBad n w || !bitAt w 115 then none else (s.seqrCols n q rg)[q.gens.getD rg 0]?

/-- One micro-word of the first sequencer that has not ended; the results fold lowest cistern first (R344, R352). -/
def State.microTurn (s : State) (n : Inv) : Turn :=
  match n.seqs.find? (fun q => !q.ended) with
  | none => .done s (if n.fmt = 2 ∧ n.bad.isSome then 0x80000000 else n.result.getD 0)
  | some q =>
    let w := s.microAt n.vault q.pc
    if microBad n w then .fail 9 0
    else
      let rg := bits w 114 113
      let wg := bits w 110 109
      let cols := s.seqrCols n q rg
      let read := s.microRead n q
      let col := match read with | some c => n.entering c | none => q.col
      let q := { q with col := col, latch := if read.isSome && bitAt w 112 then col else q.latch }
      let wi := q.gens.getD wg 0
      let lane0 (q : Seqr) (r : Nat) : Nat := (q.ca.getD r []).getD 0 0
      let wr := bitAt w 111
      let atLocal := inLocal (n.arg 2) 0 && wg == 2
      let outs : List (Nat × List Byte) :=
        if !wr || atLocal then []
        else match (s.seqrCols n q wg)[wi]? with
          | some c => columnParts c.va ((q.output n w s.free).take c.live)
          | none => []
      let s := if wr && atLocal && inLocal (n.arg 2 + 4 * wi) 4 then
          s.dieWrite (localKey n.core (n.arg 2 - localBase + 4 * wi)) (toBytes (lane0 q (bits w 108 106)) 4) else s
      let s : State := if wr && bits w 95 94 == 2 then { s with free := s.free + 4 } else s
      let q := q.operate n w (((cols[q.gens.getD rg 0]?).map (·.no)).getD 0)
      let r := lane0 q (bits w 98 96)
      let result := if bits w 105 102 = 9 then
          some (match n.result with
            | none => r
            | some v => if bits w 95 94 = 2 then (v + r) % 2 ^ 32 else (fpAdd .f32 0 v r).bits)
        else n.result
      let adv := (upTo 4).map (fun k => q.gens.getD k 0 + (bits w (90 + k) (90 + k)))
      let q := ({ q with gens := adv }).follow w (decide (cols.length ≤ adv.getD rg 0))
      .ok (s.advanceInv n outs (fun i =>
        ({ i with seqs := i.seqs.map (fun (p : Seqr) => if p.g = q.g then q else p), result := result }).noteBad (read.isSome && col.2 != 0) (read.elim 0 (·.va))))

/-! ### The steps of a running invocation -/

/-- The sequencers run micro-words. -/
def Inv.programmed (n : Inv) : Bool := decide (8 ≤ n.entry) || !n.seqs.isEmpty

/-- The columns that the next step of an invocation reads, in their order (R344). -/
def State.invReads (s : State) (n : Inv) : List Nat :=
  if n.n = 0 then []
  else if n.programmed then
    match n.seqs.find? (fun q => !q.ended) with
    | some q => ((s.microRead n q).map (·.va)).toList
    | none => []
  else
    let at_ (k : Nat) : Nat := n.arg k + 32 * n.pos
    let more (l : List Nat) : List Nat := if n.columns ≤ n.pos then [] else l
    match n.entry with
    | 0 => more [at_ 0, at_ 1]
    | 7 => more [at_ 0, at_ 1]
    | 2 => more [at_ 0, at_ 1]
    | 4 => more [at_ 0]
    | 1 => if n.rows * n.columns ≤ n.pos then [] else [n.rowColumn]
    | 3 => if n.rows * n.columns ≤ n.pos then [] else [n.rowColumn]
    | _ => []

/-- The sectors that a column has still to read. -/
def Inv.unread (n : Inv) (va : Nat) : List Nat := [va, va + 16].filter (fun a => !n.got.any (fun e => e.1 == a))

/-- One part of a sector written at its home, in no fixed order (R345, R348). -/
def State.placePart (s : State) (n : Inv) (c : Nat) : Turn :=
  let e := n.outs.getD (c % n.outs.length) (0, [])
  let (pa, attr) := pageOf n.pages e.1
  match s.placePieces ⟨n.tenant, n.launch⟩ attr false [(pa, e.2)] with
  | some s => .ok (s.mapInv n.id (fun i => { i with outs := i.outs.eraseIdx (c % n.outs.length), since := 0, last := s.time }))
  | none => .blocked (s.heldByOther (pa / 128) n.launch) e.1

/-- The next step of a running invocation: a part of a sector written, a sector read, or a column step; c chooses between two sectors of a column. -/
def State.invTurn (s : State) (n : Inv) (c : Nat) : Turn :=
  if !n.outs.isEmpty then s.placePart n c
  else
    match (s.invReads n).find? (fun va => !(n.unread va).isEmpty) with
    | some va => .ok (s.invSector n ((n.unread va).getD (c % (n.unread va).length) va))
    | none =>
      if n.n = 0 then
        .done (if n.entry = 1 ∨ n.entry = 3 then
            (upTo n.rows).foldl (fun (s : State) r => s.dieWrite (localKey n.core (n.arg 2 - localBase + 4 * r)) (toBytes 0 4)) s
          else s) 0
      else if n.programmed then s.microTurn n
      else
        match n.entry with
        | 0 => s.dotTurn n
        | 7 => s.dotTurn n
        | 1 => s.rowTurn n
        | 3 => s.rowTurn n
        | 5 => s.copyTurn n
        | _ => s.writeTurn n

/-- A shipped entry has a flipped micro-word among those that it uses (R347, R411). -/
def State.flippedUse (s : State) (n : Inv) : Bool := !n.programmed && s.usesMicro n (fun _ w => !microParity w)

/-- The end of a step of an invocation; b = 1, its 1 ms of waiting is over (R260). -/
def State.invStep (s : State) (n : Inv) (b c : Nat) : State :=
  match s.invTurn n c with
  | .ok t => t
  | .done t d => t.invDone n d
  | .fail sub va => s.invFail n sub va
  | .blocked held va =>
    if b = 1 then s.invFail n 0x0B va
    else if held then s.mapInv n.id (fun i => { i with since := if i.since = 0 then s.time + 1 else i.since })
    else if va = 0 then s
    else s.noteStall (pageOf n.pages va).1

/-- CISTERN_INVOCATION_COMPLETION: a running invocation does its next step, and ends (R343 to R345, R348, R349).
A shipped entry that uses a flipped micro-word faults CSTORE at a step that is a free value. DESIGN CHOICE, safe: log entry 40.
Argument: a, the invocation; b = 1, its 1 ms of waiting at a held line is over (R260); c, which of two sectors comes first. -/
def execCisternInvocationCompletion (s : State) : Host.Outcome State Fault Refusal :=
  .next (
    match s.invs.find? (fun i => i.id == s.arg.a) with
    | none => s
    | some n =>
      if s.flippedUse n then
        if bitAt (Config.value s.free).toNat 0 then s.drawn.invFail n 9 0 else s.drawn.invStep n s.arg.b s.arg.c
      else s.invStep n s.arg.b s.arg.c)

/-! ### Resets of sequencers and vaults -/

/-- Invocations ended WATCHDOG (R405). -/
def State.watchInvs (s : State) (l : List Inv) : State := l.foldl (fun s n => s.invFail n 0x0A 0) s

/-- SEQ_RESET: the sequencer of a cistern is reset and the invocations that use it end WATCHDOG (R405).
Argument: a, the vault; b, the cistern. -/
def execSeqReset (s : State) : Host.Outcome State Fault Refusal :=
  let v := s.arg.a
  let g := s.arg.b
  let l := (s.vaultInvs v).filter (fun i => i.st == .running && bitAt i.set g)
  let tens := distinct (l.map (·.tenant))
  .next ((s.watchInvs l).raiseAll (256 + v)
    (fun t => StewEvent.msg t 0x15 g (l.filter (fun i => i.tenant == t)).length 0) tens)

/-- The live tenants of the cube. -/
def State.liveTenants (s : State) : List Nat := (s.tenants.filter (fun e => e.2.live)).map (·.1)

/-- VAULT_RESET: a vault controller is reset; its running invocations end WATCHDOG, its memory, journal and error registers stay, and unacknowledged requests come again (R406).
Argument: a, the vault. DESIGN CHOICE, safe: log entry 28. -/
def execVaultReset (s : State) : Host.Outcome State Fault Refusal :=
  let v := s.arg.a
  let ns := (Config.value s.free).toNat % 20001
  .next (((s.drawn).watchInvs ((s.vaultInvs v).filter (fun i => i.st == .running))).raiseAll (256 + v)
    (fun t => StewEvent.msg t 0x16 v ns 0) s.liveTenants)

/-- MESH_REQUEST_RESEND: a mesh request that has not been acknowledged within 25 µs is sent again; it is placed once, so nothing changes but the waiting (R406).
Argument: a, the request. -/
def execMeshRequestResend (s : State) : Host.Outcome State Fault Refusal := .next s

end Sys2Proof.Machine
end

