-- ==== Sys2Proof/Machine/Steal.lean ====
section
/-! DEFINITION. Stealing across cubes: `pq.steal`, steal requests and answers, reports and leases (R462 to R468). -/

namespace Sys2Proof.Machine

/-- A tenant's control page. -/
def State.page (s : State) (t : Nat) : HostPage := smGet HostPage.zero s.pages t

/-- The state with a control page replaced. -/
def State.setPage (s : State) (t : Nat) (p : HostPage) : State := { s with pages := smPut HostPage.zero s.pages t p }

/-- A slot reserved for a steal: a borrowed parcel that is not there yet (R463). -/
def State.reserveSlot (s : State) (t req launch : Nat) : State :=
  match (s.tile t).freeSlot with
  | none => s
  | some i =>
    let x := s.tile t
    let p : Parcel := { slot := i, e := 0, p := 0, st := .held req, order := 0, since := 0, owner := 0, borrowed := some ⟨0, 0, 0, 0, 0, 0⟩
                        launch := launch }
    s.setTile t { x with parcels := x.parcels ++ [p] }

/-- n slots reserved. -/
def State.reserveSlots (s : State) (t req launch : Nat) : Nat → State
  | 0 => s
  | n + 1 => (s.reserveSlot t req launch).reserveSlots t req launch n

/-- `pq.steal` (R463). -/
def execPqSteal (d a : Reg) (s : State) : Host.Outcome State Fault Refusal :=
  let i : Instr := .pqSteal d a
  let u : Use := ⟨[(a, false)], [], [d], []⟩
  let v := (s.val a).toNat
  let h : Word := BitVec.ofNat 64 (v % 2 ^ 32)
  let victim := bits v 44 32
  let t := tileOf s.cur.1
  .next (s.issueVal i u [a] (v / 2 ^ 45 ≠ 0 || (s.memberOf h).isNone)
    (match s.myOwner, s.memberOf h with
    | none, _ => s.noOwner
    | _, none => s
    | some id, some (g, _) =>
      let s := s.popAll u.srcs
      let n := min 32 (s.tile t).freeSlots
      if !g.multi || victim == s.cube then (s.later d 6).finish i
      else if n = 0 then (s.later d 0).finish i
      else
        let x := s.self
        let (req, s) := s.producer d
        let q := s.array t
        let s := s.reserveSlots t req id n
        let s := { s with reqs := s.reqs.map (fun (r : Req) => if r.id = req then { r with pa := victim, remote := true, sent := true } else r) }
        (s.sendTo victim 3 .stealRequest { EvArg.zero with a := s.cube, b := req, c := n, d := t, e := g.handle, words := [x.tenant, x.job, q.rows, q.cols].map (BitVec.ofNat 64) }).finish i))

/-- The STEALCFG entry of a group on this cube: mode and lease in ns (R462). -/
def State.stealRule (s : State) (tenant group : Nat) : Nat × Nat :=
  match (s.page tenant).steal.find? (fun e => e.2.toNat / 2 ^ 32 == group && group != 0) with
  | some (_, w) => (w.toNat % 4, if bits w.toNat 31 16 = 0 then 2000000 else bits w.toNat 31 16 * 32000)
  | none => (0, 2000000)

/-- The torus neighbours that firmware has recorded (R415). -/
def State.neighbours (s : State) : List Nat := (s.ports.filter (fun e => decide (e.1 < 6))).filterMap (fun e => e.2.peer)

/-- A cube lies in this cube's steal set for a group (R462). -/
def State.inStealSet (s : State) (g : Group) (thief : Nat) : Bool :=
  thief != s.cube && g.cubes.contains thief && ((s.stealRule g.tenant g.handle).1 == 1 || s.neighbours.contains thief)

/-- A parcel may be lent to a thief's tile of given rows and columns (R464). -/
def State.eligible (s : State) (tenant job rows cols : Nat) (p : Parcel) : Bool :=
  p.queued && p.stealable && p.borrowed.isNone
    && (s.launch p.launch).any (fun l => l.tenant == tenant && l.job == job)
    && decide (minSize (bits p.p.toNat 29 27) ≤ cols) && decide (minSize (bits p.p.toNat 26 24) ≤ rows)

/-- The most recently QUEUED parcel of a list of tiles and parcels; ties go to the higher tile (R464). -/
def newest : List (Nat × Parcel) → Option (Nat × Parcel)
  | [] => none
  | x :: l => some (l.foldl (fun a b =>
      if a.2.since < b.2.since ∨ (a.2.since = b.2.since ∧ (a.1 < b.1 ∨ (a.1 = b.1 ∧ a.2.order < b.2.order))) then b else a) x)

/-- A parcel is LENT with the next lend number and expiry; the words of the answer (R464). -/
def State.lend (s : State) (t : Nat) (p : Parcel) (thief tile lease : Nat) : List Word × State :=
  let key := 256 * t + p.slot
  let n := (smGet 0 s.lends key + 1) % 256
  let due := max (s.time + lease) (s.expiry + 1)
  let lid := ((s.launch p.launch).map (·.lid)).getD 0
  let s := { s with lends := smPut 0 s.lends key n, expiry := due }
  ([p.e, p.word, BitVec.ofNat 64 n, BitVec.ofNat 64 due, BitVec.ofNat 64 key, BitVec.ofNat 64 lid],
   s.mapParcel t p.slot (fun p => { p with st := .lent thief tile n due }))

/-- At most k parcels lent, in the order of choice (R464). -/
def State.lendMany (s : State) (elig : State → List (Nat × Parcel)) (thief tile lease : Nat) : Nat → List Word × State
  | 0 => ([], s)
  | k + 1 =>
    match newest (elig s) with
    | none => ([], s)
    | some (t, p) =>
      let (w, s) := s.lend t p thief tile lease
      let (ws, s) := s.lendMany elig thief tile lease k
      (w ++ ws, s)

/-- STEAL_REQUEST: a victim answers a steal request and lends parcels (R464).
Argument: a, the thief's cube; b, its request; c, n; d, its tile; e, the group; words, tenant, job, rows and columns. -/
def execStealRequest (s : State) : Host.Outcome State Fault Refusal :=
  let g := s.arg
  let word (i : Nat) : Nat := (g.words.getD i 0).toNat
  let tenant := word 0
  let job := word 1
  let answer (s : State) (st k : Nat) (ws : List Word) : State :=
    s.sendTo g.a 3 .stealAnswer { EvArg.zero with a := g.b, b := s.cube, c := st, d := k, words := ws }
  .next (
    if s.cancelled tenant job then answer s 4 0 []
    else
      match s.group tenant g.e with
      | none => answer s 6 0 []
      | some q =>
        if !(q.multi && q.flagged 0 q.rank && s.inStealSet q g.a) then answer s 6 0 []
        else
          let elig (s : State) : List (Nat × Parcel) := s.tiles.flatMap (fun e =>
            (e.2.parcels.filter (s.eligible tenant job (word 2) (word 3))).map (fun p => (e.1, p)))
          let n := (elig s).length
          let k := min g.c ((n + 1) / 2)
          let (ws, s) := s.lendMany elig g.a g.d (s.stealRule tenant g.e).2 k
          answer s 0 k ws)

/-- A borrowed parcel put into a reserved slot, QUEUED (R463, R465). -/
def State.placeBorrowed (s : State) (t req cube : Nat) (ws : List Word) : State :=
  match (s.tile t).parcels.find? (fun p => p.st == .held req) with
  | none => s
  | some q =>
    let w (i : Nat) : Nat := (ws.getD i 0).toNat
    let p : Parcel := { slot := q.slot, e := ws.getD 0 0, p := ws.getD 1 0, st := .queued, order := s.nid, since := s.cycle, owner := cube
                        borrowed := some ⟨cube, w 5, w 4 / 256, w 4 % 256, w 2, w 3⟩, launch := q.launch }
    let x := s.tile t
    { s with nid := s.nid + 1 }.setTile t { x with parcels := x.parcels.filter (fun (r : Parcel) => r.slot ≠ q.slot) ++ [p] }

/-- STEAL_ANSWER: the thief places borrowed parcels, frees the other reserved slots and writes the status (R463).
Argument: a, the request; b, the victim's cube; c, the status; d, k; words, six for each parcel. A lost victim answers 2 (R423). -/
def execStealAnswer (s : State) : Host.Outcome State Fault Refusal :=
  let g := s.arg
  .next (
    let live := s.reqs.any (fun r => r.id == g.a)
    let t := (s.tiles.find? (fun e => e.2.parcels.any (fun p => p.st == .held g.a))).map (·.1)
    match t with
    | none => s.answer g.a (BitVec.ofNat 64 g.c)
    | some t =>
      let s := if live then (upTo g.d).foldl (fun s i => s.placeBorrowed t g.a g.b (g.words.drop (6 * i))) s else s
      let x := s.tile t
      let s := s.setTile t { x with parcels := x.parcels.filter (fun p => p.st ≠ .held g.a) }
      s.answer g.a (BitVec.ofNat 64 (g.c + g.d * 256)))

/-- The LENT parcel that a report matches (R466). -/
def State.lentMatch (s : State) (key lend due lid tenant : Nat) : Option Parcel :=
  (s.tile (key / 256)).parcels.find? (fun p => p.slot == key % 256
    && (match p.st with
        | .lent _ _ n d => n == lend && d == due
        | _ => false)
    && (s.launch p.launch).any (fun l => l.lid == lid && l.tenant == tenant))

/-- A LENT parcel is QUEUED again in its slot, and its lend number rises (R465). -/
def State.reclaim (s : State) (key : Nat) : State :=
  { s with lends := smPut 0 s.lends key ((smGet 0 s.lends key + 1) % 256) }.mapParcel (key / 256) (key % 256)
    (fun p => { p with st := .queued, since := s.cycle })

/-- DONE_REPORT: a report that matches the current lend completes the parcel; another is ignored and counted (R465, R466).
Argument: b, 256 × tile + slot; c, the lend number; d, the expiry; e, the launch id; words, tenant and job. -/
def execDoneReport (s : State) : Host.Outcome State Fault Refusal :=
  let g := s.arg
  let tenant := (g.words.getD 0 0).toNat
  .next (
    if s.cancelled tenant (g.words.getD 1 0).toNat then { s with fwTraps := s.fwTraps + 1 }
    else
      match s.lentMatch g.b g.c g.d g.e tenant with
      | none => { s with fwTraps := s.fwTraps + 1 }
      | some p => (s.dropParcel (g.b / 256) (g.b % 256)).mapLaunch p.launch (fun l => { l with done := l.done + 1 }))

/-- RETURN_REPORT: a report that matches the current lend makes the parcel QUEUED again (R465, R466).
Argument: as DONE_REPORT. -/
def execReturnReport (s : State) : Host.Outcome State Fault Refusal :=
  let g := s.arg
  let tenant := (g.words.getD 0 0).toNat
  .next (
    if s.cancelled tenant (g.words.getD 1 0).toNat then { s with fwTraps := s.fwTraps + 1 }
    else
      match s.lentMatch g.b g.c g.d g.e tenant with
      | none => { s with fwTraps := s.fwTraps + 1 }
      | some _ => s.reclaim g.b)

/-- LEASE_EXPIRY: a LENT parcel whose expiry has come is QUEUED again (R465).
Argument: a, the tile; b, the slot. -/
def execLeaseExpiry (s : State) : Host.Outcome State Fault Refusal :=
  .next (
    match (s.tile s.arg.a).parcels.find? (fun p => p.slot == s.arg.b) with
    | none => s
    | some p =>
      match p.st with
      | .lent _ _ _ due => if due ≤ s.time then s.reclaim (256 * s.arg.a + s.arg.b) else s
      | _ => s)

/-- BORROWED_EXPIRY: at the thief, an expired QUEUED borrowed parcel is dropped (R465).
Argument: a, the tile; b, the slot. -/
def execBorrowedExpiry (s : State) : Host.Outcome State Fault Refusal :=
  .next (
    match (s.tile s.arg.a).parcels.find? (fun p => p.slot == s.arg.b) with
    | none => s
    | some p => if p.queued && p.borrowed.any (fun l => decide (l.due ≤ s.time)) then s.dropParcel s.arg.a s.arg.b else s)

end Sys2Proof.Machine
end

