-- ==== Sys2Proof/Machine/Steward.lean ====
section
/-! DEFINITION. The steward context: its event queue, the steward commands with pre-emption, timers, watchdogs, groups and counters, and the events that the cube raises (R368 to R378, R432). -/

namespace Sys2Proof.Machine

/-! ### The event queue -/

/-- The head leaves a core's event queue, and the event that has waited longest takes the free entry (R368). -/
def CoreSt.dequeue (c : CoreSt) : CoreSt :=
  { c with queue := c.queue.tail ++ c.waiting.take 1, waiting := c.waiting.drop 1 }

/-- The steward's registers at the entry of a tenant event (R118, R368): cleared when the tenant changes; an event without payload leaves s3 to s9. -/
def Ctx.stewardEntry (x : Ctx) (name : Nat) (cleared : Bool) (e : StewEvent) (tvec : Word) (now : Nat) : Ctx :=
  let x := if cleared then Ctx.free else x
  let w (j : Nat) : Word := e.words.getD j 0
  let x := if e.words.isEmpty then x else ((upTo 6).foldl (fun (x : Ctx) j => x.write (3 + j) (w (j + 1))) x).write 9 (w 0)
  let late := decide (0x10 ≤ e.cause ∧ e.cause ≤ 0x13)
  { x with
    occ := true, name := name, tenant := e.tenant, priv := .supervisor, pc := tvec + 0x80
    tcause := BitVec.ofNat 64 (e.cause + late.toNat * 256 + e.orphan.toNat * 512), tval := e.val, tsub := BitVec.ofNat 64 e.sub
    tseq := if e.orphan then BitVec.ofNat 64 e.seq else x.tseq
    park := none, entering := true, memo := [], issued := now }

/-- The idle steward of a core takes the head event: a firmware command waits for its handler, a tenant event enters the tenant's handler, or is dropped and counted when the tenant has none (R361, R368). -/
def State.stewardTake (s : State) (core : Nat) : State :=
  let c := s.core core
  match c.queue with
  | [] => s
  | e :: _ =>
    let tvec := (s.tenant e.tenant).tvec
    let s := s.setCore core { c.dequeue with event := some e, prevTen := if e.fw || tvec == 0 then c.prevTen else some e.tenant }
    if e.fw then s
    else if tvec = 0 then { endEvent s core with fwTraps := s.fwTraps + 1 }
    else
      let k := ctxKey core 8
      s.setCtx k ((s.ctx k).stewardEntry (stewardName s.cube core) (decide (c.prevTen ≠ some e.tenant)) e tvec s.cycle)

/-- STEWARD_EVENT (R368).
Argument: a, the core. DESIGN CHOICE, unsafe: log entry 57. -/
def execStewardEvent (s : State) : Host.Outcome State Fault Refusal := .next (s.stewardTake s.arg.a)

/-- MESSAGE: the command with index 0 is taken as an event of the tenant's handler, with cause SUPERVISOR-MESSAGE and subcode 0 (R369).
Argument: a, the core. -/
def execMessage (s : State) : Host.Outcome State Fault Refusal := .next (s.stewardTake s.arg.a)

/-- The firmware command of an index that a core's steward is working on (R369). -/
def State.fwCmd (s : State) (core cmd : Nat) : Option StewEvent :=
  match (s.core core).event with
  | some e => if e.fw && e.cmd == cmd then some e else none
  | none => none

/-- Payload word j of a command. -/
def StewEvent.word (e : StewEvent) (j : Nat) : Nat := (e.words.getD j 0).toNat

/-- A command ends without a reply. -/
def State.fwEnd (s : State) (core : Nat) : State := s.setCore core { s.core core with event := none }

/-- A command ends with a result, sent to the reply endpoint in a payload word (R369). DESIGN CHOICE, unsafe: log entry 25. -/
def State.fwReply (s : State) (core : Nat) (e : StewEvent) (j result : Nat) : State :=
  (s.reply core e.tenant (e.word j) (e.words.getD 1 0) result).fwEnd core

/-- A command's scratch: 0 at first. -/
def State.fwNote (s : State) (core n : Nat) : State :=
  let c := s.core core
  s.setCore core { c with event := c.event.map (fun (e : StewEvent) => { e with seq := n }) }

/-- So many nanoseconds have gone by since a core cycle, at 1.2 GHz. -/
def State.elapsed (s : State) (since ns : Nat) : Bool := decide (6 * ns ≤ 5 * (s.cycle - since))

/-! ### Pre-emption -/

/-- Whom PREEMPT finds (R371). -/
inductive Victim where
  | refused (result : Nat)
  | spilled (t : Stored)
  | ctx (k : Nat)

/-- The victim of a name on a core, for a tenant (R371). -/
def State.victim (s : State) (core tenant name : Nat) : Victim :=
  if isStewardEnd name then .refused 6
  else
    match s.residentNamed core name with
    | some k =>
      let x := s.ctx k
      if x.tenant ≠ tenant || x.home.isSome || chainOn x then .refused 6
      else if x.ending then .refused 2
      else .ctx k
    | none =>
      match s.spilledNamed core name with
      | none => .refused 2
      | some t => if t.ctx.tenant ≠ tenant then .refused 6 else if t.held then .refused 5 else .spilled t

/-- A thread stands at an instruction boundary, or at a parked instruction that it can leave (R372). -/
def State.mayStop (s : State) (k : Nat) : Bool :=
  let x := s.ctx k
  x.park != some .reloc && !s.semTaken k && x.memo.headD 0 != 11

/-- A stopped thread's partner vector accesses, started vector work and reserved `pin` entries are done (R372). -/
def State.preemptDrained (s : State) (k : Nat) : Bool :=
  let x := s.ctx k
  !s.reqs.any (fun r => r.agent == x.uid && (r.pv || (match r.dest with
    | .vec _ _ _ _ => true
    | _ => false)))
    && !s.vops.any (fun o => o.agent == x.uid && o.out.isSome)
    && (s.pinQ k).all (·.filled)

/-- The lowest free pair of spill slots (R372). -/
def State.freePair (s : State) (core : Nat) : Option Nat :=
  let free := s.freeSlots core
  ((upTo 12).find? (fun k => free.contains (2 * k) && free.contains (2 * k + 1))).map (2 * ·)

/-- The parts of the save record that hold `pin` entries (R374). -/
def pinParts (q : List QEnt) : List (Nat × List Byte) :=
  if q.isEmpty then []
  else
    let marks := packBits (fun i => if (q[i]?.map (·.poison)).getD false then 1 else 0) 1 (upTo q.length)
    [(0x11E0, toBytes (q.length + marks * 2 ^ 32) 8), (0x11E8, q.flatMap (fun e => toBytes e.val.toNat 8))]

/-- What a held thread remembers of its parked instruction: an arrival in a barrier, the group it waits for, or that its group is gone (R369, R372, R376). -/
def Ctx.heldMemo (x : Ctx) : List Nat :=
  if x.memo.headD 0 = 5 ∨ x.memo.headD 0 = 6 then x.memo
  else
    match x.park with
    | some (.gen _ h _) => [9, h]
    | _ => []

/-- The end of a save of a thread in its frame. -/
inductive Held where
  | done (s : State)
  | killed (s : State)
  | wait (s : State)

/-- Steps 4 to 6 of R372: the frame, the `pin` entries, and the release of the context. -/
def State.saveFrame (s : State) (k slot : Nat) : Held :=
  let core := k / 16
  let x := s.ctx k
  let pins := s.pinQ k
  let hold (s : State) : State :=
    let s := s.writeOutAll x.uid
    let s := s.dieWrite (localKey core (slotOff slot)) (x.frameBytes core x.parkedOn)
    let t : Stored := { core := core, goal := core, slot := slot, frame := true, held := true, ready := false, reg := x.parkedOn, ret := false
                        recOf := k, msgs := [], pins := pins.length, vops := s.unstarted x.uid, rep := s.rewound k x.uid
                        ctx := { x with regs := [], park := none, memo := x.heldMemo, stopped := none } }
    let b := s.vbank k
    let s := if kindOf core == .e && b.tag.isNone then s.setVbank k { b with tag := some x.uid } else s
    let tile := tileOf core
    let a := s.array tile
    let s := s.setArray tile { a with waiting := a.waiting.filter (· ≠ x.uid) }
    let back := (s.vops.filter (fun o => o.agent == x.uid && o.isPass && o.out.isNone)).map (·.seq)
    let c := s.core core
    let s := s.setCore core { c with ring := c.ring.filter (fun r => !(r.agent == x.uid && r.kind == 4 && back.contains r.seq)) }
    ({ s with stored := s.stored ++ [t], vops := s.vops.filter (fun o => o.agent ≠ x.uid), reps := s.reps.filter (fun r => r.key ≠ k) }.setPinQ k []).setCtx
      k x.freed
  if pins.isEmpty then .done (hold s)
  else
    match s.recordAt x.tenant core (k % 16) true with
    | .fault _ _ => .killed ((s.killCtx k).raise core (StewEvent.msg x.tenant 0x02 x.name 0 0))
    | .wait pa => .wait (s.ask pa 8)
    | .ok pa attr =>
      match s.putParts ⟨x.tenant, 0⟩ pa attr (pinParts pins) with
      | none => .wait (s.partsWait pa (pinParts pins))
      | some s => .done (hold s)

/-- PREEMPT (R371, R372): refused, or the victim stops, drains, and goes to a frame; it waits while no pair of slots is free. A `sem.wait` that is taken before the drain is over ends first.
Argument: a, the core; far and bytes, what other cubes have answered. -/
def execPreempt (s : State) : Host.Outcome State Fault Refusal :=
  let core := s.arg.a
  .next (
    match s.fwCmd core 1 with
    | none => s
    | some e =>
      match s.victim core e.tenant (e.word 1 % 2 ^ 32) with
      | .refused r => s.fwReply core e 2 r
      | .spilled t => (s.mapStored t.ctx.uid (fun (t : Stored) => { t with held := true })).fwReply core e 2 0
      | .ctx k =>
        let x := s.ctx k
        if x.stopped.isNone then if s.mayStop k then s.setCtx k { x with stopped := some s.cycle } else s
        else if s.semTaken k then s.setCtx k { x with stopped := none }
        else if !s.preemptDrained k then s
        else
          let s := (s.suspendInvs x.uid).leaveSems k
          match s.freePair core with
          | none => if e.seq = 0 then s.fwNote core (s.cycle + 1) else s
          | some slot =>
            match s.saveFrame k slot with
            | .done s => s.fwReply core e 2 0
            | .killed s => s.fwReply core e 2 2
            | .wait s => s)

/-- PREEMPT_GIVE_UP: 100 µs without a free pair of slots; the victim issues again (R372).
Argument: a, the core. -/
def execPreemptGiveUp (s : State) : Host.Outcome State Fault Refusal :=
  let core := s.arg.a
  .next (
    match s.fwCmd core 1 with
    | none => s
    | some e =>
      match s.victim core e.tenant (e.word 1 % 2 ^ 32) with
      | .ctx k =>
        if e.seq = 0 ∨ !s.elapsed (e.seq - 1) 100000 ∨ (s.freePair core).isSome then s
        else
          let x := s.ctx k
          ((s.setCtx k { x with stopped := none }).resumeInvs x.uid).fwReply core e 2 1
      | _ => s)

/-- A request template of a thread that its context no longer holds. -/
def Stored.template (t : Stored) (s : State) (attr : Nat) : Req :=
  { s.template with core := t.core, ctx := t.recOf % 16, agent := t.ctx.uid, tenant := t.ctx.tenant, launch := t.ctx.launch, attr := attr }

/-- The thread owns slots of a mailbox (R130). -/
def State.ownsSlots (s : State) (x : Ctx) : Bool :=
  x.act.any (fun a => (s.counter a.counter).ring.any (fun r => r.1 == a.aid && !r.2))

/-- A thread's ring entries have room in another core's ring (R186). -/
def State.ringFits (s : State) (core goal uid : Nat) : Bool :=
  decide ((s.core goal).ring.length + ((s.core core).ring.filter (fun r => r.agent == uid)).length ≤ 64)

/-- A held thread goes over to another core: its ring entries, a stub, and its directory entry; its commands stay with the core that issued them (R135, R279, R280, R377). -/
def State.changeCore (s : State) (t : Stored) (goal : Nat) : State :=
  let u := t.ctx.uid
  let old := s.core t.goal
  let mine := old.ring.filter (fun r => r.agent == u)
  let s := s.setCore t.goal { old with ring := old.ring.filter (fun r => r.agent ≠ u) }
  let new := s.core goal
  let s := s.setCore goal { new with ring := new.ring ++ mine }
  let s := if goal < 256 then s.mapLaunch t.ctx.launch (fun l => { l with visited := distinct (l.visited ++ [tileOf goal]) }) else s
  let s := (s.takeStub t.goal t.ctx.name s.cube goal).enterDir t.ctx.tenant t.ctx.name s.cube goal
  s.mapStored u (fun (t : Stored) => { t with goal := goal })

/-- RESUME (R377): refused, or the held thread becomes ready; on another core after a release at domain scope on the old core and an acquire on the new one, and once its vector state is in its record.
Argument: a, the core. -/
def execResume (s : State) : Host.Outcome State Fault Refusal :=
  let core := s.arg.a
  .next (
    match s.fwCmd core 2 with
    | none => s
    | some e =>
      let name := e.word 1 % 2 ^ 32
      let goal := if e.word 2 = 2 ^ 64 - 1 then core else e.word 2
      match s.spilledNamed core name with
      | none => s.fwReply core e 3 (match s.heldNamed core name with
        | none => 2
        | some t => if t = e.tenant then 5 else 6)
      | some t =>
        let u := t.ctx.uid
        let ready (s : State) : State := (s.mapStored u (fun (t : Stored) => { t with held := false, ready := true })).fwReply core e 3 0
        if t.ctx.tenant ≠ e.tenant ∨ 320 ≤ goal ∨ kindOf goal ≠ kindOf core then s.fwReply core e 3 6
        else if goal ≠ core ∧ (s.ownsArray core u || s.ownsSlots t.ctx) then s.fwReply core e 3 6
        else if !t.held then s.fwReply core e 3 5
        else if goal = core then ready s
        else if e.seq = 0 then
          let s := if kindOf core = .a then s.writeBackTile (t.template s 0) (tileOf core) else s
          s.fwNote core 1
        else if s.relReqs u core 2 ≠ [] || s.vbanks.any (fun b => b.2.tag == some u) || !s.ringFits core goal u then s
        else
          let s := if kindOf goal = .a then s.acquireTile (tileOf goal) else s
          ready (s.changeCore t goal))

/-! ### Timers and watchdogs -/

/-- TIMER: sets or cancels the tenant's compare on the core (R369).
Argument: a, the core. -/
def execTimer (s : State) : Host.Outcome State Fault Refusal :=
  let core := s.arg.a
  .next (
    match s.fwCmd core 3 with
    | none => s
    | some e =>
      let c := s.core core
      (s.setCore core { c with compare := smPut 0 c.compare e.tenant (e.word 1) }).fwEnd core)

/-- TIMER_EXPIRY: `time` has reached the compare, which then reads 0 (R370).
Argument: a, the core; b, the tenant. DESIGN CHOICE, unsafe: log entry 24. -/
def execTimerExpiry (s : State) : Host.Outcome State Fault Refusal :=
  let c := s.core s.arg.a
  let v := smGet 0 c.compare s.arg.b
  .next (
    if v = 0 ∨ s.time < v then s
    else (s.setCore s.arg.a { c with compare := smPut 0 c.compare s.arg.b 0 }).raise s.arg.a (StewEvent.of s.arg.b 0x21 0 v))

/-- WATCHDOG: sets or disables the tenant's limit on the core (R369).
Argument: a, the core. -/
def execWatchdog (s : State) : Host.Outcome State Fault Refusal :=
  let core := s.arg.a
  .next (
    match s.fwCmd core 4 with
    | none => s
    | some e =>
      let c := s.core core
      (s.setCore core { c with limit := smPut 0 c.limit e.tenant (e.word 1) }).fwEnd core)

/-- A user context (0 to 7) has not issued for its tenant's limit (R370). -/
def State.watchdogDue (s : State) (k : Nat) : Bool :=
  let x := s.ctx k
  let n := smGet 0 (s.core (k / 16)).limit x.tenant
  x.occ && k % 16 != 8 && !x.barked && n != 0 && x.park != some .away && s.elapsed x.issued n

/-- WATCHDOG_EXPIRY: once for each parking (R370).
Argument: a, the context's key. -/
def execWatchdogExpiry (s : State) : Host.Outcome State Fault Refusal :=
  let k := s.arg.a
  let x := s.ctx k
  .next (if s.watchdogDue k then (s.setCtx k { x with barked := true }).raise (k / 16) (StewEvent.of x.tenant 0x22 0 x.name) else s)

/-! ### Groups -/

/-- A result of a group or counter command, which has no reply endpoint among its payload words: it leaves the cube under the sender's name. -/
def State.groupResult (s : State) (op : Instr) (src handle result : Nat) : State :=
  s.sendOut op { EvArg.zero with a := src, b := handle, c := result }

/-- What a read of a tenant's bytes that may cross pages gives. -/
inductive VRead where
  | ok (b : List Byte) (far : List Byte) (s : State)
  | fault
  | wait (s : State)

/-- n bytes at a tenant's virtual address, in pieces up to 4 KiB boundaries; those of other cubes come in order in `far`. -/
def State.readVirt (s : State) (tenant va n : Nat) (far : List Byte) : Nat → VRead
  | 0 => .ok [] far s
  | fuel + 1 =>
    if n = 0 then .ok [] far s
    else
      let m := min n (4096 - va % 4096)
      match s.xlate tenant va false false with
      | .fault _ _ => .fault
      | .wait pa => .wait (s.ask pa 8)
      | .ok pa _ =>
        let go (b : List Byte) (rest : List Byte) (s : State) : VRead :=
          match s.readVirt tenant (va + m) (n - m) rest fuel with
          | .ok c far s => .ok (b ++ c) far s
          | r => r
        if s.isRemote pa then
          if m ≤ far.length then if s.arg.e = 1 then .fault else go (far.take m) (far.drop m) s
          else if s.lost.contains (s.homeCube pa) then .fault
          else .wait (s.ask pa m)
        else
          let (xs, s) := s.readPieces 0 (pieces pa (m + 1) (List.replicate m 0))
          if xs.any (·.2) then .fault else go (xs.flatMap (·.1)) far s

/-- The cube numbers of a member list, two bytes each (R432). -/
def cubeNumbers : List Byte → List Nat
  | a :: b :: r => (a.toNat + 256 * b.toNat) :: cubeNumbers r
  | _ => []

/-- What the creating cubes compare: the parameters and the member list (R432). -/
def Group.digest (g : Group) : List Word := ([g.t, g.l, g.m] ++ g.cubes).map (BitVec.ofNat 64)

/-- The subtree of a child's rank has created the group (R432). -/
def Group.subtreeIn (g : Group) (rank : Nat) : Group :=
  { g with cubesIn := (upTo (nodeEnd rank g.cubes.length - rank)).foldl (fun m i => smPut 0 m (rank + i) 1) g.cubesIn }

/-- The group's node of a creation passes a full set on, up the tree (R432, R433). -/
def State.creationForward (s : State) (g : Group) : State :=
  if !g.nodeFull || g.rank = 0 then s
  else s.sendTo (g.cubes.getD (parentRank g.rank) 0) 3 .groupLive { EvArg.zero with a := g.tenant, b := g.handle, d := 1, e := g.rank, words := g.digest }

/-- A group with the parameters of a command: zero words 2 and 3 give the defaults (R157, R369). DESIGN CHOICE, unsafe: log entry 29. -/
def StewEvent.newGroup (e : StewEvent) : Group :=
  let g := Machine.newGroup e.tenant (e.word 1 % 2 ^ 32)
  if e.word 2 = 0 ∧ e.word 3 = 0 then g else { g with t := e.word 2, l := bits (e.word 3) 4 0, m := bits (e.word 3) 12 8 }

/-- GROUP-CREATE (R369, R432): a group of this cube is made at once, one over cubes after its member list is checked.
Argument: a, the core; far and bytes, what other cubes have answered. DESIGN CHOICE, unsafe: log entry 30. -/
def execGroupCreate (s : State) : Host.Outcome State Fault Refusal :=
  let core := s.arg.a
  .next (
    match s.fwCmd core 5 with
    | none => s
    | some e =>
      let g := e.newGroup
      let fin (s : State) (r : Nat) : State := (s.groupResult .groupCreate e.src g.handle r).fwEnd core
      if (s.anyGroup g.tenant g.handle).isSome then fin s 5
      else if 1024 ≤ s.groupCount g.tenant then fin s 6
      else if !bitAt (e.word 4) 63 then fin { s with groups := s.groups ++ [g] } 0
      else
        let rank := e.word 4 % 2 ^ 13
        let n := e.word 5
        if bits (e.word 4) 62 13 ≠ 0 ∨ n < 2 ∨ 8192 < n ∨ n ≤ rank then fin s 6
        else
          match s.readVirt g.tenant (e.word 6) (2 * n) s.arg.bytes 8 with
          | .fault => fin s 6
          | .wait s => s
          | .ok b _ s =>
            let cubes := cubeNumbers b
            if cubes.getD rank 0 ≠ s.cube ∨ (distinct cubes).length ≠ n then fin s 6
            else
              let g := { g with cubes := cubes, rank := rank, live := false, since := s.time, replies := [e.src], cubesIn := smPut 0 [] rank 1 }
              let same (b : Birth) : Bool := b.tenant == g.tenant && b.handle == g.handle
              let g := (s.births.filter (fun b => same b && decide (s.time < b.since + 10000000) && b.digest == g.digest)).foldl (fun g b => g.subtreeIn b.rank) g
              ({ s with groups := s.groups ++ [g], births := s.births.filter (fun b => !same b) }.creationForward g).fwEnd core)

/-- GROUP_LIVE (R432): a subtree has created the group with an identical list, or the root makes the group live down the tree.
Argument: a, the tenant; b, the handle; d = 1, from below, with the child's rank in e and its digest in words; d = 2, from above; else the root's own step. -/
def execGroupLive (s : State) : Host.Outcome State Fault Refusal :=
  let h := s.arg
  .next (
    match s.anyGroup h.a h.b with
    | none => if h.d = 1 then { s with births := s.births ++ [⟨h.a, h.b, h.e, s.time, h.words⟩] } else s
    | some g =>
      if g.live || !g.multi then s
      else if h.d = 1 then
        if h.words ≠ g.digest then s
        else
          let g' := g.subtreeIn h.e
          (s.mapGroup h.a h.b (fun _ => g')).creationForward g'
      else if h.d = 2 || (g.rank == 0 && g.nodeFull) then
        let s := s.mapGroup h.a h.b (fun g => { g with live := true, replies := [], cubesIn := [] })
        let s := (childRanks g.rank g.cubes.length).foldl (fun s r =>
          s.sendTo (g.cubes.getD r 0) 3 .groupLive { EvArg.zero with a := h.a, b := h.b, d := 2 }) s
        g.replies.foldl (fun s src => s.groupResult .groupCreate src h.b 0) s
      else s)

/-- GROUP_CREATE_TIMEOUT: a group over cubes that is not live within 10 ms is discarded, and the replies are 2 (R432).
Argument: a, the tenant; b, the handle. -/
def execGroupCreateTimeout (s : State) : Host.Outcome State Fault Refusal :=
  let h := s.arg
  .next (
    match s.anyGroup h.a h.b with
    | none => s
    | some g =>
      if g.live || s.time < g.since + 10000000 then s
      else g.replies.foldl (fun s src => s.groupResult .groupCreate src h.b 2) (s.dissolve h.a h.b))

/-- A group dissolved on this cube, and in class C on the other member cubes when it began here (R369, R432). -/
def State.dissolveAll (s : State) (g : Group) (tell : Bool) : State :=
  let s := s.dissolve g.tenant g.handle
  if !tell then s
  else (g.cubes.filter (· ≠ s.cube)).foldl (fun s c => s.sendTo c 3 .groupDissolve { EvArg.zero with b := 1, c := g.tenant, d := g.handle }) s

/-- GROUP-DISSOLVE (R369, R432).
Argument: a, the core; or b = 1, another member cube dissolves group d of tenant c. -/
def execGroupDissolve (s : State) : Host.Outcome State Fault Refusal :=
  let h := s.arg
  .next (
    if h.b = 1 then
      match s.anyGroup h.c h.d with
      | none => s
      | some g => s.dissolveAll g false
    else
      match s.fwCmd h.a 6 with
      | none => s
      | some e =>
        let handle := e.word 1 % 2 ^ 32
        match s.group e.tenant handle with
        | none => (s.groupResult .groupDissolve e.src handle 2).fwEnd h.a
        | some g => ((s.dissolveAll g true).groupResult .groupDissolve e.src handle 0).fwEnd h.a)

/-! ### Counters and parcels -/

/-- COUNTER-CLAIM: an ungranted counter is granted to the tenant, with result 0; a granted one, and counter 63, give 6 (R369). The command has no reply endpoint among its payload words: like a group command's, its result leaves under the sender's name.
Argument: a, the core. -/
def execCounterClaim (s : State) : Host.Outcome State Fault Refusal :=
  let core := s.arg.a
  .next (
    match s.fwCmd core 7 with
    | none => s
    | some e =>
      let k := ctrKey (e.word 1) (e.word 2)
      if 320 ≤ e.word 1 ∨ 63 ≤ e.word 2 ∨ (s.counter k).owner.isSome then (s.groupResult .counterClaim e.src k 6).fwEnd core
      else ((s.setCounter k { s.counter k with owner := some e.tenant }).groupResult .counterClaim e.src k 0).fwEnd core)

/-- COUNTER-RELEASE: the counter is masked and emptied, and ungranted once its running activations have ended (R369).
Argument: a, the core. -/
def execCounterRelease (s : State) : Host.Outcome State Fault Refusal :=
  let core := s.arg.a
  .next (
    match s.fwCmd core 8 with
    | none => s
    | some e =>
      let k := ctrKey (e.word 1) (e.word 2)
      let c := s.counter k
      if 320 ≤ e.word 1 ∨ 63 ≤ e.word 2 ∨ c.owner ≠ some e.tenant then s.fwEnd core
      else
        let c := { c with mask := true, ring := [], pending := [] }
        (s.setCounter k (if c.running.isEmpty then { c with owner := none } else { c with releasing := true })).fwEnd core)

/-- PARCEL-DROP: the starved parcels of a launch leave its backlog, each counted as done, and the launch ends FAULTED (R329, R369).
Argument: a, the core. -/
def execParcelDrop (s : State) : Host.Outcome State Fault Refusal :=
  let core := s.arg.a
  .next (
    match s.fwCmd core 9 with
    | none => s
    | some e =>
      let s := s.fwEnd core
      match s.launches.find? (fun l => l.tenant == e.tenant && l.lid == e.word 1 % 2 ^ 32 && l.placed) with
      | none => s
      | some l =>
        let pool := s.starvedPool l
        let dry := s.undealtStarved l
        let n := pool.length + if dry then l.count - l.next else 0
        if n = 0 then s
        else s.mapLaunch l.id (fun (l : Launch) => { l with
          moved := l.moved.filter (fun m => !pool.contains m.2), next := if dry then l.count else l.next
          done := l.done + n, status := 6, starved := [] }))

end Sys2Proof.Machine
end

