-- ==== Sys2Proof/Machine/Collective.lean ====
section
/-! DEFINITION. Collectives over a multi-cube group: start, tree nodes, completion, faults and records (R433, R435 to R444). -/

namespace Sys2Proof.Machine

/-! ### The command's fields (R436) -/

/-- The group handle and the tag. -/
def Cmd.handle (c : Cmd) : Nat := bits (c.slot 2) 31 0
def Cmd.tag (c : Cmd) : Nat := bits (c.slot 2) 47 32
/-- The number of elements. -/
def Cmd.count (c : Cmd) : Nat := bits (c.slot 3) 19 0
/-- The record's number; 0 for none. -/
def Cmd.recordNo (c : Cmd) : Nat := bits (c.slot 3) 45 36
/-- Source, destination and link format. -/
def Cmd.srcFmt (c : Cmd) : Nat := bits (c.slot 4) 31 29
def Cmd.dstFmt (c : Cmd) : Nat := bits (c.slot 4) 28 26
def Cmd.linkFmt (c : Cmd) : Nat := bits (c.slot 4) 25 23
/-- The operation, the `all` bit and the root rank. -/
def Cmd.redOp (c : Cmd) : Nat := bits (c.slot 4) 22 21
def Cmd.toAll (c : Cmd) : Bool := bitAt (c.slot 4) 20
def Cmd.rootRank (c : Cmd) : Nat := bits (c.slot 4) 19 7

/-- The bytes of an element of a format: FP32, FP16, BF16, TF8. -/
def collBytes (f : Nat) : Nat := if f = 0 then 4 else if f = 3 then 1 else 2

/-- What the members of an instance share (R443): opcode, n, op, the formats, all and the root rank. -/
def Cmd.shared (c : Cmd) : List Nat := [c.opc, c.count, c.redOp, c.srcFmt, c.dstFmt, c.linkFmt, c.toAll.toNat, c.rootRank]

/-- Exact widening to FP32 (R107, R438). -/
def collDec (f x : Nat) : Nat :=
  match f with
  | 0 => x
  | 1 => (cvtF .f16 .f32 0 x).bits
  | 2 => (cvtF .bf16 .f32 0 x).bits
  | _ => wideTf8 .f32 x

/-- Encoding of FP32 in a format, rounded to nearest even (R438). -/
def collEnc (f x : Nat) : Nat :=
  match f with
  | 0 => x
  | 1 => (cvtF .f32 .f16 0 x).bits
  | 2 => (cvtF .f32 .bf16 0 x).bits
  | _ => (cvtTf8 .f32 x).bits

/-- The operation of a node on FP32 values (R438). -/
def collOp (op a b : Nat) : Nat :=
  match op with
  | 0 => (fpAdd .f32 0 a b).bits
  | 1 => (fpMinMax .f32 true a b).bits
  | _ => (fpMinMax .f32 false a b).bits

/-- A copy of equal formats without a link format leaves the bits as they are (R441). -/
def copies (p : List Nat) : Bool := p.getD 0 0 == 2 && p.getD 3 0 == p.getD 4 0 && p.getD 5 0 == 0

/-- A leaf of the tree: an element in the link format; uncorrectable data enters as poison (R438, R443). -/
def collLeaf (p : List Nat) (x : Nat) (bad : Bool) : Nat :=
  let src := p.getD 3 0
  if bad then (if copies p then collEnc src (Fmt.poison .f32) else collEnc (p.getD 5 0) (Fmt.poison .f32))
  else if copies p then x
  else collEnc (p.getD 5 0) (collDec src x)

/-- A node of the tree: left and right results in the link format (R438). -/
def collNode (p : List Nat) (a b : List Nat) : List Nat :=
  List.zipWith (fun x y => collEnc (p.getD 5 0) (collOp (p.getD 2 0) (collDec (p.getD 5 0) x) (collDec (p.getD 5 0) y))) a b

/-- An element as a receiver writes it (R438, R441). -/
def collOut (p : List Nat) (x : Nat) : Nat := if copies p then x else collEnc (p.getD 4 0) (collDec (p.getD 5 0) x)

/-! ### Instances -/

/-- An instance by group and tag. -/
def State.coll (s : State) (tenant handle tag : Nat) : Option Coll :=
  s.colls.find? (fun k => k.tenant == tenant && k.handle == handle && k.tag == tag)

/-- The instance replaced, or opened. -/
def State.putColl (s : State) (k : Coll) : State :=
  { s with colls := s.colls.filter (fun j => !(j.tenant == k.tenant && j.handle == k.handle && j.tag == k.tag)) ++ [k] }

/-- An instance in which nothing has happened yet. -/
def Coll.open (tenant handle tag : Nat) : Coll :=
  { tenant := tenant, handle := handle, tag := tag, params := [], parts := [], vals := [], cmd := none, leaf := none, sent := false, taken := false
    result := none, fault := none }

/-- The instance of a command. -/
def State.collOf (s : State) (c : Cmd) : Option Coll := s.colls.find? (fun k => k.cmd == some c.id)

/-- The rank's topmost node covers another rank. -/
def covers (rank n r : Nat) : Bool := decide (rank ≤ r) && decide (r < nodeEnd rank n)

/-- A member that takes delivery (R439 to R441). -/
def receives (p : List Nat) (rank : Nat) : Bool := p.getD 0 0 != 0 || p.getD 6 0 == 1 || p.getD 7 0 == rank

/-- The value of a rank's topmost node, once all of its inputs are there (R433, R438, R441). -/
def Coll.value (k : Coll) (rank n : Nat) : Option (List Nat) :=
  if k.params.isEmpty then none
  else if k.params.getD 0 0 = 2 then
    if k.params.getD 7 0 = rank then k.leaf
    else (k.vals.find? (fun v => covers v.1 n (k.params.getD 7 0))).map (·.2)
  else
    match k.leaf with
    | none => none
    | some x => (childRanks rank n).foldl (fun acc r =>
        match acc, k.vals.find? (fun v => v.1 == r) with
        | some a, some b => some (collNode k.params a b.2)
        | _, _ => none) (some x)

/-- A data or control packet of an instance to another rank: kind 1 up, 2 down, 3 a fault, 4 accepted; of data, with its first element. -/
def State.collSend (s : State) (g : Group) (k : Coll) (rank kind first : Nat) (ws : List Nat) : State :=
  s.sendTo (g.cubes.getD rank 0) (if kind = 1 ∨ kind = 2 then 2 else 3) .collectiveNode
    { EvArg.zero with a := kind, b := k.handle, c := first, d := k.tag, e := g.rank, w := BitVec.ofNat 64 k.tenant, words := ws.map (BitVec.ofNat 64) }

/-- The elements of a value: of `col.rs`, n for each member (R440). -/
def collTotal (p : List Nat) (members : Nat) : Nat := p.getD 1 0 * (if p.getD 0 0 = 1 then members else 1)

/-- The elements that a packet of at most 4,096 bytes carries (R417, R438). -/
def collPer (p : List Nat) : Nat := 4096 / collBytes (if copies p then p.getD 3 0 else p.getD 5 0)

/-- A value with the shared parameters, in packets of at most 4,096 bytes of elements (R417). -/
def State.collData (s : State) (g : Group) (k : Coll) (rank kind : Nat) (p v : List Nat) : State :=
  let n := collPer p
  (upTo (max 1 ((v.length + n - 1) / n))).foldl (fun (s : State) i => s.collSend g k rank kind (n * i) (p ++ (v.drop (n * i)).take n)) s

/-- A packet of a value taken in: the value, once all of its elements are there. -/
def Coll.gather (k : Coll) (key first n : Nat) (v : List Nat) : Option (List Nat) × Coll :=
  let parts := k.parts ++ [(key, first, v)]
  let mine := parts.filter (fun q => q.1 == key)
  if (mine.map (fun q => q.2.2.length)).foldl (· + ·) 0 < n then (none, { k with parts := parts })
  else
    let order := sortNats (mine.map (fun q => q.2.1))
    (some (order.flatMap (fun f => ((mine.find? (fun q => q.2.1 == f)).map (fun q => q.2.2)).getD [])), { k with parts := k.parts.filter (fun q => q.1 != key) })

/-- The result goes on down the tree: to every child, or towards the root rank alone (R439 to R441). -/
def State.collDown (s : State) (g : Group) (k : Coll) (p r : List Nat) : State :=
  ((childRanks g.rank g.cubes.length).filter (fun c => p.getD 0 0 != 0 || p.getD 6 0 == 1 || covers c g.cubes.length (p.getD 7 0))).foldl
    (fun s c => s.collData g k c 2 p r) s

/-- A fault that every member takes goes through the whole tree (R443). -/
def State.collFault (s : State) (g : Group) (k : Coll) (sub : Nat) (skip : Option Nat) : State :=
  let ranks := (if g.rank = 0 then [] else [parentRank g.rank]) ++ childRanks g.rank g.cubes.length
  (ranks.filter (fun r => some r ≠ skip)).foldl (fun s r => s.collSend g k r 3 0 [sub]) (s.putColl { k with fault := some sub })

/-- A node whose inputs are all there passes its value on: up, or at the root of the tree down (R438). -/
def State.collForward (s : State) (g : Group) (k : Coll) : State :=
  match k.value g.rank g.cubes.length with
  | none => s
  | some v =>
    if k.sent || k.fault.isSome then s
    else if g.rank = 0 then
      (s.putColl { k with sent := true, taken := true, result := some v }).collDown g k k.params v
    else (s.putColl { k with sent := true }).collData g k (parentRank g.rank) 1 k.params v

/-- The node has something to pass on. -/
def State.collReady (s : State) (k : Coll) : Bool :=
  match s.group k.tenant k.handle with
  | none => false
  | some g => !k.sent && k.fault.isNone && (k.value g.rank g.cubes.length).isSome

/-- COLLECTIVE_NODE: a node passes its value on, or takes in a packet of the tree (R438, R443).
A packet may overtake the packet that makes the group live on this cube: the group then already exists here, and the packet counts.
Argument: a, 0 for the node's own step, 1 a packet of a child's value, 2 of the result from above, 3 a fault, 4 accepted by the parent's host; b, the group; c, the packet's first element; d, the tag; e, the sender's rank; w, the tenant; words, the shared parameters and the values. DEDUCED, safe: log entry 32. -/
def execCollectiveNode (s : State) : Host.Outcome State Fault Refusal :=
  let h := s.arg
  let tenant := h.w.toNat
  let ws := h.words.map (·.toNat)
  .next (
    match s.anyGroup tenant h.b with
    | none => s
    | some g =>
      if !g.multi then s
      else
        let k := (s.coll tenant h.b h.d).getD (Coll.open tenant h.b h.d)
        match h.a with
        | 0 => s.collForward g k
        | 1 =>
          let p := ws.take 8
          if k.params.isEmpty || k.params == p then
            match k.gather (2 ^ 13 + h.e) h.c (collTotal p g.cubes.length) (ws.drop 8) with
            | (none, k) => s.putColl { k with params := p }
            | (some v, k) => (s.collSend g k h.e 4 0 []).putColl { k with params := p, vals := k.vals ++ [(h.e, v)] }
          else (s.collSend g k h.e 4 0 []).collFault g k 0x11 none
        | 2 =>
          let p := ws.take 8
          match k.gather (2 ^ 14 + h.e) h.c (collTotal p g.cubes.length) (ws.drop 8) with
          | (none, k) => s.putColl k
          | (some v, k) =>
            let s := (s.putColl k).collDown g k p v
            if k.params.isEmpty || k.params == p then
              if receives p g.rank then s.putColl { k with params := p, result := some v } else s
            else s.collFault g k 0x11 none
        | 3 => if k.fault.isSome then s else s.collFault g k (ws.getD 0 0) (some h.e)
        | _ => match s.coll tenant h.b h.d with
          | some k => s.putColl { k with taken := true }
          | none => s)

/-! ### Start -/

/-- A source or destination on die: the issuing core's own local memory, or its own scratch through window 0 (R436). -/
def Cmd.collSide (c : Cmd) (a : Nat) : Option Side :=
  match c.sideAt a with
  | some (.win t w o) => if w = 0 then some (.win t w o) else none
  | x => x

/-- The slot rules of R436, R440 and R441. -/
def Cmd.collFormat (c : Cmd) : Bool :=
  bits (c.slot 3) 47 46 != 0 || decide (831 < c.recordNo) || decide (3 < c.srcFmt) || decide (3 < c.dstFmt) || decide (3 < c.linkFmt)
    || c.redOp == 3 || bits (c.slot 4) 6 0 != 0
    || (c.opc == 1 && (c.rootRank != 0 || c.toAll)) || (c.opc == 2 && (c.redOp != 0 || c.toAll))

/-- The pages of n bytes at a virtual destination translate, for this cube; else a subcode (R436, R443). -/
def State.collPages (s : State) (c : Cmd) (va n : Nat) : List Nat :=
  (upTo ((va + n - 1) / 4096 + 1 - va / 4096)).filterMap (fun i =>
    match s.engineXlate c (max va ((va / 4096 + i) * 4096)) true with
    | .ok pa _ => if s.isRemote pa then some 3 else none
    | .fault cause _ => some (if cause = 0x07 then 2 else 1)
    | .wait _ => none)

/-- The first table entry on another cube that the destination's translation wants (R426, R436). -/
def State.collWants (s : State) (c : Cmd) : Option Nat :=
  let out := c.count * collBytes c.dstFmt
  match s.group c.tenant c.handle, c.collSide (c.slot 1) with
  | some g, some (.virt va) =>
    if receives c.shared g.rank && s.sideOk (.virt va) out then
      (upTo ((va + out - 1) / 4096 + 1 - va / 4096)).findSome? (fun i =>
        match s.engineXlate c (max va ((va / 4096 + i) * 4096)) true with
        | .wait pa => some pa
        | _ => none)
    else none
  | _, _ => none

/-- The subcodes of the checks that a collective fails at its start (R443). DESIGN CHOICE, unsafe: log entry 33. -/
def State.collFaults (s : State) (c : Cmd) : List Nat :=
  let form := c.collFormat
  match s.group c.tenant c.handle with
  | none => 0x10 :: if form then [7] else []
  | some g =>
    if !g.multi || !g.live || (g.member c.agent).isNone then 0x10 :: if form then [7] else []
    else
      let p := c.shared
      let n := c.count
      let takes := receives p g.rank
      let gives := c.opc != 2 || g.rank == c.rootRank
      let len := n * collBytes c.srcFmt * (if c.opc = 1 then g.cubes.length else 1)
      let out := n * collBytes c.dstFmt
      let src := c.collSide (c.slot 0)
      let dst := c.collSide (c.slot 1)
      (if form || (c.opc != 1 && decide (g.cubes.length ≤ c.rootRank)) then [7] else [])
        ++ (if gives && !(match src with
            | some (.virt _) => false
            | some d => s.sideOk d len
            | none => false) then [8] else [])
        ++ (if (gives && c.slot 0 % collBytes c.srcFmt != 0) || (takes && c.slot 1 % collBytes c.dstFmt != 0) then [4] else [])
        ++ (if !takes then [] else match dst with
            | none => [3]
            | some (.virt va) => if s.sideOk (.virt va) out then s.collPages c va out else [3]
            | some d => if s.sideOk d out then [] else [3])
        ++ (if (s.coll c.tenant c.handle c.tag).any (fun k => k.cmd.isSome) then [0x13] else [])

/-- The completion record (R442): path counts and packets are as the network has had it, which the model leaves free. -/
def State.collRecord (s : State) (c : Cmd) (status : Nat) : State :=
  if c.recordNo = 0 ∨ 831 < c.recordNo then s
  else
    let w (i : Nat) : List Byte := toBytes (Config.value (s.free + i)).toNat 8
    let head := toBytes (status + c.tag * 2 ^ 8 + c.handle * 2 ^ 32) 8
    { s with free := s.free + 5 }.dieWrite (localKey c.core (64 * c.recordNo))
      (head ++ w 0 ++ w 1 ++ w 2 ++ w 3 ++ w 4 ++ toBytes s.time 8 ++ toBytes 0 8)

/-- The command leaves its instance. -/
def State.leaveColl (s : State) (c : Cmd) : State := { s with colls := s.colls.filter (fun k => k.cmd ≠ some c.id) }

/-- A late fault of a collective (R443). -/
def State.failColl (s : State) (c : Cmd) (sub a : Nat) : State :=
  ((s.collRecord c sub).leaveColl c).failCmd c ⟨0x12, sub, BitVec.ofNat 64 a⟩

/-- The contribution read element by element: link codes, and the address of the first uncorrectable one; or a protection fault (R438, R443). -/
def State.collRead (s : State) (c : Cmd) (p : List Nat) : Nat → Side → List Nat × Option Nat × Bool
  | 0, _ => ([], none, false)
  | n + 1, d =>
    let es := collBytes c.srcFmt
    match s.readPiece c d es with
    | .ok b _ bad _ =>
      let (xs, bad', f) := s.collRead c p n (d.plus es)
      (collLeaf p (ofBytes b) bad.isSome :: xs, if bad.isSome then bad else bad', f)
    | _ => ([], none, true)

/-- A collective may start (R253, R267, R435): the head of its queue, fewer than four in progress, its issuer's stores done, and with ord every earlier command of its timeline. -/
def State.mayStartColl (s : State) (c : Cmd) : Bool :=
  c.cls == .collective && c.st == .queued && (s.engineQueue c.unit .collective).head?.any (fun d => d.id == c.id)
    && decide (((s.engine c.unit .collective).filter (fun d => d.st == .started)).length < 4)
    && !s.reqs.any (fun r => c.after.contains r.id)
    && !(bitAt c.flags 0 && s.cmds.any (fun d => d.agent == c.agent && d.tl == c.tl && decide (d.num < c.num)))

/-- COLLECTIVE_COMMAND_START: the head of the queue is checked, reads its source and joins its instance; n = 0 completes at once (R435, R443).
Argument: a, the command; far, table entries of other cubes. -/
def execCollectiveCommandStart (s : State) : Host.Outcome State Fault Refusal :=
  .next (
    match s.cmd s.arg.a with
    | none => s
    | some c =>
      if c.count = 0 then (s.collRecord c 0).endCmd c
      else if let some pa := s.collWants c then s.ask pa 8
      else
        match s.collFaults c, s.group c.tenant c.handle with
        | x :: l, _ =>
          let (sub, s) := s.pick x (x :: l)
          ((s.collRecord c sub).failCmd c ⟨0x12, sub, 0⟩)
        | [], none => s
        | [], some g =>
          let p := c.shared
          let gives := c.opc != 2 || g.rank == c.rootRank
          let n := c.count * (if c.opc = 1 then g.cubes.length else 1)
          let (xs, bad, f) := match gives, c.collSide (c.slot 0) with
            | true, some d => s.collRead c p n d
            | _, _ => ([], none, false)
          if f then (s.collRecord c 2).failCmd c ⟨0x12, 2, BitVec.ofNat 64 (c.slot 0)⟩
          else
            let k := (s.coll c.tenant c.handle c.tag).getD (Coll.open c.tenant c.handle c.tag)
            let s := s.mapCmd c.id (fun (c : Cmd) => { c with st := .started, work := [0, 0, s.time]
                                                              fault := bad.map (fun a => ⟨0x12, 5, BitVec.ofNat 64 a⟩) })
            let same := k.params.isEmpty || k.params == p
            let k := { k with cmd := some c.id, leaf := if gives then some xs else none }
            if same then s.putColl { k with params := p } else s.collFault g k 0x11 none)

/-! ### Completion -/

/-- The bytes a member's destination receives (R439 to R441). -/
def Coll.bytes (k : Coll) (rank : Nat) : List Byte :=
  let p := k.params
  let n := p.getD 1 0
  let v := k.result.getD []
  let own := if p.getD 0 0 = 1 then (v.drop (rank * n)).take n else v
  own.flatMap (fun x => toBytes (collOut p x) (collBytes (p.getD 4 0)))

/-- A started collective has something to do: a fault of its instance, a piece to write, or its end (R439, R443). A member that receives nothing is taken by the host of the node above its topmost one. DEDUCED, unsafe: log entry 17. -/
def State.collMayStep (s : State) (c : Cmd) : Bool :=
  c.cls == .collective && c.st == .started && c.work.getD 0 0 != 1 && (match s.collOf c, s.group c.tenant c.handle with
    | some k, some g =>
      k.fault.isSome || (if receives k.params g.rank then k.result.isSome && (decide (c.pos < (k.bytes g.rank).length) || (s.cmdReqs c).isEmpty) else k.taken)
    | _, _ => true)

/-- COLLECTIVE_COMPLETION: a member writes the next piece of its destination, or completes and writes its record (R439 to R443).
Argument: a, the command; b = 1, its 1 ms of waiting at a held line is over (R260); far, table entries of other cubes. -/
def execCollectiveCompletion (s : State) : Host.Outcome State Fault Refusal :=
  .next (
    match s.cmd s.arg.a with
    | none => s
    | some c =>
      match s.collOf c, s.group c.tenant c.handle with
      | some k, some g =>
        let fin (s : State) : State := match c.fault with
          | none => ((s.collRecord c 0).leaveColl c).endCmd c
          | some l => s.failColl c l.sub l.val.toNat
        match k.fault with
        | some sub => s.failColl c sub 0
        | none =>
          if !receives k.params g.rank then if k.taken then fin s else s
          else if k.result.isNone then s
          else
            let b := k.bytes g.rank
            if b.length ≤ c.pos then if (s.cmdReqs c).isEmpty then fin s else s
            else
              match c.collSide (c.slot 1) with
              | none => s.failColl c 3 0
              | some d =>
                let d := d.plus c.pos
                let n := chunkLen d (b.length - c.pos)
                match s.writeSide c d ((b.drop c.pos).take n) [] false with
                | .ok s _ => s.mapCmd c.id (fun (c : Cmd) => { c with pos := c.pos + n, work := [0, 0, c.work.getD 2 0] })
                | .fault sub => s.failColl c sub d.addr
                | .wait pa => (s.ask pa 8).mapCmd c.id (fun (c : Cmd) => { c with work := [1, 0, c.work.getD 2 0] })
                | .blocked held =>
                  if s.arg.b = 1 then s.failColl c 0x0B d.addr
                  else (if held then s else s.stallAt c d.addr).mapCmd c.id (fun (c : Cmd) => { c with work := if !held then [0, 0, c.work.getD 2 0] else if c.work.headD 0 = 3 then c.work else [3, s.time, c.work.getD 2 0] })
      | _, _ => s.failColl c 0x0A 0)

/-- COLLECTIVE_TIMEOUT: the instance is not complete 10 ms after the member's command started (R443).
Argument: a, the command. -/
def execCollectiveTimeout (s : State) : Host.Outcome State Fault Refusal :=
  .next (
    match s.cmd s.arg.a with
    | none => s
    | some c => if c.cls = .collective ∧ c.st = .started ∧ c.work.getD 2 0 + 10000000 ≤ s.time then s.failColl c 0x12 0 else s)

end Sys2Proof.Machine
end

