-- ==== Sys2Proof/Machine/Contain.lean ====
section
/-! DEFINITION. Checkpoints, restores, containment and scrubs (R381, R388 to R404). -/

namespace Sys2Proof.Machine

/-! ### The cut -/

/-- The four dwords of a `ckpt` descriptor break a rule (R397); later arrivals are checked for their group field only. -/
def cutBad (ws : List Nat) (first : Bool) : Bool :=
  let w (i : Nat) : Nat := ws.getD i 0
  w 0 / 2 ^ 32 != 0
    || (first && (bits (w 1) 63 56 != 0 || bits (w 1) 15 0 != 0 || w 2 / 2 ^ 8 != 0 || decide (50 < w 2) || w 3 != 0))

/-- `ckpt` (R397): the descriptor, the wait for coprocessor work, the drain and the release at the group's scope, and the arrival in a cut generation.
The scratch words are those of `gbar`. -/
def execCkpt (d a : Reg) (s : State) : Host.Outcome State Fault Refusal :=
  let i : Instr := .ckpt d a
  let u : Use := ⟨[], [(a, false)], [d], []⟩
  let y := (s.val a).toNat
  .next (
    match s.self.memo with
    | [6] => s.finish i
    | [5, g, h] =>
      (match s.group s.self.tenant h with
      | some q => if g < q.gen then (s.acquire q.scope).finish i else s.parkMe (.gen s.self.tenant h g)
      | none => s.finish i)
    | _ =>
      s.issue u
        (if y % 32 ≠ 0 then s.trap 0x04 0 (s.val a)
         else if y < localBase ∨ localBase + 0xD000 < y + 32 then s.trap 0x05 0 (s.val a)
         else
           let b := (s.dieRead (localKey s.cur.1 (y - localBase)) 32).1
           let ws := (upTo 4).map (fun j => fieldAt b (8 * j) 8)
           match s.memberOf (BitVec.ofNat 64 (ws.getD 0 0)) with
           | none => s.trapC (illegalValue i)
           | some (g, m) =>
             let first := !(g.opened.isSome && g.cut)
             if cutBad ws first then s.trapC (illegalValue i)
             else if s.copWork s.cur.1 s.me s.agent then s.parkMe .cpsync
             else
               let own := if s.second then s else (s.writeOutAll s.agent).releaseStart g.scope
               if !s.second && own.relReqs s.agent s.cur.1 g.scope != [] then own.waitFor ((own.relReqs s.agent s.cur.1 g.scope).map (·.id))
               else if g.refuses true then own.trapC (illegalValue i)
               else if g.waits m then own.parkMe (.gen g.tenant g.handle g.gen)
               else
                 let (id, s) := own.producer d
                 let s := s.setSelf { s.self with memo := [5, g.gen, g.handle] }
                 let s := s.arriveIn g m true
                 let s := s.mapGroup g.tenant g.handle (fun q => { q with
                   cutReqs := q.cutReqs ++ [id], cutBase := if first then ws.getD 1 0 else q.cutBase
                   cutShare := if first then ws.getD 2 0 else q.cutShare })
                 s.parkMe (.gen g.tenant g.handle g.gen)))

/-- The tenant's drains are over and no region moves (R398, R430); commit windows are never open between two steps. -/
def State.cutFree (s : State) (tenant : Nat) : Bool :=
  (upTo 64).all (fun v => (s.ival (ivalKey tenant v)).st != .draining && !(s.ival (ivalKey tenant v)).done) && !s.regions.any (fun r => r.2.moving)

/-- This cube has agreed to a cut over several cubes that is still to be made (R398). -/
def Group.promised (g : Group) : Bool := decide (2 ≤ g.cutPhase ∧ g.cutPhase ≤ 4) && g.cutStat == 0

/-- A vault already serves, or is about to serve, the dirty maps of four other tenants (R397). -/
def State.mapsFull (s : State) (tenant : Nat) : Bool :=
  let soon := distinct ((s.groups.filter (·.promised)).map (·.tenant))
  (upTo 64).any (fun v => decide (4 ≤ ((upTo 16).filter (fun t => t != tenant && (soon.contains t || (match (s.ival (ivalKey t v)).st with
    | .draining => true
    | .recording => true
    | _ => false)))).length))

/-- A thread of a group is one of a job. -/
def State.memberJob (s : State) (g : Group) (p : Nat → Bool) : Bool :=
  g.members.any (fun m => s.ctxs.any (fun e => e.2.occ && e.2.uid == m.who && p e.2.job) || s.stored.any (fun t => t.ctx.uid == m.who && p t.ctx.job))

/-- A member's job is cancelled (R397, R403). -/
def State.cutCancelled (s : State) (g : Group) : Bool := s.memberJob g (s.cancelled g.tenant)

/-- Cut k on every vault of the cube (R398, R399). DESIGN CHOICE, unsafe: log entry 35. -/
def State.makeCut (s : State) (tenant k base share : Nat) : State :=
  let s := { s with ckpts := smPut 0 s.ckpts tenant k }
  (upTo 64).foldl (fun s v =>
    let i := s.ival (ivalKey tenant v)
    let full := i.st != .recording || i.stale
    s.setIval (ivalKey tenant v) { i with
      st := .draining, k := k, full := full, prev := if full then [] else i.cur, cur := [], base := base
      share := if share = 0 then 5 else share, chunks := [], done := false, stale := false }) s

/-- The status of a cut on this cube (R397). -/
def State.cutStatus (s : State) (g : Group) : Nat := if s.cutCancelled g then 4 else if s.mapsFull g.tenant then 6 else 0

/-- The members of a single cube's cut generation are released with a result (R397, R398). -/
def State.endCut (s : State) (g : Group) (k st : Nat) : State :=
  let s := g.cutReqs.foldl (fun (s : State) id => s.answer id (BitVec.ofNat 64 (k % 2 ^ 32 + st * 2 ^ 32))) s
  s.mapGroup g.tenant g.handle (fun g => g.released g.arrived)

/-- A cancellation while members wait for a cut: status 4, the members are released, and no cut is made (R397, R403, R459). Over several cubes the status goes to the root with the others'. -/
def State.cancelCuts (s : State) (t j : Nat) : State :=
  (s.groups.filter (fun g => g.tenant == t && g.cut && g.opened.isSome && s.memberJob g (· == j))).foldl (fun s g =>
    if g.multi then s.mapGroup g.tenant g.handle (fun g => if g.cutPhase < 3 then { g with cutStat := max g.cutStat 4 } else g)
    else s.endCut g (smGet 0 s.ckpts g.tenant + 1) 4) s

/-- CHECKPOINT_CUT: the vaults make the cut, and the members are released. In a group over cubes the root asks down the tree whether every cube can make it; the cubes answer up the tree; the root's decision goes down, every cube makes the cut or none does, and acknowledges it (R397, R398).
Argument: a, the tenant; b, the handle; d = 1, the question from above, with k in c, the share in e and the base in w; d = 2, a child's answer, with its rank in e and its status in c; d = 3, the decision from above, with the status in c; d = 4, a child's acknowledgement, with its rank in e. DESIGN CHOICE, unsafe: log entry 35. -/
def execCheckpointCut (s : State) : Host.Outcome State Fault Refusal :=
  let h := s.arg
  .next (
    match s.group h.a h.b with
    | none => s
    | some g =>
      let order (s : State) (k base share : Nat) : State :=
        (childRanks g.rank g.cubes.length).foldl (fun s r =>
          s.sendTo (g.cubes.getD r 0) 3 .checkpointCut { EvArg.zero with a := h.a, b := h.b, c := k, d := 1, e := share, w := BitVec.ofNat 64 base })
          (s.mapGroup h.a h.b (fun g => { g with cut := true, cutPhase := 1, cutK := k, cutBase := base, cutShare := share }))
      let kids := childRanks g.rank g.cubes.length
      let decide_ (s : State) (st : Nat) : State :=
        kids.foldl (fun s r => s.sendTo (g.cubes.getD r 0) 3 .checkpointCut { EvArg.zero with a := h.a, b := h.b, c := st, d := 3 })
          (s.mapGroup h.a h.b (fun g => { g with cutPhase := 4, cutStat := st, cutAcks := [] }))
      let up (s : State) (d : Nat) : State :=
        s.sendTo (g.cubes.getD (parentRank g.rank) 0) 3 .checkpointCut { EvArg.zero with a := h.a, b := h.b, c := g.cutStat, d := d, e := g.rank }
      let phase (s : State) (n : Nat) : State := s.mapGroup h.a h.b (fun g => { g with cutPhase := n })
      if h.d = 1 then order s h.c h.w.toNat h.e
      else if h.d = 2 then s.mapGroup h.a h.b (fun g => { g with cutAcks := h.e :: g.cutAcks, cutStat := max g.cutStat h.c })
      else if h.d = 3 then decide_ s h.c
      else if h.d = 4 then s.mapGroup h.a h.b (fun g => { g with cutAcks := h.e :: g.cutAcks })
      else if !g.cut then s
      else if !g.multi then
        if !g.complete || !s.cutFree g.tenant then s
        else
          let k := smGet 0 s.ckpts g.tenant + 1
          let st := s.cutStatus g
          (if st = 0 then s.makeCut g.tenant k g.cutBase g.cutShare else s).endCut g k st
      else if g.cutPhase = 0 then
        if g.rank = 0 && g.nodeFull then order s (smGet 0 s.ckpts g.tenant + 1) g.cutBase g.cutShare else s
      else if g.cutPhase = 1 then
        if !s.cutFree g.tenant then s
        else s.mapGroup h.a h.b (fun q => { q with cutPhase := 2, cutStat := max q.cutStat (s.cutStatus g) })
      else if g.cutPhase = 2 && kids.all g.cutAcks.contains then
        if g.rank = 0 then decide_ s g.cutStat else up (phase s 3) 2
      else if g.cutPhase = 4 then
        if g.cutStat ≠ 0 then phase s 5
        else if !s.cutFree g.tenant then s
        else phase (s.makeCut g.tenant g.cutK g.cutBase g.cutShare) 5
      else if g.cutPhase = 5 && kids.all g.cutAcks.contains then
        if g.rank = 0 then phase s 6 else up (phase s 6) 4
      else s)

/-! ### The drain -/

/-- One step of CRC-64 with polynomial 0x42F0_E1EB_A9EA_3693 (R401). -/
def crc64Bit (c : Nat) : Nat := if 2 ^ 63 ≤ c then (c * 2 % 2 ^ 64) ^^^ 0x42F0E1EBA9EA3693 else c * 2

/-- CRC-64 of bytes, most significant bit first (R401). -/
def crc64 (b : List Byte) : Nat :=
  b.foldl (fun c x => (upTo 8).foldl (fun c _ => crc64Bit c) (c ^^^ (x.toNat * 2 ^ 56))) 0

/-- A leaf of a tenant's tables (R220). -/
structure Leaf where
  va   : Nat
  pa   : Nat
  size : Nat
  attr : Nat
  deriving DecidableEq, Repr

/-- A search through a tenant's tables: leaves found and answers of other cubes left, or an entry wanting. -/
inductive Leaves where
  | ok (l : List Leaf) (far : List Word)
  | wait (pa : Nat)

/-- The leaves below a table with n levels left, in ascending order (R220, R400). -/
def State.leaves (s : State) : Nat → Nat → Nat → List Word → Leaves
  | 0, _, _, far => .ok [] far
  | n + 1, t, va, far =>
    let lv := 5 - n
    let span := 2 ^ (if lv = 1 then 48 else if lv = 2 then 39 else if lv = 3 then 30 else if lv = 4 then 21 else 16)
    (upTo (if lv = 1 then 256 else if lv = 5 then 32 else 512)).foldl (fun acc ix =>
      match acc with
      | .wait pa => .wait pa
      | .ok l far =>
        let use (e : Nat) (far : List Word) : Leaves :=
          let v := va + ix * span
          if e % 2 = 0 ∨ e / 2 ^ 52 ≠ 0 ∨ bits e 11 9 ≠ 0 then .ok l far
          else if bitAt e 1 then
            if lv < 3 ∨ bits e 51 16 * 65536 % span ≠ 0 then .ok l far
            else .ok (l ++ [⟨v, bits e 51 16 * 65536, span, e % 65536⟩]) far
          else
            match s.leaves n (bits e 51 12 * 4096) v far with
            | .ok m far => .ok (l ++ m) far
            | w => w
        match s.readEntry (t + 8 * ix) with
        | .val e => use e far
        | .noRegion => .ok l far
        | .remote => match (farPairs far).find? (fun p => p.1 == t + 8 * ix) with
          | some p => use p.2 far
          | none => .wait (t + 8 * ix)) (.ok [] far)

/-- The lines of a tenant's J pages, in ascending order of their physical numbers (R400, R404). -/
def jLines (tenant : Nat) (l : List Leaf) : List Nat :=
  let pages := l.filter (fun e => attrJ e.attr && attrTenant e.attr == tenant)
  sortNats (distinct (pages.flatMap (fun e => (upTo (e.size / 128)).map (fun i => e.pa / 128 + i))))

/-- The bytes that a record holds, each with whether its sector was uncorrectable (R394, R400). -/
def JRec.marked (r : JRec) : List (Byte × Bool) := (upTo r.old.length).map (fun i => (r.old.getD i 0, bitAt r.bad (i / 16)))

/-- The chrysalis value of a line at cut k, byte by byte with whether it is uncorrectable (R400). -/
def State.chrysalis (s : State) (tenant k line : Nat) : List (Byte × Bool) :=
  let la := s.localAddr (line * 128)
  match s.journal.find? (fun r => !r.guard && r.tenant == tenant && r.num == k && r.line == line) with
  | some r => r.marked
  | none =>
    match s.heldRec line with
    | some r => r.marked
    | none => ((s.readLine (line * 128) la 0).1).flatMap (fun x => x.1.map (fun b => (b, x.2)))

/-- The bytes of a chunk (R401). DEDUCED, unsafe: log entry 36. -/
def chunkBytes (k cube vault : Nat) (full : Bool) (entries : List (Nat × List (Byte × Bool))) : List (Byte × Bool) :=
  let plain (b : List Byte) : List (Byte × Bool) := b.map (fun x => (x, false))
  let head := plain (toBytes k 8 ++ toBytes (cube + vault * 2 ^ 16 + entries.length * 2 ^ 32 + full.toNat * 2 ^ 48) 8 ++ toBytes 0 48)
  takeD (0, false) 65536 (head ++ entries.flatMap (fun e => plain (toBytes (e.1 * 128) 8) ++ e.2))

/-- Bytes written by firmware for a tenant at a virtual address, sector by sector, with their marks (R401). -/
def State.writeVirt (s : State) (tenant va : Nat) (b : List (Byte × Bool)) : Nat → VRead
  | 0 => .ok [] [] s
  | fuel + 1 =>
    match b with
    | [] => .ok [] [] s
    | _ =>
      let n := 16 - va % 16
      match s.xlate tenant va false true with
      | .fault _ _ => .fault
      | .wait pa => .wait (s.ask pa 8)
      | .ok pa attr =>
        match s.unitWrite ⟨tenant, 0⟩ pa attr ((b.take n).map (·.1)) ((b.take n).any (·.2)) with
        | none => .wait (s.noteStall pa)
        | some s => s.writeVirt tenant (va + n) (b.drop n) fuel

/-- A chunk of a drain written, at most 481 lines of it (R400, R401). -/
def State.writeChunk (s : State) (tenant v : Nat) (lines : List Nat) : VRead :=
  let i := s.ival (ivalKey tenant v)
  let b := chunkBytes i.k s.cube v i.full (lines.map (fun l => (l, s.chrysalis tenant i.k l)))
  match s.writeVirt tenant (i.base + s.cube * 2 ^ 41 + v * 2 ^ 35 + i.pos) b 4097 with
  | .ok _ _ s =>
    let e := (v * 2 ^ 35 + i.pos, crc64 (b.map (·.1)), lines.headD 0 * 128, lines.getLastD 0 * 128)
    let j := s.ival (ivalKey tenant v)
    .ok [] [] (s.setIval (ivalKey tenant v) { j with pos := (i.pos + 65536) % 2 ^ 35, chunks := i.chunks ++ [e] })
  | r => r

/-- The private and the public half of the device identity key (R401, R484). -/
def identityKey : Nat := Config.fuse 1
def identityPublic : Nat := Config.fuse 2

/-- The bytes of a manifest before its signature (R401). -/
def manifestBody (k : Nat) (full : Bool) (chunks : List (Nat × Nat × Nat × Nat)) : List Byte :=
  toBytes k 8 ++ toBytes (if full then 0 else k - 1) 8 ++ toBytes chunks.length 8 ++ toBytes 0 40
    ++ chunks.flatMap (fun c => toBytes c.1 8 ++ toBytes c.2.1 8 ++ toBytes c.2.2.1 8 ++ toBytes c.2.2.2 8)

/-- r and s of a signature, 66 bytes each, over the SHA-512 of a message (R401). DESIGN CHOICE, safe: log entry 44. -/
def signed (key : Nat) (m : List Byte) : List Byte := takeD 0 132 (Config.ecdsaSign key (toBytes (Config.sha512 m) 64))

/-- A signature over the SHA-512 of a message verifies. -/
def verified (key : Nat) (m sig : List Byte) : Bool := Config.ecdsaVerify key (toBytes (Config.sha512 m) 64) sig

/-- The address of a manifest (R401). -/
def manifestAt (base cube k : Nat) : Nat := base + 2 ^ 54 + cube * 2 ^ 40 + k % 16 * 2 ^ 36

/-- Every vault has drained, and the manifest is still to be written (R400). -/
def State.closing (s : State) (tenant : Nat) : Bool :=
  (upTo 64).all (fun v => (s.ival (ivalKey tenant v)).st == .recording && (s.ival (ivalKey tenant v)).done)

/-- After the last vault's drain the manifest is written and signed, and DRAIN-DONE raised (R400, R401, R403). -/
def State.closeDrain (s : State) (tenant : Nat) : State :=
  let ivs := (upTo 64).map (fun v => s.ival (ivalKey tenant v))
  let i := s.ival (ivalKey tenant 0)
  let chunks := ivs.flatMap (·.chunks)
  let body := manifestBody i.k i.full chunks
  match s.writeVirt tenant (manifestAt i.base s.cube i.k) ((body ++ signed identityKey body).map (fun b => (b, false))) (body.length / 16 + 12) with
  | .ok _ _ s =>
    let s := (upTo 64).foldl (fun (s : State) v => s.setIval (ivalKey tenant v) { s.ival (ivalKey tenant v) with done := false }) s
    s.raise 256 (StewEvent.msg tenant 0x14 i.k chunks.length 0)
  | .fault => s.abortDrain tenant
  | .wait s => s

/-- A drain finishes on a vault: its records and map k − 1 are freed (R399). -/
def State.drained_ (s : State) (tenant v : Nat) : State :=
  let i := s.ival (ivalKey tenant v)
  let s := s.setIval (ivalKey tenant v) { i with st := .recording, prev := [], done := true }
  { s with journal := s.journal.filter (fun r => r.guard || r.tenant != tenant || r.vault != v) }.jwatch v

/-- The lines that a drain has still to copy: those behind its last chunk. -/
def Ival.left (i : Ival) (lines : List Nat) : List Nat :=
  match i.chunks.getLast? with
  | some c => lines.filter (fun l => decide (c.2.2.2 / 128 < l))
  | none => lines

/-- CHECKPOINT_DRAIN: the next chunk of a vault's drain of checkpoint k, its end, and after the last vault's the manifest (R400, R401); a save area that cannot be written abandons the checkpoint.
Argument: a, the tenant; b, the vault, 64 for the manifest; far, table entries of other cubes. DESIGN CHOICE, unsafe: log entry 34. -/
def execCheckpointDrain (s : State) : Host.Outcome State Fault Refusal :=
  let t := s.arg.a
  let v := s.arg.b
  .next (
    let i := s.ival (ivalKey t v)
    if v = 64 then if s.closing t then s.closeDrain t else s
    else if i.st ≠ .draining then s
    else
      let here (l : Nat) : Bool := (s.home (l * 128)).any (fun p => p.1 == s.cube && (s.place p.2).vault == v)
      let found : Leaves := if i.full then s.leaves 5 (s.tenant t).xroot.toNat 0 s.arg.far else .ok [] []
      match found with
      | .wait pa => s.ask pa 8
      | .ok l _ =>
        let lines := if i.full then (jLines t l).filter here else sortNats (distinct i.prev)
        match i.left lines with
        | [] => s.drained_ t v
        | rest =>
          match s.writeChunk t v (rest.take 481) with
          | .ok _ _ s => s
          | .fault => s.abortDrain t
          | .wait s => s)

/-! ### Restore -/

/-- An event cause bit becomes set: the tenant's vector 64 is sent when it was clear (R452, R454). -/
def State.raiseCause (s : State) (t bit : Nat) : State :=
  let p := s.page t
  if bitAt p.evcause bit then s
  else (s.setPage t { p with evcause := setBit p.evcause bit true }).sendOut .evcause { EvArg.zero with a := t, b := 64 }

/-- A manifest as it is read back: checkpoint, whether its signature holds, whether it is full, and its chunks. -/
structure Manifest where
  k      : Nat
  good   : Bool
  full   : Bool
  chunks : List (Nat × Nat × Nat × Nat)
  deriving DecidableEq, Repr

/-- A manifest that cannot be read, or that is another checkpoint's: any line may have been in its chunks. DESIGN CHOICE, unsafe: log entry 91. -/
def Manifest.lost (k : Nat) : Manifest := ⟨k, false, false, [(0, 0, 0, 2 ^ 52 - 128)]⟩

/-- What the reads of a restore give. -/
inductive Manifests where
  | ok (l : List Manifest) (far : List Byte) (s : State)
  | wait (s : State)

/-- The manifests from k back to the newest full checkpoint, oldest first (R404). -/
def State.manifests (s : State) (tenant base : Nat) (far : List Byte) : Nat → Nat → Manifests
  | 0, _ => .ok [] far s
  | fuel + 1, k =>
    if k = 0 then .ok [] far s
    else
      let a := manifestAt base s.cube k
      let older (m : Manifest) (far : List Byte) (s : State) : Manifests :=
        match s.manifests tenant base far fuel (k - 1) with
        | .ok l far s => .ok (l ++ [m]) far s
        | w => w
      match s.readVirt tenant a 64 far 3 with
      | .wait s => .wait s
      | .fault => older (Manifest.lost k) far s
      | .ok h far s =>
        let n := fieldAt h 16 8
        match s.readVirt tenant (a + 64) (32 * n + 132) far (n / 128 + 3) with
        | .wait s => .wait s
        | .fault => older (Manifest.lost k) far s
        | .ok b far s =>
          let f (i j : Nat) : Nat := fieldAt b (32 * i + 8 * j) 8
          let chunks := (upTo n).map (fun i => (f i 0, f i 1, f i 2, f i 3))
          let good := verified identityPublic (h ++ b.take (32 * n)) (b.drop (32 * n))
          if fieldAt h 0 8 ≠ k then older (Manifest.lost k) far s
          else if fieldAt h 8 8 = 0 then .ok [⟨k, good, true, chunks⟩] far s
          else older ⟨k, good, false, chunks⟩ far s

/-- How far a restore has come: lines that an applied checkpoint held, the ranges skipped, and the skipped chunks themselves: checkpoint and stream offset. -/
structure Restored where
  lines   : List Nat
  skipped : List (Nat × Nat)
  chunks  : List (Nat × Nat)
  deriving DecidableEq, Repr

/-- The step of a restore. -/
inductive RStep where
  | ok (r : Restored) (far : List Byte) (s : State)
  | wait (s : State)

/-- The lines of a chunk written to their homes under the current map (R404). DESIGN CHOICE, unsafe: log entry 37. -/
def State.applyLines (s : State) (tenant : Nat) : List (Nat × List Byte) → Option State
  | [] => some s
  | (pa, b) :: r =>
    match s.unitWrite ⟨tenant, 0⟩ pa 0 b false with
    | some s => s.applyLines tenant r
    | none => none

/-- The chunks of one checkpoint applied or skipped (R404). -/
def State.applyChunks (s : State) (tenant base : Nat) (m : Manifest) (r : Restored) (far : List Byte) : List (Nat × Nat × Nat × Nat) → RStep
  | [] => .ok r far s
  | (off, tag, first, last) :: rest =>
    let skip (far : List Byte) (s : State) : RStep :=
      s.applyChunks tenant base m { r with skipped := r.skipped ++ [(first / 128, last / 128)], chunks := r.chunks ++ [(m.k, off)] } far rest
    if !m.good then skip far s
    else
      match s.readVirt tenant (base + s.cube * 2 ^ 41 + off) 65536 far 18 with
      | .wait s => .wait s
      | .fault => skip far s
      | .ok b far s =>
        if crc64 b ≠ tag then skip far s
        else
          let n := bits (fieldAt b 8 8) 40 32
          let es := (upTo n).map (fun i => (fieldAt b (64 + 136 * i) 8, (b.drop (72 + 136 * i)).take 128))
          match s.applyLines tenant es with
          | none => .wait s
          | some s => s.applyChunks tenant base m { r with lines := es.map (fun e => e.1 / 128) ++ r.lines } far rest

/-- Every checkpoint of a restore, oldest first. -/
def State.applyAll (s : State) (tenant base : Nat) (r : Restored) (far : List Byte) : List Manifest → RStep
  | [] => .ok r far s
  | m :: ms =>
    match s.applyChunks tenant base m r far m.chunks with
    | .ok r far s => s.applyAll tenant base r far ms
    | w => w

/-- RESTORE: firmware restores checkpoint k for a tenant from this cube's manifests and chunks, writes the list, and raises RESTORE-DONE (R403, R404, R452). The list holds two dwords for each skipped chunk, the checkpoint with bit 63 set and the stream offset, and then one for each line fallen back; its layout is not the spec's. DESIGN CHOICE, unsafe: log entry 91.
Argument: a, the tenant; far and bytes, table entries and data of other cubes. -/
def execRestore (s : State) : Host.Outcome State Fault Refusal :=
  let t := s.arg.a
  .next (
    let p := s.page t
    if p.rst ≠ .running then s
    else
      let k := p.rstk.toNat
      let base := p.rstbase.toNat
      let finish (s : State) (good : Bool) (fallen : Nat) : State :=
        let s := s.setPage t { s.page t with rst := if good then .done else .failed }
        (s.raise 256 (StewEvent.msg t 0x17 k (if good then 0 else 2) fallen)).raiseCause t 1
      match s.leaves 5 (s.tenant t).xroot.toNat 0 s.arg.far with
      | .wait pa => s.ask pa 8
      | .ok leaves _ =>
        match s.manifests t base s.arg.bytes 16 k with
        | .wait s => s
        | .ok ms far s =>
          if !ms.any (·.full) then finish s false 0
          else
            match s.applyAll t base ⟨[], [], []⟩ far ms with
            | .wait s => s
            | .ok r _ s =>
              let fallen := (jLines t leaves).filter (fun l => r.skipped.any (fun q => decide (q.1 ≤ l) && decide (l ≤ q.2)))
              let bad := fallen.any (fun l => !r.lines.contains l)
              let list := ((r.chunks.flatMap (fun c => toBytes (2 ^ 63 + c.1) 8 ++ toBytes c.2 8)) ++ fallen.flatMap (fun l => toBytes (l * 128) 8)).map (fun b => (b, false))
              match s.writeVirt t p.rstrep.toNat list (list.length / 8 + 2) with
              | .wait s => s
              | .fault => finish s (!bad) fallen.length
              | .ok _ _ s => finish s (!bad) fallen.length)

/-! ### Containment and scrubs -/

/-- The rectangle of a launch, and its tile cores. -/
def State.rectCores (s : State) (id : Nat) : List Nat := (s.cluster id).flatMap (fun t => [2 * t, 2 * t + 1])

/-- The launch whose cluster a consumption lies in (R388). -/
def State.consumedIn (s : State) (core ctx : Nat) : Option Nat :=
  if core < 256 then (s.tile (tileOf core)).owner else some (s.ctx (ctxKey core ctx)).launch

/-- Ring entries of agents discarded without an event: no orphan faults (R389). -/
def State.forgetFaults (s : State) (agents : List Nat) : State :=
  { s with cores := s.cores.map (fun (c : Nat × CoreSt) => (c.1, { c.2 with ring := c.2.ring.filter (fun r => !agents.contains r.agent) })) }

/-- A counter as a containment or a tenant reset leaves it: its grant stays (R382, R389). -/
def Counter.reset_ (c : Counter) : Counter := { Counter.zero with owner := c.owner, entry := c.entry, base := c.base, cap := c.cap }

/-- The counters of cores reset; the launch counter keeps its fixed values (R125, R382, R389). -/
def State.resetCounters (s : State) (cores : List Nat) : State :=
  let kept := s.ctrs.filter (fun (c : Nat × Counter) => !(cores.contains (c.1 / 64) && c.1 % 64 == 63 && decide (c.1 / 64 < 256)))
  { s with ctrs := kept.map (fun (c : Nat × Counter) => if cores.contains (c.1 / 64) then (c.1, c.2.reset_) else c) }

/-- The threads of cores and the moths of a launch, wherever on this cube they are; the steward apart. -/
def State.doomed (s : State) (cores : List Nat) (launch : Nat) : List Nat × List Stored :=
  (((s.ctxs.filter (fun e => e.2.occ && e.1 % 16 != 8 && (cores.contains (e.1 / 16) || (e.2.home.isSome && e.2.launch == launch && launch != 0)))).map (·.1)),
   s.stored.filter (fun t => cores.contains t.core || cores.contains t.goal || (t.ctx.home.isSome && t.ctx.launch == launch && launch != 0)))

/-- The uncached state of a rectangle's cores and tiles discarded (R389). -/
def State.discardTiles (s : State) (ts cores : List Nat) : State :=
  let mine (k : Nat) : Bool := cores.contains (k / 16)
  let testing (t : Nat) : Bool := s.cmds.any (fun c => c.unit == t && c.cls == .health && c.opc == 0 && c.st == .started)
  { s with
    arrays := (ts.filter testing).foldl (fun m t => smPut ArraySt.zero m t (s.array t).untested) s.arrays
    reqs := s.reqs.filter (fun r => !(cores.contains r.core && r.kind == .storeFill))
    cmds := s.cmds.filter (fun c => !ts.contains c.unit)
    nt := s.nt.filter (fun l => !cores.contains l.core)
    queues := s.queues.filter (fun e => !mine e.1), chains := s.chains.filter (fun e => !mine e.1)
    vbanks := s.vbanks.filter (fun e => !mine e.1), vops := s.vops.filter (fun o => !cores.contains o.core), reps := s.reps.filter (fun r => !mine r.key)
    tiles := s.tiles.map (fun (t : Nat × TileSt) => if ts.contains t.1 then (t.1, { t.2 with lines := [] }) else t)
    colls := s.colls.map (fun (k : Coll) => if (s.cmds.filter (fun c => ts.contains c.unit)).any (fun c => k.cmd == some c.id) then { k with cmd := none } else k) }

/-- Packets that a core of the rectangle had accepted when the fence was set, and whose handling has not finished: status 7 (R390). Which of those on their way to it these are is a free value. DESIGN CHOICE, safe: log entry 92. -/
def State.cutShort (s : State) (cores : List Nat) : State :=
  (s.net.filter (fun p => cores.contains p.core)).foldl (fun (s : State) p =>
    if bitAt (Config.value s.free).toNat 0 then s.drawn.settlePacket p 7 else s.drawn) s

/-- The replay of a launch: PLACING again from its saved LPB (R391). -/
def Launch.replayed (l : Launch) (now : Nat) : Launch :=
  { l with st := .placing, placing := now, head := false, engine := false, cand := 0, left := 0, tiles := [], conflicts := 0, backoff := none
           placed := false, next := 0, moved := [], leaving := [], done := 0, starved := [], guard := .none, phase := 0, replays := l.replays + 1, ownsGroup := false }

/-- CONTAINMENT: the first consumption that has not been dealt with (R388 to R391). It waits for an `mremap` in progress in the rectangle. DESIGN CHOICE, unsafe: log entry 39. -/
def execContainment (s : State) : Host.Outcome State Fault Refusal :=
  .next (
    match s.contain with
    | [] => s
    | (core, ctx, cause) :: _ =>
      match (s.consumedIn core ctx).bind s.launch with
      | none => { s with contain := s.contain.tail }.killCtx (ctxKey core ctx)
      | some l =>
        let ts := s.cluster l.id
        let cores := s.rectCores l.id
        if s.cmds.any (fun c => ts.contains c.unit && c.cls == .health && c.opc == 1 && c.st == .started) then s
        else
          let same := s.contain.filter (fun c => s.consumedIn c.1 c.2.1 == some l.id)
          let s := { s with contain := s.contain.filter (fun c => !same.contains c) }
          let (ks, held) := s.doomed cores l.id
          let agents := ks.map (fun k => (s.ctx k).uid) ++ held.map (·.ctx.uid)
          -- a thread that is away as a moth on another cube is killed there
          let s := ((s.ctxs.filter (fun e => e.2.park == some .away && cores.contains (e.1 / 16))).filter
            (fun e => s.nameCube e.2.tenant e.2.name != s.cube)).foldl (fun s e =>
              s.sendTo (s.nameCube e.2.tenant e.2.name) 3 (.ctxKill 0 0 false) { EvArg.zero with b := e.2.name, c := e.2.tenant, d := s.cube }) s
          let s := ((s.cutShort cores).forgetFaults agents).returnBorrowed l
          let s := s.discardTiles ts cores
          let s := ks.foldl (fun s k => if (s.ctx k).occ then s.killCtx k else s) s
          let s := held.foldl (fun s t => if s.stored.contains t then s.killStored t else s) s
          let s := (s.clearLaunch l.id).resetCounters cores
          let again := l.guard == .hold && decide (l.replays < 2)
          let s := if l.guard = .hold then s.discardGuard l.id else s
          let n := l.consumed + 1
          let s := s.raise l.origin (StewEvent.msg l.tenant 0x13 l.lid l.rectWord.toNat (cause + again.toNat * 256 + n * 512))
          let s := s.releaseCluster l
          let s := ts.foldl (fun s t => s.setTile t { s.tile t with scrubbed := false, last := some l.tenant, fence := true, scrubbing := true, lines := [] }) s
          s.mapLaunch l.id (fun _ => if again then { l.replayed s.time with consumed := n }
            else { l with consumed := n, st := .completing, status := 6, phase := 1, guard := .none, moved := [], next := l.count }))

/-- A tile whose scrub is due: fenced, marked by firmware, or reserved whole for a launch of another tenant (R381). -/
def State.scrubDue (s : State) (t : Nat) : Bool :=
  let x := s.tile t
  x.owner.isNone && (x.fence || x.scrubbing || (x.reserved.bind s.launch).any (fun l => l.reservedAll && s.owesScrub l.tenant t))

/-- A scrubbed tile: a cache whose dirty sectors have been written back, as `resize` writes them, and that is gone (R213); zero scratch and local memories, accumulators and sticky bits clear, no cached translation or instruction, no ring entry (R381). -/
def State.scrub (s : State) (t : Nat) : State :=
  let s := s.flushTile (s.unitReq (2 * t) 0 ((s.tile t).last.getD 0)) t
  let s := s.zeroRange (wayKey t 0 0) (wayKey t 11 131072)
  let s := [2 * t, 2 * t + 1].foldl (fun s c => s.zeroRange (localKey c 0) (localKey c 65536)) s
  let s := s.setArray t { s.array t with sticky := 0, acc := [], accBad := [] }
  let s := { s with tlbs := s.tlbs.filter (fun e => e.1 ≠ t) }
  let s := [2 * t, 2 * t + 1].foldl (fun s c => s.setCore c { s.core c with icache := [], ring := [] }) s
  s.setTile t { s.tile t with n := 0, lines := [], scrubbed := true, last := none, scrubbing := false, fence := false }

/-- TILE_SCRUB (R381).
Argument: a, the tile. -/
def execTileScrub (s : State) : Host.Outcome State Fault Refusal :=
  .next (if s.scrubDue s.arg.a then s.scrub s.arg.a else s)

end Sys2Proof.Machine
end

