-- ==== Sys2Proof/Machine/Fabric.lean ====
section
/-! DEFINITION. The fabric between cubes: links, delivery contexts, requests of other cubes, lost peers, domain time, and changes of the stripe map (R407, R415 to R431). -/

namespace Sys2Proof.Machine

/-! ### Requests of other cubes -/

/-- The atomic operation of a request's code. -/
def amoOfCode (c : Nat) : AmoOp :=
  match c - 16 with
  | 0 => .add
  | 1 => .and
  | 2 => .or
  | 3 => .xor
  | 4 => .min
  | 5 => .max
  | 6 => .minu
  | 7 => .maxu
  | 8 => .swap
  | 9 => .cas
  | _ => .fadd

/-- A request of another cube as its home's controller sees it: it belongs to no launch of this cube (R396). -/
def EvArg.homeReq (g : EvArg) : Req :=
  { id := 0, grp := 0, kind := .store, core := 320, ctx := 0, agent := 0, tenant := (g.words.getD 0 0).toNat, launch := 0, dest := .none
    pa := g.w.toNat, size := g.d, data := g.bytes, mask := (upTo g.bytes.length).filter (fun i => bitAt (g.words.getD 3 0).toNat i)
    sampled := false, poison := (g.words.getD 2 0) != 0, attr := g.e, user := false, since := 0, acq := 0, remote := false, sent := false, pc := 0 }

/-- The packet asks for memory at a physical address, so that it is routed by the map (R427). -/
def EvArg.routed (g : EvArg) : Bool := decide (g.c < 32)

/-- The answer to a read, with the bytes and the uncorrectable parts bit by bit (R422). DESIGN CHOICE, unsafe: log entry 69. -/
def State.answerRead (s : State) (g : EvArg) (bad : Nat) (b : List Byte) : State :=
  s.sendTo (g.peer.getD 0) 0 .producerCompletion { EvArg.zero with a := g.a, b := 1, c := bad, w := g.w, bytes := b }

/-- The acknowledgement of a write: 0, or the subcode under which a command's write is refused (R290, R422). -/
def State.ackWrite (s : State) (g : EvArg) (sub : Nat) : State :=
  s.sendTo (g.peer.getD 0) 2 .remoteWriteAcknowledgement { EvArg.zero with a := g.a, c := sub }

/-- Scratch of a tile, or local memory of a core, written by a push of another cube (R280, R283, R284, R390, R488). -/
def State.servePush (s : State) (g : EvArg) : Nat × State :=
  let unit := g.e % 256
  let w := g.e / 256
  let o := g.w.toNat
  let tile := if g.c = 33 then unit else unit / 2
  let bad := g.words.getD 1 0 != 0
  let add := g.words.getD 2 0 != 0
  let marks := (upTo (g.d / 4)).map (fun i => bitAt (g.words.getD (3 + i / 64) 0).toNat (i % 64))
  let sub := fun (m : Option Nat) => if m.isSome then 5 else 0
  if (s.tile tile).fence then (0x0A, s)
  else if !s.tileOfTenant tile (g.words.getD 0 0).toNat then (6, s)
  else if g.c = 33 then
    if !windowOk (s.scratchSize unit) w o g.d then (3, s)
    else if add then
      let (s, m) := s.combineDie marks 128 (.win unit w o) g.bytes none
      (sub m, s)
    else
      let (p, m) := windowSpan w o g.d
      (0, let s := s.windowWrite unit w o g.bytes; if bad then s.scratchSpoil unit p m else s)
  else if add then
    let (s, m) := s.combineDie marks 8 (.peer unit o) g.bytes none
    (sub m, s)
  else (0, let s := s.dieWrite (localKey unit o) g.bytes; if bad then s.dieSpoil (localKey unit o) else s)

/-- The check of a push's destination on this cube for another one: 0, or the subcode it fails with (R280, R290). -/
def State.judgePush (s : State) (g : EvArg) : Nat :=
  let unit := g.e % 256
  let far := g.words.getD 1 0 == 1
  let rows := (g.words.getD 2 0).toNat
  let ds := (g.words.getD 3 0).toNat
  if far && !(upTo rows).all (fun r => windowOk (s.scratchSize unit) (g.e / 256) (g.w.toNat + r * ds) g.d) then 3
  else if !(s.tile (if far then unit else unit / 2)).fence && !s.tileOfTenant (if far then unit else unit / 2) (g.words.getD 0 0).toNat then 6
  else 0

/-- A part of a stripe takes its new place, sector by sector; words say which sectors were uncorrectable (R429, R488). -/
def State.placeCopy (s : State) (la : Nat) (b : List Byte) (bad : List Word) : State :=
  (upTo (b.length / 16)).foldl (fun t i =>
    t.sectorWrite (la + 16 * i) ((upTo 16).map (fun o => (o, b.getD (16 * i + o) 0))) (bitAt (bad.getD (i / 64) 0).toNat (i % 64))) s

/-- A write routed by the map is placed at its home: nothing while it has to wait (R394); it begins no hold, as a discard does not undo it (R396). DEDUCED, unsafe: log entry 62. -/
def State.serveWrite (s : State) (g : EvArg) : Option State :=
  let r := g.homeReq
  if r.mask.isEmpty then
    s.placePieces ⟨r.tenant, 0⟩ g.e ((g.words.getD 1 0) != 0 && decide (g.words.length = 2)) (pieces r.pa (g.bytes.length + 1) g.bytes)
  else s.placeWrite (s.homeWrite r)

/-- A push of another cube to the plane window of a tile: what it asks is judged as any other; then its records are written sector by sector, in an order that the spec leaves open (R302). The sectors left are in `bytes` with their offsets in `words`; d = 1 marks them. -/
def State.servePlane (s : State) (g : EvArg) : State :=
  let unit := g.e % 256
  if (s.tile unit).fence then s.ackWrite g 0x0A
  else
    let (i, s) := s.choose g.words.length
    let o := (g.words.getD i 0).toNat
    let s := s.scratchWrite unit o ((g.bytes.drop (16 * i)).take 16)
    let s := if g.d = 1 then s.scratchSpoil unit o 16 else s
    if g.words.length ≤ 1 then s.ackWrite g 0
    else { s with arrivals := s.arrivals ++ [{ g with words := g.words.eraseIdx i, bytes := g.bytes.take (16 * i) ++ g.bytes.drop (16 * (i + 1)) }] }

/-- A request of another cube served at its home, or answered MOVED (R422, R427); nothing while it has to wait. DESIGN CHOICE, unsafe: log entry 65. -/
def State.serve (s : State) (g : EvArg) : Option State :=
  let pa := g.w.toNat
  if g.c = 44 then some (s.servePlane g)
  else if g.c = 33 ∨ g.c = 34 then
    if g.c = 33 ∧ g.e / 256 = 6 ∧ s.judgePush { g with words := [g.words.getD 0 0, 1, 1, 0] } = 0 then
      let ps := planePieces g.w.toNat g.bytes
      some (s.servePlane { g with c := 44, d := if g.words.getD 1 0 = 0 then 0 else 1, words := ps.map (fun p => BitVec.ofNat 64 p.1), bytes := ps.flatMap (·.2) })
    else
    let (sub, s) := s.servePush g
    some (s.ackWrite g sub)
  else if g.c = 43 then some (s.answerRead g (1 + s.judgePush g) [])
  else if g.c = 42 then some ((s.placeCopy pa g.bytes g.words).ackWrite g 0)
  else if s.frozenAt pa then none
  else
    match s.home pa with
    | none => none
    | some (c, _) =>
      if c ≠ s.cube then some (s.sendTo (g.peer.getD 0) 3 .moved { EvArg.zero with a := g.a, b := c, c := s.mapgen })
      else if g.c = 0 then
        let (xs, s) := s.readPieces 0 (pieces pa (g.d + 1) (List.replicate g.d 0))
        some (s.answerRead g (xs.any (·.2)).toNat (xs.flatMap (·.1)))
      else if g.c = 2 then
        let (xs, s) := s.readLine pa (s.localAddr pa) 0
        some (s.answerRead g (packBits (fun i => ((xs.getD i ([], false)).2).toNat) 1 (upTo 8)) (xs.flatMap (·.1)))
      else if g.c = 3 then
        let ((b, bad), s) := s.readSector (pa / 128) (s.localAddr pa) 0
        some (s.answerRead g bad.toNat b)
      else if g.c = 1 then (s.serveWrite g).map (fun s => s.ackWrite g 0)
      else (s.homeAmo g.homeReq (amoOfCode g.c)).map (fun (x, s) => s.answerRead g x.2.toNat x.1)

/-- A write of a command or a thread, or an atomic, that has waited 1 ms at a line held by a launch of this cube: its cube is told so (R260). DESIGN CHOICE, unsafe: log entry 63. -/
def State.arrivalLate (s : State) (g : EvArg) : Bool :=
  (g.words.getD 4 0) != 0 && decide (g.c = 1 ∨ 16 ≤ g.c ∧ g.c < 32) && (s.heldBy (g.w.toNat / 128)).isSome
    && g.far.any (fun t => decide (t.toNat + 1000000 ≤ s.time))

/-- REMOTE_REQUEST: a request of another cube arrives, or one that has arrived is served (R422, R427).
Argument: an arriving request has `peer`, its sender; else a is the place of the request among those that have arrived. -/
def execRemoteRequest (s : State) : Host.Outcome State Fault Refusal :=
  let g := s.arg
  .next (
    match g.peer with
    | some _ => { s with arrivals := s.arrivals ++ [{ g with far := [BitVec.ofNat 64 s.time] }] }
    | none =>
      match s.arrivals[g.a]? with
      | none => s
      | some q =>
        let rest := { s with arrivals := s.arrivals.eraseIdx g.a }
        if s.arrivalLate q then
          if q.c = 1 then rest.ackWrite q 0x0B else rest.sendTo (q.peer.getD 0) 2 .remoteWriteAcknowledgement { EvArg.zero with a := q.a, c := 0x0B }
        else (rest.serve q).getD s)

/-! ### Delivery contexts -/

/-- The context of a peer and class, changed. -/
def State.mapPdc (s : State) (peer mode : Nat) (f : Pdc → Pdc) : State :=
  { s with pdcs := s.pdcs.map (fun (p : Pdc) => if p.peer = peer ∧ p.mode = mode then f p else p) }

/-- The packet of a number, if it is still unacknowledged. -/
def State.sentPacket (s : State) (peer mode num : Nat) : Option Sent :=
  (s.pdcs.find? (fun p => p.peer == peer && p.mode == mode)).bind (fun p => p.sent.find? (fun x => x.num == num))

/-- A packet sent again, with its next timer (R419). -/
def State.resend (s : State) (peer mode num timer : Nat) : State :=
  match s.sentPacket peer mode num with
  | none => s
  | some x =>
    let again (y : Sent) : Sent := if y.num = num then { y with next := s.time + timer, timer := timer } else y
    let s := s.mapPdc peer mode (fun p => { p with sent := p.sent.map again, used := s.time })
    { s with outbox := { x.ev with arg := { x.ev.arg with seq := x.ev.arg.seq.map (fun q => (q.1, q.2.1, s.time)) } } :: s.outbox }

/-- RETRANSMISSION: an unacknowledged packet is sent again and its timer doubles up to 1 ms (R419).
Argument: a, the peer; c, the class; d, the packet's number; b = 1, the packet's acknowledgement arrives; b = 2, a packet arrives that this cube has taken already, and is discarded (R248). DESIGN CHOICE, unsafe: log entry 46. -/
def execRetransmission (s : State) : Host.Outcome State Fault Refusal :=
  let g := s.arg
  .next (
    if g.b = 2 then s
    else if g.b = 1 then
      s.mapPdc g.a g.c (fun p => { p with sent := p.sent.filter (fun (x : Sent) => x.num ≠ g.d), since := s.time, used := s.time })
    else
      match s.sentPacket g.a g.c g.d with
      | none => s
      | some x => s.resend g.a g.c g.d (min (2 * x.timer) 1000000))

/-- TRIMMED_PACKET: a trimmed packet is answered with a negative acknowledgement, and its sender sends it again at once; the cube's own switch-facing egress trims a packet too. Class C is never trimmed (R419).
Argument: a, the peer; c, the class; d, the packet's number; b = 1, the negative acknowledgement arrives; b = 2, the own egress trims the packet, as its queue is over three quarters full; else a trimmed packet arrives. -/
def execTrimmedPacket (s : State) : Host.Outcome State Fault Refusal :=
  let g := s.arg
  .next (
    if g.c = 3 then s
    else if g.b = 2 then
      match s.sentPacket g.a g.c g.d with
      | none => s
      | some _ => s.sendOut .trimmedPacket { EvArg.zero with a := s.cube, c := g.c, d := g.d, peer := some g.a }
    else if g.b = 1 then
      match s.sentPacket g.a g.c g.d with
      | none => s
      | some x => s.resend g.a g.c g.d x.timer
    else s.sendOut .trimmedPacket { EvArg.zero with a := s.cube, b := 1, c := g.c, d := g.d, peer := some g.a })

/-- A context that no packet needs any more (R418). -/
def Pdc.unused (p : Pdc) (now : Nat) : Bool := p.sent.isEmpty && decide (p.used + 1000000 ≤ now)

/-- The first waiting packet can take a context (R418). -/
def State.pdcRoom (s : State) : Bool :=
  decide (s.pdcs.length < pdcLimit) || s.pdcs.any (fun p => p.sent.isEmpty || s.pdcWait.head?.any (fun w => w.1 == p.mode && w.2.arg.peer == some p.peer))

/-- PDC_FREE: a context is freed after 1 ms without unacknowledged packets; a waiting packet takes one (R418).
Argument: a, the peer, and c, the class; b = 1, the first waiting packet takes a context. -/
def execPdcFree (s : State) : Host.Outcome State Fault Refusal :=
  let g := s.arg
  .next (
    if g.b = 1 then
      match s.pdcWait with
      | [] => s
      | (mode, e) :: r =>
        match s.putPacket (e.arg.peer.getD 0) mode e.op e.arg with
        | some s => { s with pdcWait := r }
        | none => s
    else { s with pdcs := s.pdcs.filter (fun (p : Pdc) => !(p.peer == g.a && p.mode == g.c && p.unused s.time)) })

/-- UUD_PACKET: a packet of the mode that is not implemented is dropped and counted (R417). -/
def execUudPacket (s : State) : Host.Outcome State Fault Refusal := .next { s with uud := s.uud + 1 }

/-! ### Lost peers -/

/-- The cube to which a request of this one has gone. -/
def State.reqCube (s : State) (r : Req) : Nat :=
  match r.kind with
  | .status => if 2 ^ 50 ≤ r.agent then r.attr else r.pa
  | _ => s.homeCube r.pa

/-- PEER-LOST for a tenant that has lost stores, once per lost cube, at the steward of the issuing core (R370, R423). -/
def State.tellLost (s : State) (q tenant core : Nat) : State :=
  if s.told.contains (q, tenant) then s else { s with told := (q, tenant) :: s.told }.raise core (StewEvent.msg tenant 0x03 q 0 0)

/-- The fate of one request to a lost cube (R423). -/
def State.loseReq (s : State) (q : Nat) (r : Req) : State :=
  if 2 ^ 50 ≤ r.agent then ((s.noteFault r.agent 0x0A).dropReq r.id)
  else
    match r.kind with
    | .status => { s.answer r.id 2 with tiles := s.tiles.map (fun (e : Nat × TileSt) => (e.1, { e.2 with parcels := e.2.parcels.filter (fun (p : Parcel) => match p.st with
        | .held h => decide (h ≠ r.id)
        | _ => true) })) }
    | .store => (s.dropReq r.id).tellLost q r.tenant r.core
    | .storeFill => (s.dropReq r.id).tellLost q r.tenant r.core
    | .writeBack => (s.dropReq r.id).tellLost q (attrTenant r.attr) r.core
    | _ => s.deliver r (List.replicate (max r.size 16) 0) true

/-- The contexts whose relocation packet has gone to a cube (R226). -/
def State.movingTo (s : State) (q : Nat) : List Nat :=
  (s.ctxs.filter (fun e => e.2.occ && e.2.park == some .reloc && e.2.memo == [8, q])).map (·.2.uid)

/-- A region whose change names a cube (R430). -/
def State.regionNames (s : State) (r : Region) (q : Nat) : Bool :=
  let has (d : Stripes) : Bool := (upTo d.n).any (fun i => smGet 0 s.settab (d.setbase + i) == q)
  has r.cur || r.next.any has

/-- Traffic of this cube to a lost cube that has not met its fate yet. -/
def State.lostTraffic (s : State) (q : Nat) : Bool :=
  s.reqs.any (fun r => r.remote && !r.sampled && s.reqCube r == q)
    || !(s.movingTo q).isEmpty || s.pdcs.any (fun p => p.peer == q) || s.pdcWait.any (fun p => p.2.arg.peer == some q)
    || s.arrivals.any (fun a => a.peer == some q) || s.groups.any (fun g => g.cubes.contains q)
    || s.mapWait.contains q

/-- The traffic to a lost cube meets its fate, and groups over it are dissolved (R423, R430, R432). -/
def State.failTraffic (s : State) (q : Nat) : State :=
  let mine := s.reqs.filter (fun r => r.remote && !r.sampled && s.reqCube r == q)
  let s := mine.foldl (fun s r => s.loseReq q r) s
  let s := (s.movingTo q).foldl (fun s u => s.stays u) s
  let s := (s.groups.filter (fun g => g.cubes.contains q)).foldl (fun s g => s.dissolveAll g false) s
  let s := match s.mapJob with
    | some r => if s.regionNames (smGet Region.zero s.regions r) q then { s with mapJob := none, mapWait := [] } else s
    | none => s
  { s with pdcs := s.pdcs.filter (fun (p : Pdc) => p.peer ≠ q), pdcWait := s.pdcWait.filter (fun p => p.2.arg.peer ≠ some q)
           arrivals := s.arrivals.filter (fun (a : EvArg) => a.peer ≠ some q), mapWait := s.mapWait.filter (· ≠ q) }

/-- What waits for an answer of a lost cube goes on without it; what it then reads there is poisoned (R423). -/
def State.forgetAsks (s : State) (q : Nat) : State :=
  let s : State :=
    { s with asks := s.asks.filter (fun (e : Ev) => e.arg.c ≠ q)
             walks := s.walks.map (fun (w : Walk) => { w with asked := false })
             invs := s.invs.map (fun (n : Inv) => { n with asked := false })
             cmds := s.cmds.map (fun (c : Cmd) =>
               if (c.cls = .push ∨ c.cls = .collective) ∧ c.work.headD 0 = 1 then { c with work := 0 :: c.work.drop 1 } else c) }
  (s.net.filter (fun p => p.asked && s.nameCube p.tenant (p.hdr.toNat % 2 ^ 32) == q)).foldl (fun s p => s.settlePacket p 2) s

/-- This cube learns that a peer is lost; a cancellation does not wait for it (R423, R458). -/
def State.learnLost (s : State) (q : Nat) : State :=
  if s.lost.contains q then s.failTraffic q
  else
    let drop (e : Nat × HostPage) : Nat × HostPage := (e.1, { e.2 with pending := e.2.pending.filter (· ≠ q) })
    let s : State := { s with lost := q :: s.lost, peers := s.peers.filter (· ≠ q), pages := s.pages.map drop }
    (s.forgetAsks q).failTraffic q

/-- Every other live cube is told of a lost one (R423). -/
def State.spreadLost (s : State) (q : Nat) : State :=
  (s.peers.filter (· ≠ q)).foldl (fun s p => s.sendTo p 3 .peerLost { EvArg.zero with a := q }) s

/-- PEER_UNREACHABLE: a context without acknowledgement progress for 2 ms declares its peer unreachable (R419, R423).
Argument: a, the peer. -/
def execPeerUnreachable (s : State) : Host.Outcome State Fault Refusal :=
  .next ((s.spreadLost s.arg.a).learnLost s.arg.a)

/-- PEER_LOST: a cube is lost, as another cube reports or this cube's firmware has marked it; or traffic to a lost cube meets its fate (R423).
Argument: a, the cube; `peer`, the cube that reports; b = 1, firmware has marked it failed. DESIGN CHOICE, unsafe: log entry 48. -/
def execPeerLost (s : State) : Host.Outcome State Fault Refusal :=
  .next ((if s.arg.b = 1 then s.spreadLost s.arg.a else s).learnLost s.arg.a)

/-! ### Links -/

/-- A link: 0 to 11 of a whole port, 12 + n of plane n of a split one (R415). -/
def State.port (s : State) (p : Nat) : Port := smGet Port.zero s.ports p

/-- The state with a link replaced. -/
def State.setPort (s : State) (p : Nat) (x : Port) : State := { s with ports := smPut Port.zero s.ports p x }

/-- LINK_TRAINING_TIMEOUT: a link whose peer has not completed training within 100 ms stays down (R415).
Argument: a, the link. -/
def execLinkTrainingTimeout (s : State) : Host.Outcome State Fault Refusal :=
  let x := s.port s.arg.a
  .next (if x.training && decide (x.since + 100000000 ≤ s.time) then s.setPort s.arg.a { x with training := false, down := true } else s)

/-- LINK_LEVEL_RETRY: a frame fails its FCS and is replayed, or is dropped on a link without replay; a replay fails, or gets through, which ends the row (R416).
Argument: a, the link; b = 0, a frame fails, or the replay of one that has failed; b = 1, a replay has succeeded; c = 1, a switch-facing link whose peer has not negotiated replay. -/
def execLinkLevelRetry (s : State) : Host.Outcome State Fault Refusal :=
  let x := s.port s.arg.a
  .next (if s.arg.b = 1 then s.setPort s.arg.a { x with replaying := false, replays := 0 }
    else if 6 ≤ s.arg.a ∧ s.arg.c = 1 then s
    else if x.replaying then s.setPort s.arg.a { x with replays := x.replays + 1 }
    else s.setPort s.arg.a { x with replaying := true })

/-- LINK_DOWN: after 16 failed replays in a row the link is declared down (R416).
Argument: a, the link. -/
def execLinkDown (s : State) : Host.Outcome State Fault Refusal :=
  .next (s.setPort s.arg.a { s.port s.arg.a with up := false, down := true, replaying := false, replays := 0 })

/-- LINK_RETRAIN: firmware trains a link anew; when training completes routing uses it, and a torus port's far end is recorded. A link that firmware does not train stays as it is (R415, R416).
Argument: a, the link; b = 1, training has completed, with the cube at a torus port's far end in c. -/
def execLinkRetrain (s : State) : Host.Outcome State Fault Refusal :=
  let p := s.arg.a
  let x := s.port p
  .next (if s.arg.b = 1 then
      if x.training then s.setPort p { x with up := true, training := false, since := s.time, peer := if p < 6 then some s.arg.c else none } else s
    else if x.split || decide (36 ≤ p) then s
    else s.setPort p { x with up := false, down := false, training := true, replaying := false, replays := 0, since := s.time })

/-- MESH_LINK_RETIREMENT: a mesh link that fails 8 resends in a row is retired by firmware (R407).
Argument: a, the link; b = 1, a resend has failed; b = 2, a resend has succeeded; else the retirement. -/
def execMeshLinkRetirement (s : State) : Host.Outcome State Fault Refusal :=
  let l := s.arg.a
  .next (if s.arg.b = 1 then { s with mesh := smPut 0 s.mesh l (smGet 0 s.mesh l + 1) }
    else if s.arg.b = 2 then { s with mesh := smPut 0 s.mesh l 0 }
    else if 8 ≤ smGet 0 s.mesh l then { s with meshOut := smPut false s.meshOut l true } else s)

/-! ### Domain time -/

/-- No live cube has a lower number: this cube is the master (R431). -/
def State.isMaster (s : State) : Bool := s.peers.all (fun p => decide (s.cube < p))

/-- TIME_EXCHANGE: every 1 ms the ports send time packets, and a packet that carries domain time disciplines the clock (R431).
Argument: b = 1, a packet has come, with domain time in w; else this cube sends. -/
def execTimeExchange (s : State) : Host.Outcome State Fault Refusal :=
  let t := s.arg.w.toNat
  .next (
    if s.arg.b = 1 then
      if s.isMaster then s
      else if !s.joined then { s with time := max s.time t, slew := (t : Int) - (max s.time t : Nat), joined := true }
      else { s with slew := (t : Int) - (s.time : Nat) }
    else
      let s := { s with timeSent := s.time, joined := s.joined || s.isMaster }
      (s.ports.filter (fun e => e.2.up)).foldl (fun s e =>
        s.sendOut .timeExchange { EvArg.zero with a := e.1, b := 1, w := BitVec.ofNat 64 s.time, peer := e.2.peer }) s)

/-! ### The stripe map -/

/-- READY has been reported (R483). -/
def State.ready (s : State) : Bool := s.fw.st == .ready

/-- The region of a number. -/
def State.region (s : State) (r : Nat) : Region := smGet Region.zero s.regions r

/-- The state with a region replaced. -/
def State.setRegion (s : State) (r : Nat) (x : Region) : State := { s with regions := smPut Region.zero s.regions r x }

/-- Dwords 0 to 2 of a descriptor whose zero fields are zero (R425). -/
def stripesOf (d0 d1 d2 : Nat) : Option Stripes :=
  if bits d0 56 52 ≠ 0 ∨ d1 / 2 ^ 56 ≠ 0 ∨ d2 / 2 ^ 39 ≠ 0 then none
  else some ⟨bitAt d0 63, bitAt d0 62, bits d0 61 57, bits d0 51 0, bits d1 55 42, bits d1 41 28, bits d1 27 0, d2⟩

/-- The two descriptor dwords and the local base as words. -/
def Stripes.words (d : Stripes) : List Word :=
  [BitVec.ofNat 64 (d.valid.toNat * 2 ^ 63 + d.perm.toNat * 2 ^ 62 + d.k * 2 ^ 57 + d.base),
   BitVec.ofNat 64 (d.n * 2 ^ 42 + d.setbase * 2 ^ 28 + d.size), BitVec.ofNat 64 d.lb]

/-- The size of a stripe. -/
def Stripes.bytes (d : Stripes) : Nat := 2 ^ (12 + d.k)

/-- The local range's length on each cube of the set. -/
def Stripes.span (d : Stripes) : Nat := (d.size + d.n - 1) / d.n * d.bytes

/-- The cubes of a descriptor's set. -/
def State.setOf (s : State) (d : Stripes) : List Nat := (upTo d.n).map (fun i => smGet 0 s.settab (d.setbase + i))

/-- The rules that one descriptor keeps (R425). -/
def Stripes.sound (d : Stripes) : Bool :=
  decide (d.k ≤ 18) && decide (d.base % d.bytes = 0) && decide (1 ≤ d.n ∧ d.n ≤ 8192) && decide (d.setbase + d.n ≤ 16384)
    && decide (1 ≤ d.size) && decide (d.lb % d.bytes = 0) && decide (d.lb + d.span ≤ 384 * 2 ^ 30)
    && decide (d.base + d.size * d.bytes ≤ 15 * 2 ^ 48)

/-- Two ranges meet. -/
def spansMeet (a n b m : Nat) : Bool := decide (a < b + m) && decide (b < a + n)

/-- Two descriptors overlap, in global space or in local space on some cube (R425). -/
def State.descriptorsMeet (s : State) (a b : Stripes) : Bool :=
  a.valid && b.valid
    && (spansMeet a.base (a.size * a.bytes) b.base (b.size * b.bytes)
      || (spansMeet a.lb a.span b.lb b.span && (s.setOf a).any (fun c => (s.setOf b).contains c)))

/-- Firmware refuses a descriptor (R425), or one that changes more of a valid region than its set and local base (R428). -/
def State.mapRefuses (s : State) (r : Nat) (d : Stripes) : Bool :=
  let cur := (s.region r).cur
  let set := s.setOf d
  decide (256 ≤ r) || !d.valid || !d.sound || (distinct set).length != set.length
    || (cur.valid && (cur.base != d.base || cur.k != d.k || cur.size != d.size))
    || s.regions.any (fun e => e.1 != r && (s.descriptorsMeet d e.2.cur || e.2.next.any (s.descriptorsMeet d)))

/-- A change is under way: firmware changes one region at a time (R428). -/
def State.mapBusy (s : State) : Bool := s.mapJob.isSome || s.regions.any (fun e => e.2.moving || e.2.next.isSome)

/-- A packet to every other live cube. -/
def State.toAll (s : State) (op : Instr) (a : EvArg) : State := s.peers.foldl (fun s p => s.sendTo p 3 op a) s

/-- The next descriptor goes to every cube (R428, PREPARING). -/
def State.prepareMap (s : State) (r : Nat) (d : Stripes) : State :=
  { s.setRegion r { s.region r with next := some d } with mapJob := some r, mapWait := s.peers }.toAll .mapWrite
    { EvArg.zero with a := r, b := 1, words := d.words }

/-- A change that the management host asks for: begun, kept until the earlier one is STABLE, or refused (R425, R428). -/
def State.askMap (s : State) (g : EvArg) : State :=
  let w (i : Nat) : Nat := (g.words.getD i 0).toNat
  let refuse := s.sendOut .mapWrite { EvArg.zero with a := g.a, b := 4 }
  match stripesOf (w 0) (w 1) (w 2) with
  | none => refuse
  | some d =>
    if s.mapBusy then { s with mapQueue := s.mapQueue ++ [g] }
    else if s.mapRefuses g.a d then refuse
    else s.prepareMap g.a d

/-- A set-table entry that a region uses or will use. -/
def State.entryUsed (s : State) (i : Nat) : Bool :=
  let has (d : Stripes) : Bool := d.valid && decide (d.setbase ≤ i) && decide (i < d.setbase + d.n)
  s.regions.any (fun e => has e.2.cur || e.2.next.any has)

/-- Set-table entries from a place on (R425). -/
def State.putSets (s : State) (first : Nat) (ws : List Word) : State :=
  { s with settab := (upTo ws.length).foldl (fun t i => smPut 0 t (first + i) ((ws.getD i 0).toNat % 8192)) s.settab }

/-- MAP_WRITE: the management host asks for a change of the stripe map, and firmware distributes it (R425, R428).
Argument: b = 0, region a takes the descriptor in words; b = 1, the next descriptor of region a from the cube whose firmware changes it; b = 2, set-table entries from a on, which no region uses; b = 3, cube a drains; b = 5, the first change that waits. `peer` is the cube that sends, none for the host. DESIGN CHOICE, unsafe: log entry 47. -/
def execMapWrite (s : State) : Host.Outcome State Fault Refusal :=
  let g := s.arg
  .next (
    if g.peer.isNone && !s.ready then s
    else match g.b with
    | 1 =>
      match stripesOf (g.words.getD 0 0).toNat (g.words.getD 1 0).toNat (g.words.getD 2 0).toNat with
      | none => s
      | some d => (s.setRegion g.a { s.region g.a with next := some d }).sendTo (g.peer.getD 0) 3 .mapPrepared { EvArg.zero with a := g.a, b := 1 }
    | 2 =>
      if 16384 < g.a + g.words.length ∨ (upTo g.words.length).any (fun i => s.entryUsed (g.a + i)) then s.sendOut .mapWrite { EvArg.zero with a := g.a, b := 4 }
      else
        let s := s.putSets g.a g.words
        if g.peer.isNone then s.toAll .mapWrite { EvArg.zero with a := g.a, b := 2, words := g.words } else s
    | 3 =>
      let s := { s with draining := if s.draining.contains g.a then s.draining else g.a :: s.draining }
      if g.peer.isNone then s.toAll .mapWrite { EvArg.zero with a := g.a, b := 3 } else s
    | 5 =>
      match s.mapQueue with
      | [] => s
      | q :: l => if s.mapBusy then s else { s with mapQueue := l }.askMap q
    | _ => s.askMap g)

/-- MAP_PREPARED: every cube has installed the next descriptor, and the region begins to move (R428).
Argument: a, the region; b = 1, `peer` has installed it; b = 2, the region moves, from the cube whose firmware changes it; else that cube's own step. -/
def execMapPrepared (s : State) : Host.Outcome State Fault Refusal :=
  let g := s.arg
  let move (s : State) : State := s.setRegion g.a { s.region g.a with moving := true, cursor := 0, frozen := false, copied := 0 }
  .next (
    if g.b = 1 then { s with mapWait := s.mapWait.filter (fun c => some c ≠ g.peer) }
    else if g.b = 2 then move s
    else if s.mapJob = some g.a ∧ s.mapWait = [] ∧ !(s.region g.a).moving ∧ (s.region g.a).next.isSome then
      (move s).toAll .mapPrepared { EvArg.zero with a := g.a, b := 2 }
    else s)

/-- Where the stripe at the cursor is and goes: home and local address, now and next. -/
def State.cursorHomes (s : State) (r : Region) : Option ((Nat × Nat) × (Nat × Nat)) :=
  match r.next with
  | some q =>
    if r.moving && r.cur.valid && decide (r.cursor < r.cur.size) then
      let a := r.cur.base + r.cursor * r.cur.bytes
      some (r.cur.home s.settab a, q.home s.settab a)
    else none
  | none => none

/-- Step 2 of a switch is over: accepted requests for the stripe are placed, and no line of it is held (R429). -/
def State.stripeQuiet (s : State) (r : Region) : Bool :=
  !s.reqs.any (fun q => !q.remote && !q.sampled && q.kind != .status && (r.cur.stripe q.pa).any (· == r.cursor))
    && !s.journal.any (fun j => j.guard && (r.cur.stripe (j.line * 128)).any (· == r.cursor))

/-- The cursor passes the stripe in this cube's copy, then in the others' (R429 step 4). -/
def State.passStripe (s : State) (i : Nat) (r : Region) (to_ : Nat) : State :=
  (s.setRegion i { r with cursor := to_, frozen := false, copied := 0 }).toAll .stripeSwitch { EvArg.zero with a := i, b := 1, c := to_ }

/-- The next 4 KiB of a frozen stripe go to their new place (R429 step 3). -/
def State.copyStripe (s : State) (i : Nat) (r : Region) (la cube la' : Nat) : State :=
  let pa := r.cur.base + r.cursor * r.cur.bytes + r.copied
  let (xs, s) := (upTo 256).foldl (fun (acc, t) j =>
    let (b, t) := t.readSector ((pa + 16 * j) / 128) (la + r.copied + 16 * j) 0
    (acc ++ [b], t)) (([] : List (List Byte × Bool)), s)
  let bytes := xs.flatMap (·.1)
  let bad := (upTo 4).map (fun k => BitVec.ofNat 64 (packBits (fun j => ((xs.getD (64 * k + j) ([], false)).2).toNat) 1 (upTo 64)))
  let s := s.setRegion i { r with copied := r.copied + 4096 }
  if cube = s.cube then s.placeCopy (la' + r.copied) bytes bad
  else
    let (id, s) := s.fresh
    let q : Req := { id := id, grp := id, kind := .status, core := 320, ctx := 0, agent := 2 ^ 52, tenant := 0, launch := 0, dest := .none, pa := 0
                     size := 0, data := [], mask := [], sampled := false, poison := false, attr := cube, user := false, since := 0, acq := 0
                     remote := true, sent := true, pc := 0 }
    (s.addReq q).sendTo cube 2 .remoteRequest { EvArg.zero with a := id, c := 42, d := 4096, w := BitVec.ofNat 64 (la' + r.copied), bytes := bytes, words := bad }

/-- STRIPE_SWITCH: the home of the stripe at the cursor freezes it, copies it and passes the cursor (R428, R429).
Argument: a, the region; b = 1, another cube has passed the cursor to c. DESIGN CHOICE, unsafe: log entry 64. -/
def execStripeSwitch (s : State) : Host.Outcome State Fault Refusal :=
  let g := s.arg
  let r := s.region g.a
  .next (
    if g.b = 1 then
      if r.moving ∧ r.cursor < g.c then s.setRegion g.a { r with cursor := g.c, frozen := false, copied := 0 } else s
    else
      match s.cursorHomes r with
      | none =>
        match r.next with
        | some q => if r.moving && !r.cur.valid && decide (r.cursor < q.size) && s.mapJob == some g.a then s.passStripe g.a r q.size else s
        | none => s
      | some ((c, la), (c', la')) =>
        if c ≠ s.cube then s
        else if c' = c ∧ la' = la then s.passStripe g.a r (r.cursor + 1)
        else if !r.frozen then s.setRegion g.a { r with frozen := true, copied := 0 }
        else if r.copied < r.cur.bytes then if r.copied ≠ 0 ∨ s.stripeQuiet r then s.copyStripe g.a r la c' la' else s
        else if s.reqs.any (fun q => q.agent == 2 ^ 52) then s
        else s.passStripe g.a r (r.cursor + 1))

/-- The next descriptor becomes current and G advances in this cube's copy; the next cuts are full (R428, R430). -/
def State.commitMap (s : State) (i : Nat) : State :=
  let r := s.region i
  match r.next with
  | none => s
  | some q =>
    let g := (s.mapgen + 1) % 16
    { s.setRegion i { cur := q, next := none, cursor := 0, moving := false, gen := g, frozen := false, copied := 0 } with
      mapgen := g, mapLast := s.time, ivals := s.ivals.map (fun (e : Nat × Ival) => (e.1, { e.2 with stale := true })) }

/-- Every stripe has switched, and 100 µs have passed since the last commit (R428). -/
def State.mayCommit (s : State) (i : Nat) : Bool :=
  let r := s.region i
  s.mapJob == some i && r.moving && r.next.any (fun q => decide (q.size ≤ r.cursor)) && (s.mapLast == 0 || decide (s.mapLast + 100000 ≤ s.time))

/-- MAP_COMMIT: every cube makes the next descriptor current and acknowledges it; then the region is STABLE (R428).
Argument: a, the region; b = 1, the order from the cube whose firmware changes it; b = 2, `peer` has committed; else that cube's own step. -/
def execMapCommit (s : State) : Host.Outcome State Fault Refusal :=
  let g := s.arg
  .next (
    if g.b = 1 then (s.commitMap g.a).sendTo (g.peer.getD 0) 3 .mapCommit { EvArg.zero with a := g.a, b := 2 }
    else if g.b = 2 then { s with mapWait := s.mapWait.filter (fun c => some c ≠ g.peer) }
    else if s.mayCommit g.a then
      { s.commitMap g.a with mapWait := s.peers }.toAll .mapCommit { EvArg.zero with a := g.a, b := 1 }
    else if s.mapJob = some g.a ∧ (s.region g.a).next.isNone ∧ s.mapWait = [] then { s with mapJob := none }
    else s)

/-- A draining cube is in no region's set, and 100 µs have passed since the last commit (R428). -/
def State.mayRemove (s : State) (c : Nat) : Bool :=
  s.draining.contains c && decide (s.mapLast + 100000 ≤ s.time)
    && s.regions.all (fun e => !(e.2.cur.valid && (s.setOf e.2.cur).contains c) && !e.2.next.any (fun d => (s.setOf d).contains c))

/-- CUBE_REMOVAL: routing stops using a draining cube (R428).
Argument: a, the cube. -/
def execCubeRemoval (s : State) : Host.Outcome State Fault Refusal :=
  let c := s.arg.a
  .next (if s.mayRemove c then { s with draining := s.draining.filter (· ≠ c), peers := s.peers.filter (· ≠ c), pdcs := s.pdcs.filter (fun (p : Pdc) => p.peer ≠ c) }
    else s)

end Sys2Proof.Machine
end

