-- ==== Sys2Proof/Machine/Host.lean ====
section
/-! DEFINITION. The host port: apertures, launch windows, control pages, cancellation of jobs, and the commands that create, reset and destroy tenants (R380 to R382, R445 to R460). -/

namespace Sys2Proof.Machine

/-! ### Apertures -/

/-- One more refused or malformed host access (R452). -/
def State.herr (s : State) (t : Nat) : State :=
  let p := s.page t
  s.setPage t { p with herr := (p.herr + 1) % 2 ^ 64 }

/-- The first offset of the aperture in a logical device's range (R446). -/
def apertureBase : Nat := 2 ^ 48

/-- What a control-page register reads as (R452, R462). -/
def HostPage.read (p : HostPage) (o : Nat) : Nat :=
  if o = 0x000 then p.wacc
  else if o = 0x008 then p.wref
  else if o = 0x010 then p.wrefmap
  else if o = 0x018 then p.herr
  else if o = 0x028 then p.busy.toNat * 2 ^ 63 + p.job * 2 ^ 32 + p.pending.length
  else if o = 0x030 then p.evcause
  else if o = 0x080 then p.rstk.toNat
  else if o = 0x088 then p.rstbase.toNat
  else if o = 0x090 then p.rstrep.toNat
  else if o = 0x098 then (match p.rst with
    | .idle => 0
    | .running => 1
    | .done => 2
    | .failed => 3)
  else if 0x100 ≤ o ∧ o < 0x180 then (smGet 0 p.steal ((o - 0x100) / 8)).toNat
  else 0

/-- The completion of a host read: 64 bytes, with the poison indication or not. -/
def State.hostData (s : State) (g : EvArg) (b : List Byte) (bad : Bool) : State :=
  s.sendOut .apertureRead { EvArg.zero with a := g.a, b := 1, c := bad.toNat, d := g.d, w := g.w, bytes := b }

/-- The host line of a tenant's aperture translated: U is not checked (R447). -/
def State.hostXlate (s : State) (g : EvArg) (store : Bool) : Xl := s.xlate g.a (g.w.toNat - apertureBase) false store

/-- APERTURE_READ: a host read of a line of a logical device (R446, R447, R452, R453).
Argument: a, the device; d, the host's tag; w, the offset of the line; far, table entries of other cubes; bytes and c, the data of another cube's line and whether they are uncorrectable. DESIGN CHOICE, unsafe: log entry 51. -/
def execApertureRead (s : State) : Host.Outcome State Fault Refusal :=
  let g := s.arg
  let h := g.w.toNat
  .next (
    if !(s.tenant g.a).live then s
    else if h < 0x1000 then s.hostData g (List.replicate 64 0) false
    else if h < 0x2000 then s.hostData g ((upTo 8).flatMap (fun i => toBytes ((s.page g.a).read (h - 0x1000 + 8 * i)) 8)) false
    else if h < apertureBase then (s.herr g.a).hostData g (List.replicate 64 0) true
    else
      match s.hostXlate g false with
      | .fault _ _ => (s.herr g.a).hostData g (List.replicate 64 0) true
      | .wait pa => s.ask pa 8
      | .ok pa _ =>
        match s.unitRead 0 pa 64 with
        | none => s.ask pa 64
        | some ((b, bad), t) => t.hostData g b (bad || (s.isRemote pa && g.c != 0)))

/-- The completion of a host write: 0 done, 1 refused, 2 an error response (R260, R447). -/
def State.hostDone (s : State) (g : EvArg) (status : Nat) : State :=
  s.sendOut .apertureWrite { EvArg.zero with a := g.a, b := 1, c := status, d := g.d, w := g.w }

/-- The four sector writes of a host line: offsets within each sector of the enabled bytes. -/
def hostSectors (g : EvArg) (pa : Nat) : List (Nat × List (Nat × Byte)) :=
  ((upTo 4).map (fun i => (pa + 16 * i, ((upTo 16).filter (fun o => bitAt g.e (16 * i + o))).map (fun o => (o, g.bytes.getD (16 * i + o) 0))))).filter
    (fun q => !q.2.isEmpty)

/-- Sector writes of the host placed here; nothing while one of them has to wait (R260, R394). -/
def State.placeHost (s : State) : List (Nat × List (Nat × Byte)) → Option State
  | [] => some s
  | (pa, bs) :: r =>
    match s.placeWrite { line := pa / 128, la := s.localAddr pa, bytes := bs, bad := false, tenant := 0, attr := 0, launch := 0 } with
    | some t => t.placeHost r
    | none => none

/-- Sector writes of the host that go to another cube; the identities of the requests. -/
def State.sendHost (s : State) : List (Nat × List (Nat × Byte)) → List Nat × State
  | [] => ([], s)
  | (pa, bs) :: r =>
    let (id, s) := s.fresh
    let q : Req := { id := id, grp := id, kind := .store, core := 320, ctx := 0, agent := 2 ^ 53, tenant := 0, launch := 0, dest := .none, pa := pa
                     size := 16, data := (upTo 16).map (fun o => ((bs.find? (fun x => x.1 == o)).map (·.2)).getD 0), mask := bs.map (·.1)
                     sampled := false, poison := false, attr := 0, user := false, since := 0, acq := 0, remote := true, sent := false, pc := 0 }
    let (ids, s) := ((s.addReq q).sendRemote q).sendHost r
    (id :: ids, s)

/-- A host write that has been translated: done, sent, or kept waiting. -/
def State.hostWrite (s : State) (g : EvArg) (pa : Nat) : State :=
  let l := hostSectors g pa
  if s.isRemote pa then
    let (ids, s) := s.sendHost l
    { s with hostOps := s.hostOps ++ [{ g with b := 0, c := 0, far := [], words := ids.map (BitVec.ofNat 64) }] }
  else
    match s.placeHost l with
    | some s => s.hostDone g 0
    | none => { s with hostOps := s.hostOps ++ [{ g with b := pa, c := 0, far := [BitVec.ofNat 64 s.time], words := [] }] }

/-- The waiting of a host write at a held line has lasted 1 ms (R260). -/
def State.hostLate (s : State) (q : EvArg) : Bool :=
  (s.heldBy (q.b / 128)).isSome && q.far.any (fun t => decide (t.toNat + 1000000 ≤ s.time))

/-- A waiting host write goes on: its requests have been acknowledged, it is placed, or it ends with an error response (R260). -/
def State.hostRetry (s : State) (i : Nat) (q : EvArg) : State :=
  let rest := { s with hostOps := s.hostOps.eraseIdx i }
  if q.far.isEmpty then
    if s.reqs.any (fun r => q.words.contains (BitVec.ofNat 64 r.id)) then s else rest.hostDone q (if q.c = 0 then 0 else 2)
  else if s.isRemote q.b then rest.hostWrite q q.b
  else
    match s.placeHost (hostSectors q q.b) with
    | some t => { t with hostOps := t.hostOps.eraseIdx i }.hostDone q 0
    | none => if s.hostLate q then rest.hostDone q 2 else s

/-- APERTURE_WRITE: a host write through the aperture (R447).
Argument: a, the device; d, the host's tag; w, the offset of the line; bytes, and their enables in e; far, table entries of other cubes; b = 1, the waiting write in place c goes on. -/
def execApertureWrite (s : State) : Host.Outcome State Fault Refusal :=
  let g := s.arg
  .next (
    if g.b = 1 then
      match s.hostOps[g.c]? with
      | none => s
      | some q => s.hostRetry g.c q
    else if !(s.tenant g.a).live || decide (g.w.toNat < apertureBase) then s
    else
      match s.hostXlate g true with
      | .fault _ _ => (s.herr g.a).hostDone g 1
      | .wait pa => s.ask pa 8
      | .ok pa _ => s.hostWrite g pa)

/-- UNBACKED_ACCESS: a read gives data with the poison indication, a write is discarded, and HERR rises (R446).
Argument: a, the device; b = 1 for a write; d, the host's tag; w, the offset. -/
def execUnbackedAccess (s : State) : Host.Outcome State Fault Refusal :=
  let g := s.arg
  .next (
    if !(s.tenant g.a).live then s
    else if g.b = 1 then (s.herr g.a).hostDone g 1
    else (s.herr g.a).hostData g (List.replicate 64 0) true)

/-! ### Launch windows and control pages -/

/-- LAUNCH_WINDOW_WRITE: a full line is an LPB, accepted or refused (R450, R451).
Argument: a, the device; w, the offset; bytes, and their enables in e. DESIGN CHOICE, unsafe: log entry 50. -/
def execLaunchWindowWrite (s : State) : Host.Outcome State Fault Refusal :=
  let g := s.arg
  let t := g.a
  let slot := g.w.toNat / 64 % 64
  .next (
    if !(s.tenant t).live then s
    else if g.e ≠ 2 ^ 64 - 1 then s.herr t
    else
      let p := s.page t
      if s.bufferFull t then
        let s := s.setPage t { p with wref := (p.wref + 1) % 2 ^ 64, wrefmap := setBit p.wrefmap slot true }
        if p.wrefmap = 0 then s.raiseCause t 3 else s
      else
        (s.setPage t { p with wacc := (p.wacc + 1) % 2 ^ 64 }).accept t ((upTo 8).map (fun i => fieldAt g.bytes (8 * i) 8)) (some (t, slot)))

/-- A write to a register, when its byte enables cover exactly the register's 8 bytes and the tenant exists (R453). DEDUCED, unsafe: log entry 49. -/
def State.pageWrite (s : State) (f : HostPage → State) : State :=
  let t := s.arg.a
  if !(s.tenant t).live then s
  else if s.arg.b = 1 then s.herr t
  else f (s.page t)

/-- A STEALCFG value breaks R462. -/
def stealBad (w : Nat) : Bool := bits w 15 2 != 0 || decide (2 ≤ w % 4)

/-- Writing 1s clears refused-slot bits (R452). -/
def State.writeWrefmap (s : State) (t : Nat) (p : HostPage) (w : Nat) : State :=
  s.setPage t { p with wrefmap := p.wrefmap &&& (w ^^^ (2 ^ 64 - 1)) }

/-- Writing 1s clears event-cause bits (R452). -/
def State.writeEvcause (s : State) (t : Nat) (p : HostPage) (w : Nat) : State :=
  s.setPage t { p with evcause := p.evcause &&& (w ^^^ (2 ^ 64 - 1)) }

/-- A write with go = 1 starts the restore, unless one runs (R452, R453). DEDUCED, unsafe: log entry 55. -/
def State.writeRstctl (s : State) (t : Nat) (p : HostPage) (w : Nat) : State :=
  if p.rst = .running then s.herr t
  else if bitAt w 63 then s.setPage t { p with rst := .running }
  else s

/-! ### Cancellation -/

/-- A thread, launch or parcel of a job is on this cube (R460). -/
def State.jobHere (s : State) (t j : Nat) : Bool :=
  let mine (id : Nat) : Bool := s.launches.any (fun l => l.id == id && l.tenant == t && l.job == j)
  s.ctxs.any (fun e => e.1 % 16 != 8 && e.2.occ && e.2.tenant == t && e.2.job == j)
    || s.stored.any (fun x => x.ctx.tenant == t && x.ctx.job == j)
    || s.launches.any (fun l => l.tenant == t && l.job == j)
    || s.tiles.any (fun e => e.2.parcels.any (fun p => mine p.launch)) || s.moving.any (fun m => mine m.2.launch)

/-- Effects of a cancellation on this cube that are not complete: threads and launches that have not ended (R458, R459). -/
def State.jobRuns (s : State) (t j : Nat) : Bool :=
  s.ctxs.any (fun e => e.1 % 16 != 8 && e.2.occ && e.2.tenant == t && e.2.job == j)
    || s.stored.any (fun x => x.ctx.tenant == t && x.ctx.job == j)
    || s.launches.any (fun l => l.tenant == t && l.job == j && l.active && decide (l.phase < 2))

/-- A command aborted with its own late fault (R290, R316, R326, R333, R443, R459). -/
def State.abortCmd (s : State) (c : Cmd) : State :=
  match c.cls with
  | .push => s.failCmd c ⟨0x12, 0x0C, 0⟩
  | .collective => s.failColl c 0x0C 0
  | .matrix => s.failCmd c ⟨0x11, 8, 0⟩
  | .health =>
    -- a started `mremap` is indivisible: what comes takes effect after it
    if c.st = .started ∧ c.opc = 1 then s.remap c
    else (if c.st = .started then s.setArray c.unit (s.array c.unit).untested else s).failCmd c ⟨0x11, 8, 0⟩

/-- Commands aborted; one that an earlier fault has discarded is no more. -/
def State.abortCmds (s : State) (p : Cmd → Bool) : State :=
  (s.cmds.filter p).foldl (fun s c =>
    match s.cmd c.id with
    | some c => s.abortCmd c
    | none => s) s

/-- Cistern invocations aborted, with their own pushes (R345, R349). -/
def State.abortInvs (s : State) (p : Inv → Bool) : State :=
  (s.invs.filter p).foldl (fun s n =>
    ({ s with cmds := s.cmds.filter (fun (c : Cmd) => !(c.ofCistern && c.num == n.id)) }).invFail n 0x0C 0) s

/-- The job of a packet that R459 names, by what the packet carries. -/
def Ev.jobIs (e : Ev) (t j : Nat) : Bool :=
  let w (i : Nat) : Nat := (e.arg.words.getD i 0).toNat
  match e.op with
  | .messageArrival => e.arg.pkt.any (fun p => p.tenant == t && p.job == j)
  | .fillArrival => e.arg.pkt.any (fun p => p.tenant == t && p.job == j)
  | .relocationArrival => e.arg.b == 2 && w 1 == t && w 2 == j
  | .stealRequest => w 0 == t && w 1 == j
  | .doneReport => w 0 == t && w 1 == j
  | .returnReport => w 0 == t && w 1 == j
  | _ => false

/-- The request in this cube that waits for a packet's status. -/
def Ev.waits (e : Ev) : Option Nat :=
  match e.op with
  | .messageArrival => e.arg.pkt.map (·.req)
  | .fillArrival => e.arg.pkt.map (·.req)
  | .stealRequest => some e.arg.b
  | _ => none

/-- Packets of a job that await acknowledgement are abandoned, and their senders receive 4 (R459). -/
def State.abandonPackets (s : State) (t j : Nat) : State :=
  let gone := (s.pdcs.flatMap (fun p => (p.sent.map (·.ev)).filter (fun e => e.jobIs t j))) ++ (s.pdcWait.map (·.2)).filter (fun e => e.jobIs t j)
  let s := { s with pdcs := s.pdcs.map (fun (p : Pdc) => { p with sent := p.sent.filter (fun (x : Sent) => !x.ev.jobIs t j) })
                    pdcWait := s.pdcWait.filter (fun p => !p.2.jobIs t j) }
  (gone.filterMap (·.waits)).foldl (fun s id => s.answer id 4) s

/-- Every thread of a job on this cube is terminated, and the steward of its core takes CANCEL (R370, R459). -/
def State.cancelThreads (s : State) (t j : Nat) : State :=
  let s := { s with stored := s.stored.filter (fun (x : Stored) => !(x.ctx.tenant == t && x.ctx.job == j && decide (25 ≤ x.slot) && !x.ret)) }
  let ks := (s.ctxs.filter (fun e => e.1 % 16 != 8 && e.2.occ && e.2.tenant == t && e.2.job == j && e.2.park != some .away)).map (·.1)
  let s := ks.foldl (fun s k => (s.killCtx k).raise (k / 16) (StewEvent.of t 0x15 0 (s.ctx k).name)) s
  (s.stored.filter (fun x => x.ctx.tenant == t && x.ctx.job == j)).foldl
    (fun s x => (s.killStored x).raise x.core (StewEvent.of t 0x15 0 x.ctx.name)) s

/-- A launch of a cancelled job ends CANCELLED: a running one is discarded if it is guarded and leaves its parcels; one that has not run gives its tiles back (R459). -/
def State.cancelLaunch (s : State) (l : Launch) : State :=
  match l.st with
  | .running =>
    let s := if l.guard = .hold then s.discardGuard l.id else s
    let s := { s with tiles := s.tiles.map (fun (e : Nat × TileSt) => (e.1, { e.2 with parcels := e.2.parcels.filter (fun (p : Parcel) => p.launch ≠ l.id) })) }
    (s.clearLaunch l.id).mapLaunch l.id (fun l => { l with st := .completing, status := 5, phase := 0, guard := .none })
  | .completing => s
  | .rejected => s
  | .failed => s
  | _ => ((s.unreserve l.tiles).mapLaunch l.id (fun l => { l with st := .failed, status := 5, phase := 0, tiles := [], engine := false, head := false })).wakeScans

/-- The effects of a cancellation on this cube (R459). DESIGN CHOICE, unsafe: log entry 52. -/
def State.cancelJob (s : State) (t j : Nat) : State :=
  let s := s.abortCmds (fun c => c.tenant == t && c.job == j && !c.ofCistern)
  let s := s.abortInvs (fun n => n.tenant == t && n.job == j)
  let s := (s.cancelCuts t j).cancelThreads t j
  let s := (s.launches.filter (fun l => l.tenant == t && l.job == j)).foldl (fun s l => s.cancelLaunch l) s
  s.abandonPackets t j

/-- This cube has acknowledged at the coordinator, itself or another (R458). -/
def State.ackCancel (s : State) (t j coord cube : Nat) : State :=
  if coord = s.cube then
    let p := s.page t
    if p.busy ∧ p.job = j then s.setPage t { p with pending := p.pending.filter (· ≠ cube) } else s
  else s.sendTo coord 3 .cancelAck { EvArg.zero with a := t, b := 1, c := j }

/-- A CANCEL of a job: acknowledged at once when its entry is held, kept while the filter is full, and else applied (R458 to R460). -/
def State.applyCancel (s : State) (t j coord : Nat) : State :=
  if s.cancelled t j then s.ackCancel t j coord s.cube
  else if 64 ≤ s.filters.length then { s with cancels := s.cancels ++ [(t, j, coord)] }
  else
    let f : Filter := { tenant := t, job := j, since := s.time, done := none, coord := coord, acked := false }
    let s : State := { s with filters := s.filters ++ [f] }
    s.cancelJob t j

/-- A write of CANCEL: a reserved bit or an open cancellation makes it malformed, go = 1 starts one (R452, R453, R458). -/
def State.writeCancel (s : State) (t : Nat) (p : HostPage) (w : Nat) : State :=
  let j := w % 2 ^ 24
  if bits w 62 24 ≠ 0 ∨ p.busy then s.herr t
  else if !bitAt w 63 then s
  else
    let s := s.setPage t { p with busy := true, job := j, pending := s.cube :: s.peers }
    (s.applyCancel t j s.cube).toAll .cancelPacket { EvArg.zero with a := t, b := j, c := s.cube }

/-- CONTROL_REGISTER_WRITE: a host write to the control page (R452, R453, R462).
Argument: a, the device; c, the register's offset; w, the value; b = 1, the enables do not cover exactly one register. -/
def execControlRegisterWrite (s : State) : Host.Outcome State Fault Refusal :=
  let o := s.arg.c
  let t := s.arg.a
  let v := s.arg.w
  .next (s.pageWrite (fun p =>
    if o = 0x000 ∨ o = 0x008 ∨ o = 0x018 ∨ o = 0x028 then s
    else if o = 0x010 then s.writeWrefmap t p v.toNat
    else if o = 0x020 then s.writeCancel t p v.toNat
    else if o = 0x030 then s.writeEvcause t p v.toNat
    else if o = 0x080 then s.setPage t { p with rstk := v }
    else if o = 0x088 then s.setPage t { p with rstbase := v }
    else if o = 0x090 then s.setPage t { p with rstrep := v }
    else if o = 0x098 then s.writeRstctl t p v.toNat
    else if 0x100 ≤ o ∧ o < 0x180 ∧ o % 8 = 0 then
      if stealBad v.toNat then s.herr t else s.setPage t { p with steal := smPut 0 p.steal ((o - 0x100) / 8) v }
    else s.herr t))

/-- WREFMAP: writing 1s clears refused-slot bits (R452).
Argument: a, the device; w, the value; b = 1, the enables do not cover exactly the register. -/
def execWrefmap (s : State) : Host.Outcome State Fault Refusal :=
  .next (s.pageWrite (fun p => s.writeWrefmap s.arg.a p s.arg.w.toNat))

/-- EVCAUSE: writing 1s clears event-cause bits (R452).
Argument: a, the device; w, the value; b = 1, the enables do not cover exactly the register. -/
def execEvcause (s : State) : Host.Outcome State Fault Refusal :=
  .next (s.pageWrite (fun p => s.writeEvcause s.arg.a p s.arg.w.toNat))

/-- CANCEL: a write with go = 1 starts a cancellation in the whole domain (R458).
Argument: a, the device; w, the value; b = 1, the enables do not cover exactly the register. -/
def execCancel (s : State) : Host.Outcome State Fault Refusal :=
  .next (s.pageWrite (fun p => s.writeCancel s.arg.a p s.arg.w.toNat))

/-- RSTCTL: a write with go = 1 starts the restore of this cube's share (R452).
Argument: a, the device; w, the value; b = 1, the enables do not cover exactly the register. -/
def execRstctl (s : State) : Host.Outcome State Fault Refusal :=
  .next (s.pageWrite (fun p => s.writeRstctl s.arg.a p s.arg.w.toNat))

/-- CANCEL_PACKET: a cube sets its cancel filter and ends what the job has on it (R458, R459).
Argument: a, the tenant; b, the job; c, the coordinator. -/
def execCancelPacket (s : State) : Host.Outcome State Fault Refusal := .next (s.applyCancel s.arg.a s.arg.b s.arg.c)

/-- The filter entry of a job, changed. -/
def State.mapFilter (s : State) (t j : Nat) (f : Filter → Filter) : State :=
  { s with filters := s.filters.map (fun (x : Filter) => if x.tenant = t ∧ x.job = j then f x else x) }

/-- The notice that a cancellation is done has come (R460). -/
def State.cancelIsDone (s : State) (t j : Nat) : State := s.mapFilter t j (fun x => { x with done := some s.time })

/-- Every cube has acknowledged: CANSTAT and EVCAUSE change, and the notice goes out (R458 step 5). -/
def State.cancelComplete (s : State) (t : Nat) : State :=
  let p := s.page t
  if p.busy && p.pending.isEmpty then
    (((s.setPage t { p with busy := false }).raiseCause t 0).cancelIsDone t p.job).toAll .cancelDone { EvArg.zero with a := t, b := p.job }
  else s

/-- CANCEL_ACK: a cube acknowledges a cancellation whose effects are complete on it, and at none pending the coordinator completes it (R458).
Argument: a, the tenant; b = 1, the acknowledgement of `peer` for job c; b = 2, the coordinator completes; else this cube acknowledges job c. -/
def execCancelAck (s : State) : Host.Outcome State Fault Refusal :=
  let g := s.arg
  .next (
    if g.b = 2 then s.cancelComplete g.a
    else if g.b = 1 then (s.ackCancel g.a g.c s.cube (g.peer.getD s.cube)).cancelComplete g.a
    else
      match s.filters.find? (fun x => x.tenant == g.a && x.job == g.c) with
      | none => s
      | some x =>
        if x.acked || s.jobRuns g.a g.c then s
        else ((s.mapFilter g.a g.c (fun x => { x with acked := true })).ackCancel g.a g.c x.coord s.cube).cancelComplete g.a)

/-- CANCEL_DONE: the notice that a cancellation is done (R460).
Argument: a, the tenant; b, the job. -/
def execCancelDone (s : State) : Host.Outcome State Fault Refusal := .next (s.cancelIsDone s.arg.a s.arg.b)

/-- A filter entry may be freed (R460). -/
def State.filterOver (s : State) (x : Filter) : Bool :=
  decide (x.since + 100000 ≤ s.time) && x.done.any (fun d => decide (d + 60000 ≤ s.time)) && !s.jobHere x.tenant x.job

/-- FILTER_ENTRY_EXPIRY: an entry is freed, and a CANCEL that waits for one is applied (R460).
Argument: a, the tenant; b, the job. -/
def execFilterEntryExpiry (s : State) : Host.Outcome State Fault Refusal :=
  .next (
    match s.filters.find? (fun x => x.tenant == s.arg.a && x.job == s.arg.b) with
    | none => s
    | some x =>
      if s.filterOver x then
        let s := { s with filters := s.filters.filter (fun (y : Filter) => !(y.tenant == x.tenant && y.job == x.job)) }
        match s.cancels with
        | [] => s
        | (t, j, k) :: l => { s with cancels := l }.applyCancel t j k
      else s)

/-! ### Tenants -/

/-- The answer to a command of the management device: 0 Success, 1 Invalid Input (R456). -/
def State.fmAnswer (s : State) (op : Instr) (t code : Nat) : State := s.sendOut op { EvArg.zero with a := t, b := 1, c := code }

/-- The tenant registers break R357. -/
def tenantBad (xroot tvec spill : Nat) : Bool :=
  xroot / 2 ^ 52 != 0 || xroot % 4096 != 0 || tvec / 2 ^ 56 != 0 || tvec % 256 != 0 || spill / 2 ^ 56 != 0 || spill % 8192 != 0

/-- TENANT_CREATE: creates a tenant on this cube (R380, R456).
Argument: a, the tenant; words, xroot, tvec, spill, and the mask of grantable tiles in two words. -/
def execTenantCreate (s : State) : Host.Outcome State Fault Refusal :=
  let t := s.arg.a
  let w (i : Nat) : Word := s.arg.words.getD i 0
  .next (
    if !s.ready ∨ 16 ≤ t ∨ (s.tenant t).live ∨ tenantBad (w 0).toNat (w 1).toNat (w 2).toNat then s.fmAnswer .tenantCreate t 1
    else
      ((s.setTenant t { live := true, tvec := w 1, xroot := w 0, spill := w 2, tiles := (w 3).toNat + (w 4).toNat * 2 ^ 64, dir := [] }).setPage t
        HostPage.zero).fmAnswer .tenantCreate t 0)

/-- A launch of a tenant that is reset ends FAULTED; a running one gives its cluster back, and its tiles are to be scrubbed (R382 steps 2 and 7). -/
def State.resetLaunch (s : State) (l : Launch) : State :=
  match l.st with
  | .rejected => s
  | .failed => s
  | .received => s.mapLaunch l.id (fun l => { l with st := .failed, status := 6, phase := 0 })
  | .waiting => s.mapLaunch l.id (fun l => { l with st := .failed, status := 6, phase := 0 })
  | .placing => (s.unreserve l.tiles).mapLaunch l.id (fun l => { l with st := .failed, status := 6, phase := 0, tiles := [], engine := false, head := false })
  | _ =>
    let ts := s.cluster l.id
    let s := if l.guard = .hold then s.discardGuard l.id else s
    let s := ((s.returnBorrowed l).clearLaunch l.id).releaseCluster l
    let s := ts.foldl (fun s t => s.setTile t { s.tile t with scrubbed := false, last := some l.tenant, scrubbing := true }) s
    s.mapLaunch l.id (fun l => { l with st := .completing, status := if l.phase < 2 then 6 else l.status, phase := max l.phase 1, guard := .none })

/-- Every thread of a tenant on this cube is terminated, those away as moths elsewhere too (R382 step 1). -/
def State.resetThreads (s : State) (t : Nat) : State :=
  let s := (s.ctxs.filter (fun e => e.2.occ && e.2.tenant == t && e.2.park == some .away && s.nameCube t e.2.name != s.cube)).foldl (fun s e =>
    s.sendTo (s.nameCube t e.2.name) 3 (.ctxKill 0 0 false) { EvArg.zero with b := e.2.name, c := t, d := s.cube }) s
  let s := { s with stored := s.stored.filter (fun (x : Stored) => !(x.ctx.tenant == t && decide (25 ≤ x.slot) && !x.ret)) }
  let ks := (s.ctxs.filter (fun e => e.1 % 16 != 8 && e.2.occ && e.2.tenant == t)).map (·.1)
  let s := ks.foldl (fun s k => if (s.ctx k).occ then s.killCtx k else s) s
  (s.stored.filter (fun x => x.ctx.tenant == t)).foldl (fun s x => if s.stored.contains x then s.killStored x else s) s

/-- The tenant's steward events are discarded, the one that is handled too (R382 step 5). -/
def State.dropEvents (s : State) (t : Nat) : State :=
  let other (e : StewEvent) : Bool := e.fw || e.tenant != t
  let busy := (s.cores.filter (fun c => c.2.event.any (fun e => !other e))).map (·.1)
  let s := busy.foldl (fun s c => endEvent s c) s
  { s with cores := s.cores.map (fun (c : Nat × CoreSt) => (c.1, { c.2 with queue := c.2.queue.filter other, waiting := c.2.waiting.filter other
                                                                            ring := c.2.ring.filter (fun (r : RingEntry) => r.tenant ≠ t) })) }

/-- The counters that a tenant owns, changed (R382 step 6, R456). -/
def State.mapOwned (s : State) (t : Nat) (f : Counter → Counter) : State :=
  { s with ctrs := s.ctrs.map (fun (c : Nat × Counter) => if c.2.owner = some t then (c.1, f c.2) else c) }

/-- The steps of a tenant reset (R382). DESIGN CHOICE, unsafe: log entry 53. -/
def State.resetTenant (s : State) (t : Nat) : State :=
  let s := s.resetThreads t
  let s := (s.launches.filter (fun l => l.tenant == t)).foldl (fun s l => s.resetLaunch l) s
  let s := (s.abortCmds (fun c => c.tenant == t && !c.ofCistern)).abortInvs (fun n => n.tenant == t)
  let s := { s with tlbs := s.tlbs.map (fun (q : Nat × List TlbEntry) => (q.1, q.2.filter (fun (e : TlbEntry) => e.tenant ≠ t)))
                    walks := s.walks.filter (fun (w : Walk) => w.tenant ≠ t) }
  let s := (s.groups.filter (fun g => g.tenant == t)).foldl (fun s g => s.dissolveAll g true) s
  let s := ({ s with colls := s.colls.filter (fun (k : Coll) => k.tenant ≠ t), births := s.births.filter (fun (b : Birth) => b.tenant ≠ t) }.dropEvents t).mapOwned t Counter.reset_
  (s.net.filter (fun p => p.tenant == t)).foldl (fun s p => s.settlePacket p 7) s.wakeScans

/-- TENANT_RESET (R382, R456).
Argument: a, the tenant. -/
def execTenantReset (s : State) : Host.Outcome State Fault Refusal :=
  let t := s.arg.a
  .next (if !s.ready || !(s.tenant t).live then s.fmAnswer .tenantReset t 1 else ((s.resetTenant t).raiseCause t 2).fmAnswer .tenantReset t 0)

/-- TENANT_DESTROY: the reset, with the scrub of every tile that the tenant last held; then nothing is the tenant's any more (R381, R456).
Argument: a, the tenant. -/
def execTenantDestroy (s : State) : Host.Outcome State Fault Refusal :=
  let t := s.arg.a
  .next (
    if !s.ready || !(s.tenant t).live then s.fmAnswer .tenantDestroy t 1
    else
      let s := (s.resetTenant t).mapOwned t (fun _ => Counter.zero)
      let s := { s with tiles := s.tiles.map (fun (e : Nat × TileSt) => if e.2.last = some t ∧ e.2.owner.isNone then (e.1, { e.2 with scrubbing := true }) else e) }
      ((s.setTenant t Tenant.zero).setPage t HostPage.zero).fmAnswer .tenantDestroy t 0)

end Sys2Proof.Machine
end

