-- ==== Sys2Proof/Machine/Power.lean ====
section
/-! DEFINITION. Resets, boot, identity, the sideband and the power limiter (R392, R415, R477 to R486). -/

namespace Sys2Proof.Machine

/-! ### Resets -/

/-- What outlasts every reset: what is outside the cube, the boot flash with its records, and the model's own counters. A written board record takes effect (R477, R485). -/
def State.resetKeep (s : State) (cold activate : Bool) : State :=
  { State.reset with
    free := s.free, nid := s.nid, inputs := s.inputs, outbox := s.outbox
    fw := { State.reset.fw with cold := cold, bootsel := s.fw.bootsel, activate := activate, flash := s.fw.flash, repair := s.fw.repair
                                board := s.fw.boardNext, boardNext := s.fw.boardNext } }

/-- Cells of DRAM, below the keys of tile stores and local memories. -/
def dramCells (m : List Host.Cell) : List Host.Cell := m.filter (fun c => decide (c.1 < 2 ^ 39))

/-- A warm reset: all state but DRAM contents with their check words, and BERR (R482). -/
def State.warmReset (s : State) (activate : Bool) : State :=
  { s.resetKeep false activate with mem := dramCells s.mem, ecc := s.ecc, berr := s.berr }

/-- COLD_RESET: PWRGD rises, or RESET_N is held low: all state, DRAM contents too (R482).
Argument: b, the level of BOOTSEL. -/
def execColdReset (s : State) : Host.Outcome State Fault Refusal :=
  let t := s.resetKeep true false
  .next { t with fw := { t.fw with bootsel := s.arg.b == 1 } }

/-- POWER_DOWN: the rails fall, and the cube holds no state at all (R478). -/
def execPowerDown (s : State) : Host.Outcome State Fault Refusal := .next { s.resetKeep true false with power := false }

/-- Every command of the sideband that still runs or waits ends with an error response: only a stripe-map change takes longer than one event (R485). -/
def State.endCommands (s : State) : State :=
  (s.mapJob.toList ++ s.mapQueue.map (fun (g : EvArg) => g.a)).foldl (fun (s : State) r => s.sendOut .mapWrite { EvArg.zero with a := r, b := 4 }) s

/-- WARM_RESET, by the sideband (R482, R485): every running command ends with an error response, and until READY the sideband answers only GET-ID and GET-STATUS. -/
def execWarmReset (s : State) : Host.Outcome State Fault Refusal := .next (if s.ready then s.endCommands.warmReset false else s)

/-! ### Boot -/

/-- The public key whose digest is fused, the fused security version, and whether the fuses cannot be read (R482). DESIGN CHOICE, safe: log entry 43. -/
def bootKey : Nat := Config.fuse 3
/-- The fused security version. -/
def fusedSecurity : Nat := Config.fuse 4
/-- The fuses cannot be read (R482 step 1). -/
def fusesBad : Bool := Config.fuse 5 != 0

/-- A firmware image that passes steps 4 and 5 of the ROM: its body, versions and entry (R482, R483). -/
def bootImage (img : List Byte) : Option (List Byte × Nat × Nat × Nat) :=
  let f (o n : Nat) : Nat := ofBytes ((img.drop o).take n)
  let len := f 0x010 8
  let body := (img.drop 512).take len
  if f 0 8 = 0x4B4346494D470001 ∧ len % 4096 = 0 ∧ len ≤ 33554432 ∧ body.length = len ∧ f 0x018 8 < len ∧ f 0x0E4 284 = 0
      ∧ (img.drop 0x020).take 64 = toBytes (Config.sha512 body) 64 ∧ verified bootKey (img.take 0x060) ((img.drop 0x060).take 132)
      ∧ fusedSecurity ≤ f 0x00C 4 then
    some (body, f 0x008 4, f 0x00C 4, f 0x018 8)
  else none

/-- The sources in the order in which the ROM tries them (R482). -/
def Fw.sources (w : Fw) : List (List Byte) := if w.activate || w.bootsel then [w.hostImg, w.flash] else [w.flash, w.hostImg]

/-- BOOT: the ROM starts the first image that passes, or halts in RECOVERY (R482). -/
def execBoot (s : State) : Host.Outcome State Fault Refusal :=
  let w := s.fw
  .next (
    if w.st ≠ .booting then s
    else
      match (if fusesBad then [] else w.sources.filterMap bootImage) with
      | [] => { s with fw := { w with st := .recovery, activate := false } }
      | (body, v, sec, e) :: _ => { s with fw := { w with st := .started, activate := false, body := body, version := v, security := sec, entry := e } })

/-- The physical indices that a 66-bit field of the repair record retires (R318). -/
def retiredOf (m : Nat) : List Nat := (upTo 66).filter (fun i => bitAt m i)

/-- The arrays with the retired sets of the repair record (R318, R483 step 1). DESIGN CHOICE, safe: log entry 42. -/
def bootArrays (repair : List Byte) : SMap ArraySt :=
  (upTo 128).foldl (fun m t => smPut ArraySt.zero m t
    { ArraySt.zero with retRows := retiredOf (Config.record repair (2 * t)), retCols := retiredOf (Config.record repair (2 * t + 1)) }) []

/-- The board record splits a port (R415). -/
def splits (board : List Byte) (p : Nat) : Bool := decide (6 ≤ p) && bitAt (Config.record board 1) p

/-- The ports at boot: the links of whole ports, 0 to 11, and of the planes of split ones, 12 to 35, begin to train (R415). -/
def bootPorts (board : List Byte) (now : Nat) : SMap Port :=
  let link : Port := { Port.zero with since := now, training := true }
  (upTo 12).foldl (fun m p =>
    if splits board p then (upTo 4).foldl (fun m k => smPut Port.zero m (12 + 4 * (p - 6) + k) link) (smPut Port.zero m p { Port.zero with split := true })
    else smPut Port.zero m p link) []

/-- FIRMWARE_BOOT: the firmware completes boot in the order of R483 and reports READY.
The board record gives the cube number, splits, journal sizes, slice layouts and the domain's cubes; its layout is not the spec's. DESIGN CHOICE, safe: log entry 41. -/
def execFirmwareBoot (s : State) : Host.Outcome State Fault Refusal :=
  let w := s.fw
  let b := w.board
  let j := Config.record b 2
  .next (
    if w.st ≠ .started then s
    else
      { s with
        fw := { w with st := .ready }
        arrays := bootArrays w.repair
        berr := if w.cold then [] else s.berr
        micro := [], entries := []
        linear := (upTo 6).foldl (fun m i => smPut false m i (bitAt (Config.record b 3) i)) []
        jsize := if 1 ≤ j ∧ j ≤ 12 then (upTo 64).foldl (fun m v => smPut 0 m v j) [] else []
        tiles := (upTo 128).foldl (fun m t => smPut TileSt.zero m t { TileSt.zero with scrubbed := true }) []
        cube := Config.record b 0 % 8192
        peers := (distinct ((upTo (Config.record b 4 % 8192)).map (fun i => Config.record b (16 + i) % 8192))).filter (fun c => decide (c ≠ Config.record b 0 % 8192))
        ports := bootPorts b s.time })

/-! ### Firmware images over the host port -/

/-- The host port is up: in RECOVERY and from READY on (R482, R483). -/
def State.hostPortUp (s : State) : Bool := s.fw.st == .ready || s.fw.st == .recovery

/-- TRANSFER_FW: a part of an image arrives over the host port (R482).
Argument: d, the part's offset; bytes, the part. DESIGN CHOICE, unsafe: log entry 58. -/
def execTransferFw (s : State) : Host.Outcome State Fault Refusal :=
  let g := s.arg
  .next (if s.hostPortUp then { s with fw := { s.fw with hostImg := s.fw.hostImg.take g.d ++ g.bytes } }.fmAnswer .transferFw 0 0 else s)

/-- ACTIVATE_FW: a warm reset that boots from the transferred image (R482). -/
def execActivateFw (s : State) : Host.Outcome State Fault Refusal :=
  .next (
    if s.hostPortUp then
      let t := s.warmReset true
      { t with fw := { t.fw with hostImg := s.fw.hostImg } }
    else s)

/-! ### Identity and status -/

/-- The attestation report before its signature (R484). -/
def State.report (s : State) (nonce : List Byte) : List Byte :=
  takeD 0 64 nonce ++ toBytes (Config.sha512 s.fw.body) 64 ++ toBytes (s.fw.version + s.fw.security * 2 ^ 32) 8 ++ toBytes (s.idr 1).toNat 8
    ++ toBytes (Config.sha512 s.fw.repair) 64 ++ toBytes s.time 8

/-- ATTEST: a signed report for a nonce; refused during a reset and in RECOVERY (R484).
Argument: b = 1 for the management device, else the sideband; bytes, the nonce. -/
def execAttest (s : State) : Host.Outcome State Fault Refusal :=
  let g := s.arg
  let r := s.report g.bytes
  .next (
    if s.ready then s.sendOut .attest { EvArg.zero with b := g.b, bytes := r ++ signed identityKey r }
    else s.sendOut .attest { EvArg.zero with b := g.b, c := 1 })

/-- GET_ID: the identification registers (R485, R486). -/
def execGetId (s : State) : Host.Outcome State Fault Refusal :=
  .next (s.sendOut .getId { EvArg.zero with words := (upTo 4).map (fun j => s.idr j) })

/-- The state that GET-STATUS reports: 0 RECOVERY, 1 BOOTING, 2 READY (R485). -/
def Fw.status (w : Fw) : Nat :=
  match w.st with
  | .recovery => 0
  | .ready => 2
  | _ => 1

/-- GET_STATUS: state, package power and temperature (R485). -/
def execGetStatus (s : State) : Host.Outcome State Fault Refusal :=
  .next (s.sendOut .getStatus { EvArg.zero with a := s.fw.status, b := s.fw.power, c := s.fw.heat })

/-- WRITE_BOARD_RECORD: stored now, effective at the next reset (R485).
Argument: bytes, the record. -/
def execWriteBoardRecord (s : State) : Host.Outcome State Fault Refusal :=
  .next (if s.ready then { s with fw := { s.fw with boardNext := s.arg.bytes } } else s)

/-! ### The power limiter -/

/-- Start cycles are withheld somewhere. -/
def Fw.withholding (w : Fw) : Bool := w.withheld != (0, 0, 0)

/-- SET_POWER_LIMIT: the sustained limit, from 400 W to 900 W; while cycles are withheld it applies from the next measurement (R479, R480).
Argument: a, watts. -/
def execSetPowerLimit (s : State) : Host.Outcome State Fault Refusal :=
  let a := s.arg.a
  .next (
    if !s.ready then s
    else if a < 400 ∨ 900 < a then s.sendOut .setPowerLimit { EvArg.zero with a := a, c := 1 }
    else { s with fw := { s.fw with pending := a, limit := if s.fw.withholding then s.fw.limit else a } }.sendOut .setPowerLimit { EvArg.zero with a := a })

/-- One more step of 1/64 withheld, in the order of R480, each subsystem down to half. -/
def withhold (w : Nat × Nat × Nat) : Nat × Nat × Nat :=
  let (m, c, p) := w
  if m < 32 then (m + 1, c, p) else if c < 32 then (m, c + 1, p) else if p < 32 then (m, c, p + 1) else w

/-- One step given back, in the reverse order. -/
def giveBack (w : Nat × Nat × Nat) : Nat × Nat × Nat :=
  let (m, c, p) := w
  if 0 < p then (m, c, p - 1) else if 0 < c then (m, c - 1, p) else (m - 1, c, p)

/-- An average exceeds its limit: the sum of n samples against n times the limit. DESIGN CHOICE, unsafe: log entry 56. -/
def averageOver (l : List Nat) (limit : Nat) : Bool := decide (l.length * limit < l.foldl (· + ·) 0)

/-- An average is 5 % below its limit. -/
def averageLow (l : List Nat) (limit : Nat) : Bool := decide (l.foldl (· + ·) 0 * 100 ≤ l.length * limit * 95)

/-- POWER_MEASUREMENT: every 10 µs the limiter measures, and withholds or gives back start cycles (R479, R480). DESIGN CHOICE, safe: log entry 45. -/
def execPowerMeasurement (s : State) : Host.Outcome State Fault Refusal :=
  let w := s.fw
  let now := Config.power s.free
  let l := (now :: w.samples).take 10000
  let tooHigh := averageOver l w.pending || averageOver (l.take 100) 1000
  let low := averageLow l w.pending && averageLow (l.take 100) 1000
  .next ({ s with fw := { w with limit := w.pending, samples := l, measured := s.time / 10000, power := now, heat := Config.power (s.free + 1)
                                 withheld := if tooHigh then withhold w.withheld else if low then giveBack w.withheld else w.withheld } }.drawn.drawn)

end Sys2Proof.Machine
end

