-- ==== Sys2Proof/Machine/Dispatch.lean ====
section
/-! DEFINITION. exec: one arm per constructor of Instr, each one call of its meaning. -/

namespace Sys2Proof.Machine

def exec (i : Instr) (s : State) : Host.Outcome State Fault Refusal :=
  match i with
  | .add d a b t u => Sys2Proof.Machine.execAdd d a b t u s
  | .sub d a b t u => Sys2Proof.Machine.execSub d a b t u s
  | .and d a b t u => Sys2Proof.Machine.execAnd d a b t u s
  | .or d a b t u => Sys2Proof.Machine.execOr d a b t u s
  | .xor d a b t u => Sys2Proof.Machine.execXor d a b t u s
  | .andn d a b t u => Sys2Proof.Machine.execAndn d a b t u s
  | .orn d a b t u => Sys2Proof.Machine.execOrn d a b t u s
  | .shl d a b t u => Sys2Proof.Machine.execShl d a b t u s
  | .shr d a b t u => Sys2Proof.Machine.execShr d a b t u s
  | .sra d a b t u => Sys2Proof.Machine.execSra d a b t u s
  | .rol d a b t u => Sys2Proof.Machine.execRol d a b t u s
  | .ror d a b t u => Sys2Proof.Machine.execRor d a b t u s
  | .mul d a b t u => Sys2Proof.Machine.execMul d a b t u s
  | .mulh d a b t u => Sys2Proof.Machine.execMulh d a b t u s
  | .mulhu d a b t u => Sys2Proof.Machine.execMulhu d a b t u s
  | .mulhsu d a b t u => Sys2Proof.Machine.execMulhsu d a b t u s
  | .div d a b t u => Sys2Proof.Machine.execDiv d a b t u s
  | .divu d a b t u => Sys2Proof.Machine.execDivu d a b t u s
  | .rem d a b t u => Sys2Proof.Machine.execRem d a b t u s
  | .remu d a b t u => Sys2Proof.Machine.execRemu d a b t u s
  | .min d a b t u => Sys2Proof.Machine.execMin d a b t u s
  | .max d a b t u => Sys2Proof.Machine.execMax d a b t u s
  | .minu d a b t u => Sys2Proof.Machine.execMinu d a b t u s
  | .maxu d a b t u => Sys2Proof.Machine.execMaxu d a b t u s
  | .slt d a b t u => Sys2Proof.Machine.execSlt d a b t u s
  | .sltu d a b t u => Sys2Proof.Machine.execSltu d a b t u s
  | .seq d a b t u => Sys2Proof.Machine.execSeq d a b t u s
  | .sne d a b t u => Sys2Proof.Machine.execSne d a b t u s
  | .clz d a t => Sys2Proof.Machine.execClz d a t s
  | .ctz d a t => Sys2Proof.Machine.execCtz d a t s
  | .popc d a t => Sys2Proof.Machine.execPopc d a t s
  | .bswap d a t => Sys2Proof.Machine.execBswap d a t s
  | .brev d a t => Sys2Proof.Machine.execBrev d a t s
  | .sel d a b t u => Sys2Proof.Machine.execSel d a b t u s
  | .sextB d a t => Sys2Proof.Machine.execSextB d a t s
  | .sextH d a t => Sys2Proof.Machine.execSextH d a t s
  | .sextW d a t => Sys2Proof.Machine.execSextW d a t s
  | .zextB d a t => Sys2Proof.Machine.execZextB d a t s
  | .zextH d a t => Sys2Proof.Machine.execZextH d a t s
  | .zextW d a t => Sys2Proof.Machine.execZextW d a t s
  | .mix d a b t u => Sys2Proof.Machine.execMix d a b t u s
  | .addi d a t j => Sys2Proof.Machine.execAddi d a t j s
  | .andi d a t j => Sys2Proof.Machine.execAndi d a t j s
  | .ori d a t j => Sys2Proof.Machine.execOri d a t j s
  | .xori d a t j => Sys2Proof.Machine.execXori d a t j s
  | .slti d a t j => Sys2Proof.Machine.execSlti d a t j s
  | .sltiu d a t j => Sys2Proof.Machine.execSltiu d a t j s
  | .shli d a t n => Sys2Proof.Machine.execShli d a t n s
  | .shri d a t n => Sys2Proof.Machine.execShri d a t n s
  | .srai d a t n => Sys2Proof.Machine.execSrai d a t n s
  | .roli d a t n => Sys2Proof.Machine.execRoli d a t n s
  | .lui d j => Sys2Proof.Machine.execLui d j s
  | .addpc d j => Sys2Proof.Machine.execAddpc d j s
  | .bfx d a t l w => Sys2Proof.Machine.execBfx d a t l w s
  | .bfi d a t l w => Sys2Proof.Machine.execBfi d a t l w s
  | .ldB d a t o => Sys2Proof.Machine.execLdB d a t o s
  | .ldBu d a t o => Sys2Proof.Machine.execLdBu d a t o s
  | .ldH d a t o => Sys2Proof.Machine.execLdH d a t o s
  | .ldHu d a t o => Sys2Proof.Machine.execLdHu d a t o s
  | .ldW d a t o => Sys2Proof.Machine.execLdW d a t o s
  | .ldWu d a t o => Sys2Proof.Machine.execLdWu d a t o s
  | .ldD d a t o => Sys2Proof.Machine.execLdD d a t o s
  | .stB d a t o => Sys2Proof.Machine.execStB d a t o s
  | .stH d a t o => Sys2Proof.Machine.execStH d a t o s
  | .stW d a t o => Sys2Proof.Machine.execStW d a t o s
  | .stD d a t o => Sys2Proof.Machine.execStD d a t o s
  | .stNtB d a t o => Sys2Proof.Machine.execStNtB d a t o s
  | .stNtH d a t o => Sys2Proof.Machine.execStNtH d a t o s
  | .stNtW d a t o => Sys2Proof.Machine.execStNtW d a t o s
  | .stNtD d a t o => Sys2Proof.Machine.execStNtD d a t o s
  | .ldqW a t o => Sys2Proof.Machine.execLdqW a t o s
  | .ldqD a t o => Sys2Proof.Machine.execLdqD a t o s
  | .stqW a t o => Sys2Proof.Machine.execStqW a t o s
  | .stqD a t o => Sys2Proof.Machine.execStqD a t o s
  | .brEq a b o => Sys2Proof.Machine.execBrEq a b o s
  | .brNe a b o => Sys2Proof.Machine.execBrNe a b o s
  | .brLt a b o => Sys2Proof.Machine.execBrLt a b o s
  | .brGe a b o => Sys2Proof.Machine.execBrGe a b o s
  | .brLtu a b o => Sys2Proof.Machine.execBrLtu a b o s
  | .brGeu a b o => Sys2Proof.Machine.execBrGeu a b o s
  | .brBs a n o => Sys2Proof.Machine.execBrBs a n o s
  | .brBc a n o => Sys2Proof.Machine.execBrBc a n o s
  | .jal d o => Sys2Proof.Machine.execJal d o s
  | .jalr d a t j => Sys2Proof.Machine.execJalr d a t j s
  | .loopR a t e => Sys2Proof.Machine.execLoopR a t e s
  | .loopi c e => Sys2Proof.Machine.execLoopi c e s
  | .repR c l sx m w t => Sys2Proof.Machine.execRepR c l sx m w t s
  | .repI n l sx m w => Sys2Proof.Machine.execRepI n l sx m w s
  | .fadd d a b t u => Sys2Proof.Machine.execFadd d a b t u s
  | .fsub d a b t u => Sys2Proof.Machine.execFsub d a b t u s
  | .fmul d a b t u => Sys2Proof.Machine.execFmul d a b t u s
  | .fdiv d a b t u => Sys2Proof.Machine.execFdiv d a b t u s
  | .fsqrt d a t => Sys2Proof.Machine.execFsqrt d a t s
  | .fma d a b t u => Sys2Proof.Machine.execFma d a b t u s
  | .fms d a b t u => Sys2Proof.Machine.execFms d a b t u s
  | .fmin d a b t u => Sys2Proof.Machine.execFmin d a b t u s
  | .fmax d a b t u => Sys2Proof.Machine.execFmax d a b t u s
  | .fneg d a t => Sys2Proof.Machine.execFneg d a t s
  | .fabs d a t => Sys2Proof.Machine.execFabs d a t s
  | .fclass d a t => Sys2Proof.Machine.execFclass d a t s
  | .fcmpEq d a b t u => Sys2Proof.Machine.execFcmpEq d a b t u s
  | .fcmpLt d a b t u => Sys2Proof.Machine.execFcmpLt d a b t u s
  | .fcmpLe d a b t u => Sys2Proof.Machine.execFcmpLe d a b t u s
  | .fcvtF32I64 d a t => Sys2Proof.Machine.execFcvtF32I64 d a t s
  | .fcvtI64F32 d a t => Sys2Proof.Machine.execFcvtI64F32 d a t s
  | .fcvtF32F16 d a t => Sys2Proof.Machine.execFcvtF32F16 d a t s
  | .fcvtF16F32 d a t => Sys2Proof.Machine.execFcvtF16F32 d a t s
  | .fcvtF32Bf16 d a t => Sys2Proof.Machine.execFcvtF32Bf16 d a t s
  | .fcvtBf16F32 d a t => Sys2Proof.Machine.execFcvtBf16F32 d a t s
  | .fcvtF32Tf8 d a t => Sys2Proof.Machine.execFcvtF32Tf8 d a t s
  | .fcvtTf8F32 d a t => Sys2Proof.Machine.execFcvtTf8F32 d a t s
  | .send d a b t u => Sys2Proof.Machine.execSend d a b t u s
  | .spawn d a b t u => Sys2Proof.Machine.execSpawn d a b t u s
  | .fill d a b t u => Sys2Proof.Machine.execFill d a b t u s
  | .trig a b t u => Sys2Proof.Machine.execTrig a b t u s
  | .ctrSet a b t u => Sys2Proof.Machine.execCtrSet a b t u s
  | .ctrRd d a t => Sys2Proof.Machine.execCtrRd d a t s
  | .ctrMask a t => Sys2Proof.Machine.execCtrMask a t s
  | .ctrUnmask a t => Sys2Proof.Machine.execCtrUnmask a t s
  | .endThread => Sys2Proof.Machine.execEndThread s
  | .yield => Sys2Proof.Machine.execYield s
  | .selfId d => Sys2Proof.Machine.execSelfId d s
  | .live k m => Sys2Proof.Machine.execLive k m s
  | .gjoin d a t => Sys2Proof.Machine.execGjoin d a t s
  | .gleave d a t => Sys2Proof.Machine.execGleave d a t s
  | .gbar a t => Sys2Proof.Machine.execGbar a t s
  | .garr d a t => Sys2Proof.Machine.execGarr d a t s
  | .gwait a b t u => Sys2Proof.Machine.execGwait a b t u s
  | .gsize d a t => Sys2Proof.Machine.execGsize d a t s
  | .grank d a t => Sys2Proof.Machine.execGrank d a t s
  | .gstg d a b t u => Sys2Proof.Machine.execGstg d a b t u s
  | .feClr d => Sys2Proof.Machine.execFeClr d s
  | .feSet d => Sys2Proof.Machine.execFeSet d s
  | .feTest d a => Sys2Proof.Machine.execFeTest d a s
  | .pqPut a b t u => Sys2Proof.Machine.execPqPut a b t u s
  | .pqTake d => Sys2Proof.Machine.execPqTake d s
  | .pqDone a t => Sys2Proof.Machine.execPqDone a t s
  | .pqCnt d => Sys2Proof.Machine.execPqCnt d s
  | .pqSteal d a => Sys2Proof.Machine.execPqSteal d a s
  | .fenceAcq sx => Sys2Proof.Machine.execFenceAcq sx s
  | .fenceRel sx => Sys2Proof.Machine.execFenceRel sx s
  | .fenceAr sx => Sys2Proof.Machine.execFenceAr sx s
  | .drain sx => Sys2Proof.Machine.execDrain sx s
  | .semSig a t k => Sys2Proof.Machine.execSemSig a t k s
  | .semWait a t k => Sys2Proof.Machine.execSemWait a t k s
  | .tlRd d e k => Sys2Proof.Machine.execTlRd d e k s
  | .tlWait a t k => Sys2Proof.Machine.execTlWait a t k s
  | .tlWaitRel a t k => Sys2Proof.Machine.execTlWaitRel a t k s
  | .cpsync => Sys2Proof.Machine.execCpsync s
  | .amoAdd d a r c w t => Sys2Proof.Machine.execAmoAdd d a r c w t s
  | .amoAnd d a r c w t => Sys2Proof.Machine.execAmoAnd d a r c w t s
  | .amoOr d a r c w t => Sys2Proof.Machine.execAmoOr d a r c w t s
  | .amoXor d a r c w t => Sys2Proof.Machine.execAmoXor d a r c w t s
  | .amoMin d a r c w t => Sys2Proof.Machine.execAmoMin d a r c w t s
  | .amoMax d a r c w t => Sys2Proof.Machine.execAmoMax d a r c w t s
  | .amoMinu d a r c w t => Sys2Proof.Machine.execAmoMinu d a r c w t s
  | .amoMaxu d a r c w t => Sys2Proof.Machine.execAmoMaxu d a r c w t s
  | .amoSwap d a r c w t => Sys2Proof.Machine.execAmoSwap d a r c w t s
  | .amoCas d a r c w t => Sys2Proof.Machine.execAmoCas d a r c w t s
  | .amoFadd d a r c t => Sys2Proof.Machine.execAmoFadd d a r c t s
  | .cwb a t => Sys2Proof.Machine.execCwb a t s
  | .cinv a t => Sys2Proof.Machine.execCinv a t s
  | .cinvI a t => Sys2Proof.Machine.execCinvI a t s
  | .cflush a t => Sys2Proof.Machine.execCflush a t s
  | .resize n => Sys2Proof.Machine.execResize n s
  | .home => Sys2Proof.Machine.execHome s
  | .vaddInt v a b y p => Sys2Proof.Machine.execVaddInt v a b y p s
  | .vsubInt v a b y p => Sys2Proof.Machine.execVsubInt v a b y p s
  | .vmulInt v a b y p => Sys2Proof.Machine.execVmulInt v a b y p s
  | .vminInt v a b y p => Sys2Proof.Machine.execVminInt v a b y p s
  | .vmaxInt v a b y p => Sys2Proof.Machine.execVmaxInt v a b y p s
  | .vabsInt v a y p => Sys2Proof.Machine.execVabsInt v a y p s
  | .vnegInt v a y p => Sys2Proof.Machine.execVnegInt v a y p s
  | .vdot v a b p => Sys2Proof.Machine.execVdot v a b p s
  | .vaddFp v a b y p => Sys2Proof.Machine.execVaddFp v a b y p s
  | .vsubFp v a b y p => Sys2Proof.Machine.execVsubFp v a b y p s
  | .vmulFp v a b y p => Sys2Proof.Machine.execVmulFp v a b y p s
  | .vfma v a b y p => Sys2Proof.Machine.execVfma v a b y p s
  | .vfms v a b y p => Sys2Proof.Machine.execVfms v a b y p s
  | .vfnma v a b y p => Sys2Proof.Machine.execVfnma v a b y p s
  | .vdiv v a b y p => Sys2Proof.Machine.execVdiv v a b y p s
  | .vsqrt v a y p => Sys2Proof.Machine.execVsqrt v a y p s
  | .vminFp v a b y p => Sys2Proof.Machine.execVminFp v a b y p s
  | .vmaxFp v a b y p => Sys2Proof.Machine.execVmaxFp v a b y p s
  | .vabsFp v a y p => Sys2Proof.Machine.execVabsFp v a y p s
  | .vnegFp v a y p => Sys2Proof.Machine.execVnegFp v a y p s
  | .vclass v a y p => Sys2Proof.Machine.execVclass v a y p s
  | .vand v a b y p => Sys2Proof.Machine.execVand v a b y p s
  | .vor v a b y p => Sys2Proof.Machine.execVor v a b y p s
  | .vxor v a b y p => Sys2Proof.Machine.execVxor v a b y p s
  | .vandn v a b y p => Sys2Proof.Machine.execVandn v a b y p s
  | .vshl v a b y p => Sys2Proof.Machine.execVshl v a b y p s
  | .vshr v a b y p => Sys2Proof.Machine.execVshr v a b y p s
  | .vsra v a b y p => Sys2Proof.Machine.execVsra v a b y p s
  | .vcmpEq q a b y p => Sys2Proof.Machine.execVcmpEq q a b y p s
  | .vcmpNe q a b y p => Sys2Proof.Machine.execVcmpNe q a b y p s
  | .vcmpLt q a b y p => Sys2Proof.Machine.execVcmpLt q a b y p s
  | .vcmpLe q a b y p => Sys2Proof.Machine.execVcmpLe q a b y p s
  | .vcmpGt q a b y p => Sys2Proof.Machine.execVcmpGt q a b y p s
  | .vcmpGe q a b y p => Sys2Proof.Machine.execVcmpGe q a b y p s
  | .vsel v a b y p => Sys2Proof.Machine.execVsel v a b y p s
  | .vperm v a b y p => Sys2Proof.Machine.execVperm v a b y p s
  | .vslide v a b y p => Sys2Proof.Machine.execVslide v a b y p s
  | .vzip v a b y p => Sys2Proof.Machine.execVzip v a b y p s
  | .vunzip v a b y p => Sys2Proof.Machine.execVunzip v a b y p s
  | .vredsum d a y p => Sys2Proof.Machine.execVredsum d a y p s
  | .vredmax d a y p => Sys2Proof.Machine.execVredmax d a y p s
  | .vredmin d a y p => Sys2Proof.Machine.execVredmin d a y p s
  | .vcvt v a y p sx => Sys2Proof.Machine.execVcvt v a y p sx s
  | .pand q r sx y p => Sys2Proof.Machine.execPand q r sx y p s
  | .por q r sx y p => Sys2Proof.Machine.execPor q r sx y p s
  | .pxor q r sx y p => Sys2Proof.Machine.execPxor q r sx y p s
  | .pnot q r y p => Sys2Proof.Machine.execPnot q r y p s
  | .pcnt d r y p => Sys2Proof.Machine.execPcnt d r y p s
  | .pfirst d r y p => Sys2Proof.Machine.execPfirst d r y p s
  | .pset q y p => Sys2Proof.Machine.execPset q y p s
  | .vldp v a t o => Sys2Proof.Machine.execVldp v a t o s
  | .vstp v a t o => Sys2Proof.Machine.execVstp v a t o s
  | .vstpNt v a t o => Sys2Proof.Machine.execVstpNt v a t o s
  | .vldpx v a t x e => Sys2Proof.Machine.execVldpx v a t x e s
  | .vstpx v a t x e => Sys2Proof.Machine.execVstpx v a t x e s
  | .vbcast v sx y p => Sys2Proof.Machine.execVbcast v sx y p s
  | .vext d a sx y => Sys2Proof.Machine.execVext d a sx y s
  | .vins v sx j y p => Sys2Proof.Machine.execVins v sx j y p s
  | .mown => Sys2Proof.Machine.execMown s
  | .mfree => Sys2Proof.Machine.execMfree s
  | .mshape d => Sys2Proof.Machine.execMshape d s
  | .mmapRd d a t => Sys2Proof.Machine.execMmapRd d a t s
  | .cist d a b t u => Sys2Proof.Machine.execCist d a b t u s
  | .cerrRd d a t => Sys2Proof.Machine.execCerrRd d a t s
  | .cistLd a b t u => Sys2Proof.Machine.execCistLd a b t u s
  | .sys c => Sys2Proof.Machine.execSys c s
  | .brk c => Sys2Proof.Machine.execBrk c s
  | .rdsr d n => Sys2Proof.Machine.execRdsr d n s
  | .wrsr a t n => Sys2Proof.Machine.execWrsr a t n s
  | .rte => Sys2Proof.Machine.execRte s
  | .tlbInv a t => Sys2Proof.Machine.execTlbInv a t s
  | .ctxKill d a t => Sys2Proof.Machine.execCtxKill d a t s
  | .sig j => Sys2Proof.Machine.execSig j s
  | .ckpt d a => Sys2Proof.Machine.execCkpt d a s
  | .chainWrite => Sys2Proof.Machine.execChainWrite s
  | .errorInjection => Sys2Proof.Machine.execErrorInjection s
  | .cpPush c => Sys2Proof.Machine.execCpPush c s
  | .cpPushAdd c => Sys2Proof.Machine.execCpPushAdd c s
  | .cpFill c => Sys2Proof.Machine.execCpFill c s
  | .cpX24 c => Sys2Proof.Machine.execCpX24 c s
  | .cpC24 c => Sys2Proof.Machine.execCpC24 c s
  | .mma c => Sys2Proof.Machine.execMma c s
  | .mmb c => Sys2Proof.Machine.execMmb c s
  | .mzero c => Sys2Proof.Machine.execMzero c s
  | .mld c => Sys2Proof.Machine.execMld c s
  | .mst c => Sys2Proof.Machine.execMst c s
  | .colRed c => Sys2Proof.Machine.execColRed c s
  | .colRs c => Sys2Proof.Machine.execColRs c s
  | .colMc c => Sys2Proof.Machine.execColMc c s
  | .mtest c => Sys2Proof.Machine.execMtest c s
  | .mremap c => Sys2Proof.Machine.execMremap c s
  | .producerCompletion => Sys2Proof.Machine.execProducerCompletion s
  | .messageArrival => Sys2Proof.Machine.execMessageArrival s
  | .activationStart => Sys2Proof.Machine.execActivationStart s
  | .spill => Sys2Proof.Machine.execSpill s
  | .reload => Sys2Proof.Machine.execReload s
  | .fillArrival => Sys2Proof.Machine.execFillArrival s
  | .directoryLookup => Sys2Proof.Machine.execDirectoryLookup s
  | .stubForward => Sys2Proof.Machine.execStubForward s
  | .movedNotice => Sys2Proof.Machine.execMovedNotice s
  | .stubExpiry => Sys2Proof.Machine.execStubExpiry s
  | .diffusionPeriod => Sys2Proof.Machine.execDiffusionPeriod s
  | .parcelArrival => Sys2Proof.Machine.execParcelArrival s
  | .launchMessage => Sys2Proof.Machine.execLaunchMessage s
  | .prerequisitesMet => Sys2Proof.Machine.execPrerequisitesMet s
  | .admissionScan => Sys2Proof.Machine.execAdmissionScan s
  | .reservationBackoffExpiry => Sys2Proof.Machine.execReservationBackoffExpiry s
  | .headOfLine => Sys2Proof.Machine.execHeadOfLine s
  | .clusterCommit => Sys2Proof.Machine.execClusterCommit s
  | .backlogFeed => Sys2Proof.Machine.execBacklogFeed s
  | .launchCompletion => Sys2Proof.Machine.execLaunchCompletion s
  | .vectorStart => Sys2Proof.Machine.execVectorStart s
  | .vectorCompletion => Sys2Proof.Machine.execVectorCompletion s
  | .repPass => Sys2Proof.Machine.execRepPass s
  | .lateFaultDelivery => Sys2Proof.Machine.execLateFaultDelivery s
  | .pageWalk => Sys2Proof.Machine.execPageWalk s
  | .relocationArrival => Sys2Proof.Machine.execRelocationArrival s
  | .relocationRefusal => Sys2Proof.Machine.execRelocationRefusal s
  | .mothLoad => Sys2Proof.Machine.execMothLoad s
  | .mothReturn => Sys2Proof.Machine.execMothReturn s
  | .combiningWriteOut => Sys2Proof.Machine.execCombiningWriteOut s
  | .writePlacement => Sys2Proof.Machine.execWritePlacement s
  | .guardWaitTimeout => Sys2Proof.Machine.execGuardWaitTimeout s
  | .journalStallTimeout => Sys2Proof.Machine.execJournalStallTimeout s
  | .pushStart => Sys2Proof.Machine.execPushStart s
  | .pushCompletion => Sys2Proof.Machine.execPushCompletion s
  | .matrixCommandStart => Sys2Proof.Machine.execMatrixCommandStart s
  | .matrixCommandCompletion => Sys2Proof.Machine.execMatrixCommandCompletion s
  | .healthCommandStart => Sys2Proof.Machine.execHealthCommandStart s
  | .mtestCompletion => Sys2Proof.Machine.execMtestCompletion s
  | .mremapCompletion => Sys2Proof.Machine.execMremapCompletion s
  | .cisternInvocationStart => Sys2Proof.Machine.execCisternInvocationStart s
  | .cisternInvocationCompletion => Sys2Proof.Machine.execCisternInvocationCompletion s
  | .seqReset => Sys2Proof.Machine.execSeqReset s
  | .vaultReset => Sys2Proof.Machine.execVaultReset s
  | .meshRequestResend => Sys2Proof.Machine.execMeshRequestResend s
  | .containment => Sys2Proof.Machine.execContainment s
  | .checkpointCut => Sys2Proof.Machine.execCheckpointCut s
  | .checkpointDrain => Sys2Proof.Machine.execCheckpointDrain s
  | .restore => Sys2Proof.Machine.execRestore s
  | .tileScrub => Sys2Proof.Machine.execTileScrub s
  | .stewardEvent => Sys2Proof.Machine.execStewardEvent s
  | .message => Sys2Proof.Machine.execMessage s
  | .preempt => Sys2Proof.Machine.execPreempt s
  | .preemptGiveUp => Sys2Proof.Machine.execPreemptGiveUp s
  | .resume => Sys2Proof.Machine.execResume s
  | .timer => Sys2Proof.Machine.execTimer s
  | .timerExpiry => Sys2Proof.Machine.execTimerExpiry s
  | .watchdog => Sys2Proof.Machine.execWatchdog s
  | .watchdogExpiry => Sys2Proof.Machine.execWatchdogExpiry s
  | .groupCreate => Sys2Proof.Machine.execGroupCreate s
  | .groupDissolve => Sys2Proof.Machine.execGroupDissolve s
  | .counterClaim => Sys2Proof.Machine.execCounterClaim s
  | .counterRelease => Sys2Proof.Machine.execCounterRelease s
  | .parcelDrop => Sys2Proof.Machine.execParcelDrop s
  | .vectorStateSave => Sys2Proof.Machine.execVectorStateSave s
  | .groupLive => Sys2Proof.Machine.execGroupLive s
  | .groupCreateTimeout => Sys2Proof.Machine.execGroupCreateTimeout s
  | .cubeArrival => Sys2Proof.Machine.execCubeArrival s
  | .cubeRelease => Sys2Proof.Machine.execCubeRelease s
  | .collectiveNode => Sys2Proof.Machine.execCollectiveNode s
  | .collectiveCompletion => Sys2Proof.Machine.execCollectiveCompletion s
  | .collectiveTimeout => Sys2Proof.Machine.execCollectiveTimeout s
  | .remoteRequest => Sys2Proof.Machine.execRemoteRequest s
  | .moved => Sys2Proof.Machine.execMoved s
  | .retransmission => Sys2Proof.Machine.execRetransmission s
  | .trimmedPacket => Sys2Proof.Machine.execTrimmedPacket s
  | .peerUnreachable => Sys2Proof.Machine.execPeerUnreachable s
  | .peerLost => Sys2Proof.Machine.execPeerLost s
  | .pdcFree => Sys2Proof.Machine.execPdcFree s
  | .linkTrainingTimeout => Sys2Proof.Machine.execLinkTrainingTimeout s
  | .linkDown => Sys2Proof.Machine.execLinkDown s
  | .timeExchange => Sys2Proof.Machine.execTimeExchange s
  | .mapWrite => Sys2Proof.Machine.execMapWrite s
  | .mapPrepared => Sys2Proof.Machine.execMapPrepared s
  | .stripeSwitch => Sys2Proof.Machine.execStripeSwitch s
  | .mapCommit => Sys2Proof.Machine.execMapCommit s
  | .cubeRemoval => Sys2Proof.Machine.execCubeRemoval s
  | .apertureRead => Sys2Proof.Machine.execApertureRead s
  | .apertureWrite => Sys2Proof.Machine.execApertureWrite s
  | .unbackedAccess => Sys2Proof.Machine.execUnbackedAccess s
  | .launchWindowWrite => Sys2Proof.Machine.execLaunchWindowWrite s
  | .controlRegisterWrite => Sys2Proof.Machine.execControlRegisterWrite s
  | .wrefmap => Sys2Proof.Machine.execWrefmap s
  | .evcause => Sys2Proof.Machine.execEvcause s
  | .cancel => Sys2Proof.Machine.execCancel s
  | .rstctl => Sys2Proof.Machine.execRstctl s
  | .cancelPacket => Sys2Proof.Machine.execCancelPacket s
  | .cancelAck => Sys2Proof.Machine.execCancelAck s
  | .cancelDone => Sys2Proof.Machine.execCancelDone s
  | .filterEntryExpiry => Sys2Proof.Machine.execFilterEntryExpiry s
  | .stealRequest => Sys2Proof.Machine.execStealRequest s
  | .stealAnswer => Sys2Proof.Machine.execStealAnswer s
  | .doneReport => Sys2Proof.Machine.execDoneReport s
  | .returnReport => Sys2Proof.Machine.execReturnReport s
  | .leaseExpiry => Sys2Proof.Machine.execLeaseExpiry s
  | .borrowedExpiry => Sys2Proof.Machine.execBorrowedExpiry s
  | .tenantCreate => Sys2Proof.Machine.execTenantCreate s
  | .tenantReset => Sys2Proof.Machine.execTenantReset s
  | .tenantDestroy => Sys2Proof.Machine.execTenantDestroy s
  | .transferFw => Sys2Proof.Machine.execTransferFw s
  | .activateFw => Sys2Proof.Machine.execActivateFw s
  | .attest => Sys2Proof.Machine.execAttest s
  | .getId => Sys2Proof.Machine.execGetId s
  | .getStatus => Sys2Proof.Machine.execGetStatus s
  | .setPowerLimit => Sys2Proof.Machine.execSetPowerLimit s
  | .writeBoardRecord => Sys2Proof.Machine.execWriteBoardRecord s
  | .warmReset => Sys2Proof.Machine.execWarmReset s
  | .powerMeasurement => Sys2Proof.Machine.execPowerMeasurement s
  | .coldReset => Sys2Proof.Machine.execColdReset s
  | .powerDown => Sys2Proof.Machine.execPowerDown s
  | .boot => Sys2Proof.Machine.execBoot s
  | .firmwareBoot => Sys2Proof.Machine.execFirmwareBoot s
  | .illegal => Sys2Proof.Machine.execIllegal s
  | .collectiveCommandStart => Sys2Proof.Machine.execCollectiveCommandStart s
  | .remoteWriteAcknowledgement => Sys2Proof.Machine.execRemoteWriteAcknowledgement s
  | .linkRetrain => Sys2Proof.Machine.execLinkRetrain s
  | .linkLevelRetry => Sys2Proof.Machine.execLinkLevelRetry s
  | .meshLinkRetirement => Sys2Proof.Machine.execMeshLinkRetirement s
  | .uudPacket => Sys2Proof.Machine.execUudPacket s

end Sys2Proof.Machine
end

