-- ==== Sys2Proof/Machine/Sched.lean ====
section
/-! DEFINITION. What the machine does next: inputs, the machine's own events with what enables each, the choice of a context (R123), the fetch of its instruction (R24, R34, R35), and what happens between instructions (R119, R379, R431). -/

namespace Sys2Proof.Machine

/-- An event with up to three numbers as its argument. -/
def ev (op : Instr) (a b c : Nat) : Ev := ⟨op, { EvArg.zero with a := a, b := b, c := c }⟩

/-- The events of a list of conditions. -/
def evIf (p : Bool) (e : Ev) : List Ev := if p then [e] else []

/-! ### Requests and waits -/

/-- A guarded write in flight waits behind earlier writes of others (R260). -/
def State.guardOrder (s : State) (r : Req) : Bool := s.guardBehind r.id r.pa r.attr r.launch

/-- A thread whose write was turned away at a held line can take its trap: it is here, and neither ending nor on its way (R260). -/
def State.mayTrap (s : State) (r : Req) : Bool :=
  match s.ctxOfAgent r.agent with
  | none => (s.storedOf r.agent).isNone && (s.departing r.agent).isNone && (s.heldHome r.agent).isNone
  | some k => let x := s.ctx k; !x.dying && x.stopped.isNone && x.park != some .reloc && !s.semTaken k && x.memo.headD 0 != 11

/-- What happens next to a request in flight, if anything can (R9, R246, R248, R260, R394). -/
def State.reqEvent (s : State) (q : Req) : Option Ev :=
  let r := s.rehome q
  let done := some (ev .producerCompletion r.id 0 0)
  let write := some (ev .writePlacement r.id 0 0)
  if r.denied then (if s.mayTrap r then done else none)
  else if r.sampled then
    match r.dest with
    | .vec core ctx v _ => if s.reqs.any (fun o => o.grp == r.grp && !o.sampled) || !s.bankReady (ctxKey core ctx) v r.grp then none else done
    | _ => done
  else if r.sent then none
  else if !s.unblocked r then none
  else
    match r.kind with
    | .status => none
    | .load => done
    | .fill => done
    | .storeFill => if s.guardOrder r || (decide (r.core < 256) && s.lineTaken (tileOf r.core) r.pa r.launch) then none else write
    | .amo op =>
      if r.remote then done
      else if s.guardOrder r then none
      else if (s.homeAmo r op).isSome then done
      else if r.since = 0 then write
      else none
    | _ =>
      if r.remote then write
      else if s.guardOrder r then none
      else if (s.placeWrite (s.homeWrite r)).isSome || r.since = 0 then write
      else none

/-- A write that has waited 1 ms for a journal record: its vault (R402). -/
def State.stalledVault (s : State) (q : Req) : Option Nat :=
  let r := s.rehome q
  let late := r.since != 0 && decide (r.since + 1000000 ≤ s.time + 1)
  if late && !r.sent && !r.remote && !s.heldByOther (r.pa / 128) r.launch && !s.frozenAt r.pa
      && (match r.kind with
        | .amo op => (s.homeAmo r op).isNone
        | _ => (s.placeWrite (s.homeWrite r)).isNone) then
    let v := (s.place (s.localAddr r.pa)).vault
    if (s.largestDrain v).isSome then some v else none
  else none

/-- The same for requests of other cubes that have arrived. -/
def State.stalledArrival (s : State) (g : EvArg) : Option Nat :=
  let r := g.homeReq
  if g.far.any (fun t => decide (t.toNat + 1000000 ≤ s.time)) && !s.isRemote r.pa && !s.heldByOther (r.pa / 128) r.launch && !s.frozenAt r.pa
      && (s.serve g).isNone then
    let v := (s.place (s.localAddr r.pa)).vault
    if (s.largestDrain v).isSome then some v else none
  else none

/-- Requests, buffered lines, walks and packets. -/
def State.memoryEvents (s : State) : List Ev :=
  s.reqs.filterMap s.reqEvent
    ++ (s.unrestored.filter (fun r => !s.ckptStalls r.tenant r.line r.la r.attr || smGet 0 s.stalls r.vault == 0)).map (fun r => ev .writePlacement r.line 1 0)
    ++ (distinct (s.reqs.filterMap s.stalledVault ++ s.arrivals.filterMap s.stalledArrival
        ++ (s.stalls.filter (fun e => e.2 != 0 && decide (e.2 + 1000000 ≤ s.time + 1) && (s.largestDrain e.1).isSome)).map (·.1))).map (fun v => ev .journalStallTimeout v 0 0)
    ++ (distinct ((s.nt.filter (fun l => decide (l.when_ + 4096 ≤ s.cycle))).map (·.core))).map (fun c => ev .combiningWriteOut c 0 0)
    ++ (s.walksRunning.filter (fun w => !w.asked)).map (fun w => ev .pageWalk w.tenant (w.va / 65536) 0)
    ++ (s.net.filter s.packetFree).filterMap (fun p => (s.packetNext p).map (fun op => ev (if p.target = 1000 then .launchMessage else op) p.id 0 0))
    ++ evIf (!s.notices.isEmpty) (ev .movedNotice 0 0 0)

/-! ### Threads -/

/-- Whether what a context waits for has happened. -/
def State.awake (s : State) (k : Nat) (x : Ctx) : Park → Bool
  | .reg r => (x.cell r.val).st == .full
  | .dest r => (x.cell r.val).st != .pending && !heldWrite s k r.val && !heldRead s k r.val
  | .pin => (s.pinQ k).head?.any (·.filled)
  | .pout => decide ((s.pinQ (ctxKey (partner (k / 16)) (k % 16))).length < 32)
  | .up => (s.upQ k).head?.any (·.filled)
  | .dn => decide ((s.upQ (ctxKey (dnCore (k / 16) x) (k % 16))).length < 16)
  | .reqs ids => !s.reqs.any (fun r => ids.contains r.id)
  | .walk t p => !s.walks.any (fun w => w.tenant == t && w.va / 65536 == p && w.waiters.contains k)
  | .missSlot => decide ((s.walks.filter (fun w => w.tlbs.contains (unitOf (k / 16)))).length < 32)
  | .gen t h g =>
    match s.group t h with
    | none => true
    | some q => decide (g < q.gen)
  | .sem t i => (s.sem (semKey t i)).taken.contains k
  | .timeline i n => decide (n ≤ (x.timeline i).done)
  | .timelineOpen i m => decide ((x.timeline i).issued - (x.timeline i).completed ≤ m)
  | .cpsync => !s.copWork (k / 16) k (agentOf (k / 16) (k % 16) x)
  | .engine cls => s.engineRoom (k / 16) cls
  | .vector => s.vectorRoom (k / 16) (k % 16) && !s.reps.any (fun r => r.key == k)
  | .writers =>
    match x.memo with
    | 7 :: ids => !s.vops.any (fun o => ids.contains o.id) && !s.reps.any (fun r => ids.contains r.id)
    | _ => true
  | .bank j => !s.bankTagged j
  | .counterEnds i => (s.counter (ctrKey (k / 16) i)).running.isEmpty
  | .counterRoom i => decide ((s.counter (ctrKey (k / 16) i)).pending.length < 127)
  | .parcelSlot => (s.tile (tileOf (k / 16))).freeSlot.isSome
  | .parcel =>
    match (s.tile (tileOf (k / 16))).owner with
    | some id => (s.takeable (tileOf (k / 16))).isSome || !s.workLeft id
    | none => true
  | .hold => !s.tileBusy (tileOf (k / 16)) && ({ s with cur := (k / 16, k % 16) }.resizing (tileOf (k / 16))).head?.any (· == agentOf (k / 16) (k % 16) x)
  | .array => s.ownsArray (k / 16) (agentOf (k / 16) (k % 16) x)
  | .commands => !s.matrixOut (k / 16) (agentOf (k / 16) (k % 16) x)
  | .cisternRoom => decide (s.cistQueued (k / 16) < 16) && s.ringRoom (k / 16)
  | .cisterns => !(s.vaultInvs (k / 16 - 256)).any (fun n => n.st == .running)
  | .reloc => false
  | .homeward => true
  | .away => false
  | .drained => !x.ending && { s with cur := (k / 16, k % 16) }.drained
  | .guard l _ => !s.heldByOther l x.launch
  | .event id =>
    match s.cmd id with
    | none => true
    | some c => c.ranges.isEmpty

/-- A thread in a barrier that it has entered is released before it takes a late fault (R187). -/
def Ctx.unreleased (x : Ctx) : Bool :=
  match x.park with
  | some (.gen _ _ _) => true
  | _ => false

/-- A context that could take a late fault now (R187, R361): its thread is here, has not ended, and has not arrived in a barrier that still waits. -/
def State.takesLate (s : State) (k : Nat) (x : Ctx) : Bool :=
  x.occ && !x.ending && !x.dying && x.park != some .away && x.park != some .reloc && x.stopped.isNone && !s.semTaken k
    && !(x.unreleased && !(x.park.any (s.awake k x))) && x.memo.headD 0 != 5 && x.memo.headD 0 != 11
    && (s.lateFault (k / 16) (k % 16)).isSome

/-- A context whose thread may issue (R123): occupied, not ending, not stopped, and not waiting. -/
def State.issuable (s : State) (k : Nat) (x : Ctx) : Bool :=
  x.occ && !x.ending && !x.dying && x.stopped.isNone && !s.takesLate k x
    && (match x.park with
      | none => true
      | some p => s.awake k x p)

/-- The context that a core selects among those that may issue (R123): the steward; one passed over 1,024 times; else the highest priority, in rotation after the last selected. -/
def State.selected (s : State) (core : Nat) (l : List (Nat × Ctx)) : Option Nat :=
  if l.any (fun e => e.1 == 8) then some 8
  else
    let starved := l.filter (fun e => decide (1024 ≤ e.2.starve))
    match starved with
    | e :: r => some ((r.foldl (fun m q => if m.2.starve < q.2.starve then q else m) e).1)
    | [] =>
      match l with
      | [] => none
      | e :: r =>
        let q := r.foldl (fun m x => min m x.2.prio) e.2.prio
        afterWrap (smGet 8 (s.core core).last q) ((l.filter (fun x => x.2.prio == q)).map (·.1))

/-- The contexts of a core that may issue, by number. -/
def State.candidates (s : State) (core : Nat) : List (Nat × Ctx) :=
  s.ctxs.filterMap (fun e => if e.1 / 16 = core ∧ s.issuable e.1 e.2 then some (e.1 % 16, e.2) else none)

/-- The cores on which some context may issue. -/
def State.busyCores (s : State) : List Nat :=
  distinct ((s.ctxs.filter (fun e => s.issuable e.1 e.2)).map (fun e => e.1 / 16))

/-- The state after a selection (R123): rotation and the counts of those passed over. -/
def State.select (s : State) (core i : Nat) (l : List (Nat × Ctx)) : State :=
  let s := l.foldl (fun s e =>
    if e.1 = i ∨ e.1 = 8 then s
    else
      let k := ctxKey core e.1
      s.setCtx k { s.ctx k with starve := (s.ctx k).starve + 1 }) s
  if i = 8 then s
  else
    let k := ctxKey core i
    let x := s.ctx k
    let c := s.core core
    (s.setCore core { c with last := smPut 8 c.last x.prio i }).setCtx k { x with starve := 0 }

/-- The thread start and end events of the cores, and what parked contexts wait out (R131, R147, R260, R370). -/
def State.coreEvents (s : State) (core : Nat) : List Ev :=
  let c := s.core core
  let st := s.ctx (ctxKey core 8)
  let free := !(s.allocatable core).isEmpty
  let next := s.activationNext core
  let start : List Ev :=
    (match s.bestCtr core with
      | none => []
      | some (_, p) =>
        let gone := s.cancelled p.tenant p.job
        evIf (next == some true && (gone || free)) (ev .activationStart core 0 0)
          ++ evIf (!gone && (s.freeCtxs core).isEmpty && (s.spillVictim core p.prio).isSome && !(s.freeSlots core).isEmpty) (ev .spill core 0 0))
    ++ (match s.bestReady core with
      | none => []
      | some t => evIf (free && next == some false) (if t.slot = 24 then ev .mothLoad t.ctx.uid 0 0 else ev .reload core 0 0))
  let take : List Ev :=
    match c.event, c.queue with
    | none, e :: _ => evIf (!st.occ) (ev (if e.cause = 0x23 ∧ e.sub = 0 ∧ !e.fw then .message else .stewardEvent) core 0 0)
    | _, _ => []
  let work : List Ev :=
    match c.event with
    | none => []
    | some e =>
      if !e.fw then []
      else
        match e.cmd with
        | 1 =>
          let late := (match s.victim core e.tenant (e.word 1 % 2 ^ 32) with
            | .ctx _ => e.seq != 0 && s.elapsed (e.seq - 1) 100000 && (s.freePair core).isNone
            | _ => false)
          let go := (match s.victim core e.tenant (e.word 1 % 2 ^ 32) with
            | .ctx k => if (s.ctx k).stopped.isNone then s.mayStop k else s.semTaken k || s.preemptDrained k && (e.seq == 0 || (s.freePair core).isSome)
            | _ => true)
          evIf go (ev .preempt core 0 0) ++ evIf late (ev .preemptGiveUp core 0 0)
        | 2 =>
          let waits := e.seq != 0 && (match s.spilledNamed core (e.word 1 % 2 ^ 32) with
            | some t => s.relReqs t.ctx.uid core 2 != [] || s.vbanks.any (fun b => b.2.tag == some t.ctx.uid) || !s.ringFits core (e.word 2) t.ctx.uid
            | none => false)
          evIf (!waits) (ev .resume core 0 0)
        | 3 => [ev .timer core 0 0]
        | 4 => [ev .watchdog core 0 0]
        | 5 => [ev .groupCreate core 0 0]
        | 6 => [ev .groupDissolve core 0 0]
        | 7 => [ev .counterClaim core 0 0]
        | 8 => [ev .counterRelease core 0 0]
        | 9 => [ev .parcelDrop core 0 0]
        | _ => []
  start ++ take ++ work
    ++ (c.compare.filter (fun e => e.2 != 0 && decide (e.2 ≤ s.time))).map (fun e => ev .timerExpiry core e.1 0)
    ++ evIf (c.stubs.any (fun b => decide (b.taken + stubLife ≤ s.time))) (ev .stubExpiry core 0 0)

/-- The cores that hold anything of their own. -/
def State.liveCores (s : State) : List Nat :=
  distinct (s.cores.map (·.1) ++ s.ctrs.map (fun e => e.1 / 64) ++ s.stored.map (·.goal))

/-- Threads on the move (R226 to R228). -/
def State.storedEvents (_s : State) (t : Stored) : List Ev :=
  if t.slot = 25 then [ev (if t.ret then .mothReturn else .relocationArrival) t.ctx.uid 0 0]
  else if t.slot = 27 then [ev .relocationRefusal t.ctx.uid 0 0]
  else []

/-- A pre-empted thread's bank leaves its context when something waits for it (R375). -/
def State.bankLeaves (s : State) (k : Nat) (b : VBank) : Bool :=
  match b.tag with
  | none => false
  | some u =>
    s.ctxs.any (fun e => e.2.park == some (.bank k))
      || s.stored.any (fun t => t.ctx.uid == u && t.goal != k / 16)
      || (match (s.core (k / 16)).event with
          | some e => e.fw && e.cmd == 2 && e.seq != 0 && s.stored.any (fun t => t.ctx.uid == u && t.ctx.name == e.word 1 % 2 ^ 32)
          | none => false)

/-- Everything that happens to threads without an instruction. -/
def State.threadEvents (s : State) : List Ev :=
  s.liveCores.flatMap s.coreEvents
    ++ s.stored.flatMap s.storedEvents
    ++ s.ctxs.flatMap (fun e =>
      evIf (s.takesLate e.1 e.2) (ev .lateFaultDelivery (e.1 / 16) (e.1 % 16) 0)
        ++ evIf (s.watchdogDue e.1) (ev .watchdogExpiry e.1 0 0)
        ++ evIf ((match e.2.park with
            | some (.guard l _) => s.heldByOther l e.2.launch && s.elapsed e.2.since 1000000
            | _ => false)) (ev .guardWaitTimeout e.1 0 0))
    ++ (s.vbanks.filter (fun e => s.bankLeaves e.1 e.2)).map (fun e => ev .vectorStateSave e.1 0 0)

/-! ### Launches, parcels and groups -/

/-- A tenant whose restore runs or has failed starts nothing (R404, R452). -/
def State.restoring (s : State) (t : Nat) : Bool :=
  match (s.page t).rst with
  | .running => true
  | .failed => true
  | _ => false

/-- What can happen to a launch (R159, R160, R171, R174, R175). -/
def State.launchEvents (s : State) (l : Launch) : List Ev :=
  let held := s.restoring l.tenant
  let scrubs := l.tiles.any (fun t => (s.tile t).scrubbing || s.owesScrub l.tenant t)
  evIf (l.st == .waiting && !held && (s.prereqs l).isSome) (ev .prerequisitesMet l.id 0 0)
    ++ evIf (!held && (s.engineFree l || l.scanning)) (ev .admissionScan l.id 0 0)
    ++ evIf (l.backoff.any (fun c => decide (c ≤ s.cycle))) (ev .reservationBackoffExpiry l.id 0 0)
    ++ evIf (l.st == .placing && !l.head && decide (l.placing + 1000000 ≤ s.time)) (ev .headOfLine l.id 0 0)
    ++ evIf (l.reservedAll && !scrubs) (ev .clusterCommit l.id 0 0)
    ++ (s.feeds l).map (fun q => ev .backlogFeed q.1 q.2 0)
    ++ evIf ((match l.st with
        | .running => s.finished l
        | .completing => !(l.phase == 1 && (s.launchWrites l.id || (l.guard == .hold && (s.retireLacks l.id).any (fun v => smGet 0 s.stalls v != 0))))
        | .rejected => true
        | .failed => true
        | _ => false)) (ev .launchCompletion l.id 0 0)

/-- What can happen to a parcel (R465). -/
def State.parcelEvents (s : State) (t : Nat) (p : Parcel) : List Ev :=
  (match p.st with
    | .lent _ _ _ due => evIf (decide (due ≤ s.time)) (ev .leaseExpiry t p.slot 0)
    | _ => [])
    ++ evIf (p.queued && p.borrowed.any (fun l => decide (l.due ≤ s.time))) (ev .borrowedExpiry t p.slot 0)

/-- What can happen to a group (R397, R398, R432, R434). -/
def State.groupEvents (s : State) (g : Group) : List Ev :=
  let cutting := g.cut && (if !g.multi then g.complete && s.cutFree g.tenant
    else if g.cutPhase = 0 then g.rank == 0 && g.nodeFull
    else if g.cutPhase = 1 then s.cutFree g.tenant
    else if g.cutPhase = 4 then g.cutStat != 0 || s.cutFree g.tenant
    else (g.cutPhase == 2 || g.cutPhase == 5) && (childRanks g.rank g.cubes.length).all g.cutAcks.contains)
  evIf cutting (ev .checkpointCut g.tenant g.handle 0)
    ++ evIf (g.cubeDue && !s.launchHolds g) (ev .cubeArrival g.tenant g.handle 0)
    ++ evIf (g.live && g.multi && g.rank == 0 && g.nodeFull && (!g.cut || g.cutPhase == 6)) (ev .cubeRelease g.tenant g.handle 0)
    ++ evIf (!g.live && g.multi && g.rank == 0 && g.nodeFull) (ev .groupLive g.tenant g.handle 0)
    ++ evIf (!g.live && decide (g.since + 10000000 ≤ s.time)) (ev .groupCreateTimeout g.tenant g.handle 0)

/-- Launches, tiles, groups, checkpoints and restores. -/
def State.clusterEvents (s : State) : List Ev :=
  s.launches.flatMap s.launchEvents
    ++ evIf (s.launches.any (fun l => l.st == .running) && decide (s.diffused ≤ s.cycle / 256)) (ev .diffusionPeriod 0 0 0)
    ++ evIf (!s.moving.isEmpty) (ev .parcelArrival 0 0 0)
    ++ s.tiles.flatMap (fun e => e.2.parcels.flatMap (s.parcelEvents e.1) ++ evIf (s.scrubDue e.1) (ev .tileScrub e.1 0 0))
    ++ s.groups.flatMap s.groupEvents
    ++ (s.ivals.filter (fun e => e.2.st == .draining)).map (fun e => ev .checkpointDrain (e.1 / 64) (e.1 % 64) 0)
    ++ ((distinct (s.ivals.map (fun e => e.1 / 64))).filter s.closing).map (fun t => ev .checkpointDrain t 64 0)
    ++ (s.pages.filter (fun e => e.2.rst == .running)).map (fun e => ev .restore e.1 0 0)
    ++ (match s.contain with
        | [] => []
        | (core, ctx, _) :: _ =>
          let ts := ((s.consumedIn core ctx).map s.cluster).getD []
          evIf (!s.cmds.any (fun c => ts.contains c.unit && c.cls == .health && c.opc == 1 && c.st == .started)) (ev .containment 0 0 0))

/-! ### Vector units, engines and cisterns -/

/-- A push command: started, or the chunk, wait or end that comes next (R267, R281, R290). -/
def State.pushEvents (s : State) (c : Cmd) : List Ev :=
  let late := c.work.getD 0 0 == 3 && decide (c.work.getD 1 0 + 1000000 ≤ s.time)
  let stuck := c.work.getD 0 0 == 1 || !(s.cmdReqs c).isEmpty
  evIf (s.mayStartPush c) (ev .pushStart c.id 0 0)
    ++ evIf (c.st == .started && !stuck) (ev .pushCompletion c.id 0 0)
    ++ evIf (c.st == .started && !stuck && late) (ev .pushCompletion c.id 1 0)

/-- A matrix command (R306, R307, R331). -/
def State.matrixEvents (s : State) (c : Cmd) : List Ev :=
  let head := c.st == .queued && (s.engineQueue c.unit .matrix).head?.any (fun d => d.id == c.id)
  let n := bits (c.slot 4) 8 7
  let go := (c.flip != 0 && c.waited == 0) || (if n != 0 && c.waited == 0 then true else (n == 0 || c.waited == 2) && s.matrixFree c)
  evIf (head && go) (ev .matrixCommandStart c.id 0 0) ++ evIf (s.matrixMayStep c) (ev .matrixCommandCompletion c.id 0 0)

/-- A health command (R323, R324, R326). -/
def State.healthEvents (s : State) (c : Cmd) : List Ev :=
  let head := c.st == .queued && (s.engineQueue c.unit .health).head?.any (fun d => d.id == c.id)
  evIf (s.healthFree c || head && c.flip != 0) (ev .healthCommandStart c.id 0 0)
    ++ evIf (c.st == .started) (ev (if c.opc = 0 then .mtestCompletion else .mremapCompletion) c.id 0 0)

/-- A collective command (R443). -/
def State.collectiveEvents (s : State) (c : Cmd) : List Ev :=
  let w := c.work.getD 0 0
  evIf (s.mayStartColl c) (ev .collectiveCommandStart c.id 0 0)
    ++ evIf (s.collMayStep c) (ev .collectiveCompletion c.id 0 0)
    ++ evIf (s.collMayStep c && w == 3 && decide (c.work.getD 1 0 + 1000000 ≤ s.time)) (ev .collectiveCompletion c.id 1 0)
    ++ evIf (c.st == .started && decide (c.work.getD 2 0 + 10000000 ≤ s.time)) (ev .collectiveTimeout c.id 0 0)

/-- The events of a command by its engine. -/
def State.cmdEvents (s : State) (c : Cmd) : List Ev :=
  match c.cls with
  | .push => s.pushEvents c
  | .matrix => s.matrixEvents c
  | .health => s.healthEvents c
  | .collective => s.collectiveEvents c

/-- A cistern invocation (R343, R405). -/
def State.invEvents (s : State) (n : Inv) : List Ev :=
  let runs := n.st == .running && !n.asked
  evIf (s.mayStartInv n) (ev .cisternInvocationStart n.id 0 0)
    ++ (if runs then [ev .cisternInvocationCompletion n.id 0 0, ev .cisternInvocationCompletion n.id 0 1] else [])
    ++ evIf (runs && n.since != 0 && decide (n.since + 1000000 ≤ s.time + 1)) (ev .cisternInvocationCompletion n.id 1 0)
    ++ (if runs && n.since == 0 && decide (n.last + 1000000 ≤ s.time) then
          ((upTo 48).filter (fun g => bitAt n.set g)).map (fun g => ev .seqReset n.vault g 0)
        else [])

/-- Vector units, engine queues, collectives and cisterns. -/
def State.unitEvents (s : State) : List Ev :=
  (distinct (s.vops.map (·.core))).flatMap (fun c => (s.vectorNext c).toList.map (fun o => ev .vectorStart o.id 0 0))
    ++ s.vops.flatMap (fun o => evIf (s.mayComplete o) (ev .vectorCompletion o.id 0 0))
    ++ s.reps.flatMap (fun r => evIf (r.running && s.ringRoom (r.key / 16)) (ev .repPass r.key 0 0))
    ++ s.cmds.flatMap s.cmdEvents
    ++ s.colls.flatMap (fun k => if s.collReady k then
        [⟨.collectiveNode, { EvArg.zero with b := k.handle, d := k.tag, w := BitVec.ofNat 64 k.tenant }⟩] else [])
    ++ s.invs.flatMap s.invEvents

/-! ### The fabric, the host and firmware -/

/-- Contexts of the packet delivery layer (R418, R419). -/
def State.pdcEvents (s : State) (p : Pdc) : List Ev :=
  (p.sent.filter (fun t => decide (t.next ≤ s.time))).map (fun t => ⟨.retransmission, { EvArg.zero with a := p.peer, c := p.mode, d := t.num }⟩)
    ++ evIf (!p.sent.isEmpty && decide (p.since + 2000000 ≤ s.time)) (ev .peerUnreachable p.peer 0 0)
    ++ evIf (p.unused s.time) (ev .pdcFree p.peer 0 p.mode)

/-- A region that changes its home (R428, R429). -/
def State.mapEvents (s : State) (i : Nat) (r : Region) : List Ev :=
  let own := s.mapJob == some i
  evIf (own && !r.moving && r.next.isSome && s.mapWait.isEmpty) (ev .mapPrepared i 0 0)
    ++ evIf (r.moving && (match s.cursorHomes r with
        | some (a, _) => a.1 == s.cube
            && (!r.frozen || (if r.copied < r.cur.bytes then r.copied != 0 || s.stripeQuiet r else !s.reqs.any (fun q => q.agent == 2 ^ 52)))
        | none => own && !r.cur.valid && r.next.any (fun q => decide (r.cursor < q.size)))) (ev .stripeSwitch i 0 0)
    ++ evIf (s.mayCommit i || own && r.next.isNone && s.mapWait.isEmpty) (ev .mapCommit i 0 0)

/-- Fabric, stripe map, host and cancellation. -/
def State.fabricEvents (s : State) : List Ev :=
  (indices s.arrivals).filterMap (fun i => (s.arrivals[i]?).bind (fun g =>
      if (s.serve g).isSome || s.arrivalLate g then some (ev .remoteRequest i 0 0) else none))
    ++ s.pdcs.flatMap s.pdcEvents
    ++ evIf (!s.pdcWait.isEmpty && s.pdcRoom) (ev .pdcFree 0 1 0)
    ++ (s.lost.filter s.lostTraffic).map (fun q => ev .peerLost q 0 0)
    ++ s.ports.flatMap (fun e =>
      evIf (e.2.training && decide (e.2.since + 100000000 ≤ s.time)) (ev .linkTrainingTimeout e.1 0 0)
        ++ evIf (e.2.up && decide (16 ≤ e.2.replays)) (ev .linkDown e.1 0 0))
    ++ (s.mesh.filter (fun e => decide (8 ≤ e.2) && !smGet false s.meshOut e.1)).map (fun e => ev .meshLinkRetirement e.1 0 0)
    ++ evIf (s.ports.any (fun e => e.2.up) && decide (s.timeSent + 1000000 ≤ s.time)) (ev .timeExchange 0 0 0)
    ++ s.regions.flatMap (fun e => s.mapEvents e.1 e.2)
    ++ evIf (!s.mapQueue.isEmpty && !s.mapBusy) (ev .mapWrite 0 5 0)
    ++ (s.draining.filter s.mayRemove).map (fun c => ev .cubeRemoval c 0 0)
    ++ (indices s.hostOps).filterMap (fun i => (s.hostOps[i]?).bind (fun q =>
      let go := if q.far.isEmpty then !s.reqs.any (fun r => q.words.contains (BitVec.ofNat 64 r.id))
        else s.isRemote q.b || (s.placeHost (hostSectors q q.b)).isSome || s.hostLate q
      if go then some (ev .apertureWrite 0 1 i) else none))
    ++ (s.filters.filter (fun f => !f.acked && !s.jobRuns f.tenant f.job)).map (fun f => ev .cancelAck f.tenant 0 f.job)
    ++ (s.pages.filter (fun e => e.2.busy && e.2.pending.isEmpty)).map (fun e => ev .cancelAck e.1 2 0)
    ++ (s.filters.filter s.filterOver).map (fun f => ev .filterEntryExpiry f.tenant f.job 0)

/-- Start-up and the power limiter (R479, R482, R483). -/
def State.firmwareEvents (s : State) : List Ev :=
  match s.fw.st with
  | .booting => [ev .boot 0 0 0]
  | .started => [ev .firmwareBoot 0 0 0]
  | .ready => evIf (decide (s.fw.measured < s.time / 10000)) (ev .powerMeasurement 0 0 0)
  | .recovery => []

/-- What the machine may do by itself, in no order of the spec's; until boot has completed nothing but the boot happens. -/
def State.ownEvents (s : State) : List Ev :=
  s.firmwareEvents ++
    (if s.ready then s.memoryEvents ++ s.threadEvents ++ s.clusterEvents ++ s.unitEvents ++ s.fabricEvents else [])

/-! ### Inputs -/

/-- What names an event that waits for another cube's answer. -/
def Ev.key (e : Ev) : Ev := ev e.op e.arg.a e.arg.b 0

/-- An event waits for another cube's answer. -/
def State.waitsFor (s : State) (e : Ev) : Bool := s.asks.any (fun q => q.key == e.key)

/-- What may reach the cube from outside: packets of other cubes, answers that an event has asked for, the host and the management device, links, and faults of the hardware. DESIGN CHOICE, unsafe: log entry 12. DESIGN CHOICE, unsafe: log entry 59. -/
def State.isInput (s : State) (e : Ev) : Bool :=
  s.waitsFor e
    || (match e.op with
      | .producerCompletion => e.arg.b == 1
      | .remoteWriteAcknowledgement => true
      | .moved => true
      | .pageWalk => !e.arg.words.isEmpty
      | .checkpointCut => e.arg.d != 0
      | .remoteRequest => e.arg.peer.isSome
      | .retransmission => e.arg.b != 0
      | .trimmedPacket => true
      | .uudPacket => true
      | .peerLost => e.arg.peer.isSome || e.arg.b == 1
      | .linkLevelRetry => true
      | .linkRetrain => true
      | .meshLinkRetirement => e.arg.b != 0
      | .timeExchange => e.arg.b == 1
      | .mapWrite => decide (e.arg.b ≤ 3)
      | .mapPrepared => e.arg.b != 0
      | .stripeSwitch => e.arg.b == 1
      | .mapCommit => e.arg.b != 0
      | .cubeArrival => !e.arg.words.isEmpty
      | .cubeRelease => !e.arg.words.isEmpty
      | .groupLive => e.arg.d != 0
      | .groupDissolve => e.arg.b == 1
      | .collectiveNode => e.arg.a != 0
      | .apertureRead => true
      | .apertureWrite => e.arg.b == 0
      | .unbackedAccess => true
      | .launchWindowWrite => true
      | .controlRegisterWrite => true
      | .wrefmap => true
      | .evcause => true
      | .cancel => true
      | .rstctl => true
      | .cancelPacket => true
      | .cancelAck => e.arg.b == 1
      | .cancelDone => true
      | .tenantCreate => true
      | .tenantReset => true
      | .tenantDestroy => true
      | .clusterCommit => e.arg.b == 1
      | .directoryLookup => e.arg.b != 0
      | .movedNotice => e.arg.b == 1
      | .messageArrival => e.arg.b == 1 || e.arg.pkt.isSome
      | .fillArrival => e.arg.pkt.isSome
      | .stealRequest => true
      | .stealAnswer => true
      | .doneReport => true
      | .returnReport => true
      | .relocationArrival => e.arg.b != 0
      | .relocationRefusal => true
      | .mothReturn => e.arg.b != 0
      | .ctxKill _ _ _ => true
      | .errorInjection => true
      | .seqReset => true
      | .vaultReset => true
      | .meshRequestResend => true
      | .coldReset => true
      | .powerDown => true
      | .warmReset => true
      | .transferFw => true
      | .activateFw => true
      | .attest => true
      | .getId => true
      | .getStatus => true
      | .writeBoardRecord => true
      | .setPowerLimit => true
      | _ => false)

/-- Inputs that mean something to a cube that has no power, or has not completed boot (R478, R482, R485). DESIGN CHOICE, unsafe: log entry 54. -/
def early (op : Instr) : Bool :=
  match op with
  | .coldReset => true
  | .powerDown => true
  | .warmReset => true
  | .transferFw => true
  | .activateFw => true
  | .attest => true
  | .getId => true
  | .getStatus => true
  | .linkRetrain => true
  | .linkLevelRetry => true
  | _ => false

/-- Whether the cube takes an input in its present state; others are lost. -/
def State.takes (s : State) (e : Ev) : Bool :=
  if !s.power then e.op == .coldReset
  else s.isInput e && (s.ready || early e.op)

/-! ### One turn -/

/-- What the next step does: nothing without power, an instruction or event on a prepared state, or a step without one. -/
inductive Next where
  | off
  | run (i : Instr) (s : State)
  | quiet (s : State)

/-- The event that has just asked another cube waits for the answer. -/
def State.noteAsk (s : State) (i : Instr) (g : EvArg) : State :=
  match s.asking with
  | some c =>
    let k := ev i g.a g.b c
    { s with asking := none, asks := if s.waitsFor k then s.asks else k :: s.asks }
  | none => s

/-- A number taken: what is known of the numbers afterwards; nothing when it has been taken before. -/
def takeNo (h : Nat × List Nat) (n : Nat) : Option (Nat × List Nat) :=
  if n < h.1 ∨ h.2.contains n then none
  else
    let ahead := n :: h.2
    let go := (upTo (ahead.length + 1)).foldl (fun b _ => if ahead.contains b then b + 1 else b) h.1
    some (go, ahead.filter (fun m => decide (go ≤ m)))

/-- A packet of another cube at the receiver: whether it is taken. A transmission older than 50 µs is discarded, a duplicate is acknowledged and discarded, and in classes O and C one that is ahead of its order is discarded until it comes again (R248, R419, R420). DESIGN CHOICE, unsafe: log entry 95. -/
def State.receive (s : State) (e : Ev) : Bool × State :=
  match e.arg.seq, e.arg.peer with
  | some (m, n, at_), some p =>
    let h := smGet (0, []) s.heard (pdcKey p m)
    let ack (s : State) : State := s.sendOut .retransmission { EvArg.zero with a := s.cube, b := 1, c := m, d := n, peer := some p }
    if at_ + 50000 < s.time then (false, s)
    else if (m = 1 ∨ m = 3) ∧ h.1 < n then (false, s)
    else
      match takeNo h n with
      | none => (false, ack s)
      | some h => (true, ack { s with heard := smPut (0, []) s.heard (pdcKey p m) h })
  | _, _ => (true, s)

/-- An event on a prepared state; core 320 is none. -/
def State.runEvent (s : State) (e : Ev) : Next :=
  .run e.op { s with cur := (320, 0), arg := e.arg, asks := if s.asks.isEmpty then [] else s.asks.filter (fun q => q.key ≠ e.key) }

/-- The words of the line that a fetch gives, from the pc on. -/
def fetchedWords (b : List Byte) (pc : Word) : List Nat :=
  let o := pc.toNat % 128
  lineWords b o ((128 - o) / 4)

/-- A context issues: its instruction is fetched and decoded; a thread on its way home leaves instead, and a moth whose instruction only its home has goes home too (R24, R34, R41, R228); so does a command whose timeline select only the home core accepts (R58). DESIGN CHOICE, unsafe: log entry 79. -/
noncomputable def State.runCtx (s : State) (core i : Nat) : Next :=
  let s := { s with cur := (core, i), arg := EvArg.zero }
  let x := s.self
  if x.home.isSome && (x.park == some .homeward || x.memo == [2]) then .quiet s.goHome
  else
    let s := s.setSelf { x with park := none }
    match s.fetch x.pc.toNat with
    | .stop t => .quiet t
    | .line b t =>
      let t := if x.entering then t.setSelf { t.self with entering := false } else t
      let ws := fetchedWords b x.pc
      let aligned := decide (x.pc.toNat % 32 = 0)
      match decode (kindOf core) aligned ws with
      | .ok j => .run j t
      | .illegal sub =>
        let away := x.home.any (fun h => match decode (kindOf h.core) aligned ws with
          | .ok _ => true
          | .illegal _ => false)
        if away then .quiet (t.setSelf { t.self with park := some .homeward, memo := [] })
        else .run .illegal { t with arg := { EvArg.zero with a := sub.val, w := BitVec.ofNat 64 (ws.headD 0) } }

/-- What may happen next: one of the machine's own events, or an instruction of a core. -/
inductive Choice where
  | event (e : Ev)
  | core (c : Nat)

/-- The choices of a state. DESIGN CHOICE, safe: log entry 5. -/
def State.choices (s : State) : List Choice :=
  ((s.ownEvents.filter (fun e => !s.waitsFor e)).map Choice.event) ++ (if s.ready then s.busyCores.map Choice.core else [])

/-- The next turn: an input first, then one of the choices. DESIGN CHOICE, unsafe: log entry 4. DESIGN CHOICE, safe: log entry 11. -/
noncomputable def State.turn (s : State) : Next :=
  match s.inputs with
  | e :: r =>
    let s := { s with inputs := r }
    if s.takes e then
      let (new, s) := s.receive e
      if new then s.runEvent e else .quiet s
    else .quiet s
  | [] =>
    if !s.power then .off
    else
      match s.choices with
      | [] => .quiet s
      | [.event e] => s.runEvent e
      | [.core c] =>
        let l := s.candidates c
        match s.selected c l with
        | some i => (s.select c i l).runCtx c i
        | none => .quiet s
      | c :: l =>
        let (q, s) := s.pick c (c :: l)
        match q with
        | .event e => s.runEvent e
        | .core c =>
          let l := s.candidates c
          match s.selected c l with
          | some i => (s.select c i l).runCtx c i
          | none => .quiet s

/-! ### Between instructions -/

/-- Threads to be terminated go, and threads that have ended go once nothing of theirs is pending (R119, R379). -/
def State.sweep (s : State) : State :=
  let s := (s.ctxs.filter (fun e => e.2.occ && e.2.dying)).foldl (fun s e => if (s.ctx e.1).occ && (s.ctx e.1).dying then s.killCtx e.1 else s) s
  let s := (s.stored.filter (fun t => t.ctx.dying && decide (t.slot < 25))).foldl (fun s t => if s.stored.contains t then s.killStored t else s) s
  (s.ctxs.filter (fun e => e.2.occ && e.2.ending)).foldl (fun s e => if (s.ctx e.1).occ && (s.ctx e.1).ending && s.endReady e.1 then s.finishThread e.1 else s) s

/-- Nanoseconds that the slew takes from or adds to an interval: one in 5,000, and never more than is still to slew (R431). -/
def State.slewed (s : State) (ns : Nat) : Int × Nat :=
  if s.slew = 0 then (0, 0)
  else
    let a := s.slewAcc + ns
    let n := a / 5000
    if s.slew.natAbs ≤ n then (s.slew, 0)
    else (if s.slew < 0 then -(n : Int) else (n : Int), a % 5000)

/-- Time goes on by n core cycles of 1.2 GHz (R15, R431). DESIGN CHOICE, safe: log entry 6. -/
def State.advanceTime (s : State) (n : Nat) : State :=
  let ns := (s.cycle + n) * 5 / 6 - s.cycle * 5 / 6
  let (d, acc) := s.slewed ns
  { s with cycle := s.cycle + n, time := ((s.time + ns : Nat) + d).toNat, slew := s.slew - d, slewAcc := acc }

/-- The end of a step: a note of a question to another cube, threads that go, and time, at least one cycle of it. -/
def State.settle (s : State) (i : Instr) (g : EvArg) : State :=
  let n := 1 + Config.ticks s.free
  ({ s.noteAsk i g with arg := EvArg.zero }.sweep).drawn.advanceTime n

end Sys2Proof.Machine
end

