-- ==== Sys2Proof/Machine/Step.lean ====
section
/-! DEFINITION. One step of the machine, and the placing of an instruction where the next step fetches it. -/

namespace Sys2Proof.Machine

/-- One step: the next turn is an instruction or event, run by `exec`, or a change without one; then what happens between instructions. -/
noncomputable def step (s : State) : Host.Outcome State Fault Refusal :=
  match s.turn with
  | .off => .fault .powerOff
  | .quiet t => .next (t.settle .cpsync EvArg.zero)
  | .run i t =>
    match exec i t with
    | .next u => .next (u.settle i t.arg)
    | .fault f => .fault f
    | .refused r => .refused r

/-- The core whose kind decodes the words: A, else E, else V. -/
noncomputable def coreFor (ws : List Nat) : Nat :=
  match decode .a true ws with
  | .ok _ => 0
  | .illegal _ =>
    match decode .e true ws with
    | .ok _ => 1
    | .illegal _ => 256

/-- A cube that has completed boot, with one thread, of tenant 0 in supervisor mode, on a core that has the instruction, at pc 0, which is mapped to the first page of a region homed here; the instruction stands in the core's instruction cache.
It stands for what the host, the launch unit and the tables do before a program's first instruction (see the log entry on how a program comes to run). -/
noncomputable def State.withFetchWord (s : State) (nbits w : Nat) : State :=
  let ws := wordsOf (w % 2 ^ nbits) 8
  let core := coreFor ws
  let x : Ctx := { Ctx.free with occ := true, uid := s.nid, name := 2 ^ 31 + s.cube * 2 ^ 18 + core * 2 ^ 9, priv := .supervisor, issued := s.cycle }
  let r : Region := { Region.zero with cur := { Stripes.zero with valid := true, n := 1, size := 16 } }
  let e : TlbEntry := { tenant := 0, page := 0, size := 65536, pa := 0, attr := 12 }
  let line := toBytes (w % 2 ^ nbits) 128
  let c := s.core core
  { s with
    power := true, inputs := [], nid := s.nid + 1
    fw := { s.fw with st := .ready, measured := s.time / 10000 }
    regions := smPut Region.zero s.regions 0 r
    settab := smPut 0 s.settab 0 s.cube
    tlbs := smPut [] s.tlbs (unitOf core) (e :: s.tlb (unitOf core))
    ctxs := smPut Ctx.free s.ctxs (ctxKey core 0) x
    cores := smPut CoreSt.zero s.cores core { c with icache := ⟨0, line⟩ :: c.icache } }

end Sys2Proof.Machine
end

