-- ==== Sys2Proof/Safety.lean ====
section
/-! DEFINITION. The words in which claims are made: what an instruction answers, when its registers let it issue, what a step may change, and the runs of the machine. -/

namespace Sys2Proof.Machine

/-- exec answers a next state, and that state has the property. -/
def Answers (i : Instr) (s : State) (p : State → Prop) : Prop := ∃ t, exec i s = .next t ∧ p t

/-- A source that an instruction can read at once (R10, R13, R62, R180, R365): a full unmarked register that no vector work holds, or a port that is there, named without a trap bit, with a filled unmarked entry at its head. -/
def State.srcReady (s : State) (q : Reg × Bool) : Bool :=
  !heldWrite s s.me q.1.val
    && (if isPort q.1.val then portReadable s q.1.val && !q.2 && (s.portHead q.1.val).any (fun e => e.filled && !e.poison)
      else (s.self.cell q.1.val).st == .full && !(s.self.cell q.1.val).poison)

/-- A source that may not be a port and can be read at once (R13). -/
def State.fixedReady (s : State) (q : Reg × Bool) : Bool := !isPort q.1.val && s.srcReady q

/-- A destination that an instruction can write at once (R11, R13, R63, R180, R202): a register that is not pending and that no vector work holds, or a port that is there with room. -/
def State.dstReady (s : State) (d : Reg) : Bool :=
  if d.val = 61 then portWritable s 61 && decide ((s.pinQ s.poutKey).length < 32)
  else if d.val = 63 then portWritable s 63 && decide ((s.upQ s.dnKey).length < 16)
  else !isPort d.val && (s.self.cell d.val).st != .pending && !heldWrite s s.me d.val && !heldRead s s.me d.val

/-- A destination that may not be a port and can be written at once. -/
def State.dstFixedReady (s : State) (d : Reg) : Bool := !isPort d.val && s.dstReady d

/-- Every register of a use lets the instruction issue: nothing is waited for and nothing traps; no port is named twice, and a moth names none (R13, R228). -/
def State.issues (s : State) (u : Use) : Bool :=
  u.srcs.all s.srcReady && u.fixed.all s.fixedReady && u.dsts.all s.dstReady && u.dstsFixed.all s.dstFixedReady
    && (portTwice (u.sources.map (·.1.val) ++ u.dests.map (·.val))).isNone
    && (s.self.home.isNone || !u.usesPort)

/-- What issuing leaves in a context beside what a clause names (R123, R370): no wait, no progress of a partly executed instruction, and the time of issue. -/
def Ctx.afterIssue (x : Ctx) (now : Nat) : Ctx :=
  { x with park := none, memo := [], starve := 0, issued := now, barked := false, stay := false }

/-- An aligned access of n bytes at ea to the core's own local memory that the privilege allows and that nothing holds back (R21, R222, R228, R240). -/
def State.localFree (s : State) (ea n : Nat) (store : Bool) : Prop :=
  (∀ r ∈ s.reqs, r.agent = s.agent → r.acq = 0) ∧ s.self.home = none ∧ ea % n = 0 ∧ localBase ≤ ea ∧ ea + n ≤ localBase + 65536
    ∧ (s.self.priv = .user → ea + n ≤ localBase + 0xD000 ∧ (store = true → s.cur.1 < 256 → ea + n ≤ localBase + 0xCE00))

/-- The release part of an order at a scope is done, and the instruction goes on from s1 (R237): there is none, or it has been waited for, or the thread's reads have returned where they must have and what it starts leaves nothing in flight that it covers. -/
def State.released (s s1 : State) (rel : Bool) (scope : Nat) : Prop :=
  (rel = false ∧ s1 = s) ∨ (rel = true ∧ s.self.memo = [1] ∧ s1 = s)
    ∨ (rel = true ∧ s.self.memo ≠ [1] ∧ s.readsOut scope = [] ∧ s1 = s.releaseStart scope ∧ s1.relReqs s.agent s.cur.1 scope = [])

/-- Only the running context and the port queues differ. -/
def OnlySelf (s t : State) : Prop :=
  t = { s with ctxs := t.ctxs, queues := t.queues, chains := t.chains } ∧ ∀ k, k ≠ s.me → t.ctx k = s.ctx k

/-- Every register of a context but those of a list is as before. -/
def RegsBut (l : List Nat) (x y : Ctx) : Prop := ∀ r, r ∉ l → y.cell r = x.cell r

/-- Every byte of memory is as before. -/
def MemSame (s t : State) : Prop := ∀ a, Memory.byte t.mem a = Memory.byte s.mem a

/-- Every byte of memory outside n bytes from address a is as before. -/
def MemBut (a n : Nat) (s t : State) : Prop := ∀ b, (b < a ∨ a + n ≤ b) → Memory.byte t.mem b = Memory.byte s.mem b

/-- The memory is in its canonical form. -/
def State.memOk (s : State) : Bool := Memory.wf s.mem

/-- One step leads from a state to a next one. -/
def Leads (s t : State) : Prop := step s = .next t

/-- The states that runs from s reach. -/
inductive Reach (s : State) : State → Prop where
  | here : Reach s s
  | more {t u : State} : Reach s t → Leads t u → Reach s u

/-- The machine stops here only because its power is off. -/
def StopsOnlyOff (s : State) : Prop := ∀ f, step s = .fault f → s.power = false ∧ s.inputs = []

/-- A run is safe from s when it is never refused and stops only with the power off. -/
def SafeFrom (s : State) : Prop := ∀ t, Reach s t → StopsOnlyOff t ∧ ∀ r, step t ≠ .refused r

/-- The exact value of a number (R94, R95). -/
def Num.rat (n : Num) : Rat := (if n.neg then -1 else 1) * n.m * 2 ^ n.e

/-- An exact value that need not be rational: the rationals at or below it, and those at or above it. -/
structure Cut where
  le : Rat → Prop
  ge : Rat → Prop

/-- The cut of a rational. -/
def Cut.of (x : Rat) : Cut := ⟨fun q => q ≤ x, fun q => x ≤ q⟩

/-- The cut of the square root of a positive rational. -/
def Cut.sqrt (x : Rat) : Cut := ⟨fun q => q < 0 ∨ q * q ≤ x, fun q => 0 ≤ q ∧ x ≤ q * q⟩

/-- A value of a sign, rounded under a mode to multiples of `ulp`, has at least the magnitude `top`, which is a multiple with an even neighbourhood (R103, R104). -/
def Cut.reaches (c : Cut) (rm : Nat) (top ulp : Rat) : Bool → Prop
  | false => if rm = 2 then ¬ c.ge (top - ulp) else c.le (if rm = 0 then top - ulp / 2 else top)
  | true => if rm = 3 then ¬ c.le (ulp - top) else c.ge (if rm = 0 then ulp / 2 - top else -top)

/-- A value and a number of a format are as the rounding mode says, against every other number k of the format (R103). -/
def Cut.nearest (c : Cut) (rm : Nat) (x : Nat) (n k : Rat) : Prop :=
  match rm with
  | 0 => (n < k → c.ge ((n + k) / 2)) ∧ (k < n → c.le ((n + k) / 2)) ∧ (n ≠ k → c.le ((n + k) / 2) → c.ge ((n + k) / 2) → x % 2 = 0)
  | 1 => (c.le 0 → c.le n ∧ (c.le k → k ≤ n)) ∧ (c.ge 0 → c.ge n ∧ (c.ge k → n ≤ k))
  | 2 => c.ge n ∧ (c.ge k → n ≤ k)
  | _ => c.le n ∧ (c.le k → k ≤ n)

/-- A result is the exact nonzero value c rounded once to a format under a mode, with its flags (R103 to R105). -/
def Cut.roundsTo (c : Cut) (f : Fmt) (rm : Nat) (r : FRes) : Prop :=
  (∀ neg, c.reaches rm (2 ^ (f.bias + 1)) (2 ^ (f.bias - f.fw)) neg →
    r.flags = flOverflow + flInexact ∧ r.bits = (if rm = 0 ∨ (rm = 2 ∧ neg = false) ∨ (rm = 3 ∧ neg = true) then f.inf neg else f.inf neg - 1))
  ∧ ((∀ neg, ¬ c.reaches rm (2 ^ (f.bias + 1)) (2 ^ (f.bias - f.fw)) neg) →
    ∃ n : Num, f.val r.bits = .num n ∧ r.bits < 2 ^ f.width ∧ (¬ c.ge 0 → n.neg = false) ∧ (¬ c.le 0 → n.neg = true)
      ∧ (∀ b k, f.val b = .num k → c.nearest rm r.bits n.rat k.rat)
      ∧ (r.flags = 0 ∨ r.flags = flInexact ∨ r.flags = flInexact + flUnderflow) ∧ (r.flags = 0 ↔ c.le n.rat ∧ c.ge n.rat)
      ∧ (r.flags = flInexact + flUnderflow ↔ ¬ (c.le n.rat ∧ c.ge n.rat)
        ∧ ∀ neg, ¬ c.reaches rm (2 ^ (1 - (f.bias : Int))) (2 ^ (-(f.bias : Int) - f.fw)) neg))

/-- Element i of w bits of a vector register (R178). -/
def VBank.lane (b : VBank) (v : VReg) (w i : Nat) : Nat := (b.cell v.val).val.toNat / 2 ^ (w * i) % 2 ^ w

/-- Element i of w bits of the vector register that an instruction writes. -/
def VOut.lane (o : VOut) (w i : Nat) : Nat :=
  match o.v with
  | some (_, x) => x.toNat / 2 ^ (w * i) % 2 ^ w
  | .none => 0

/-- An instruction writes the vector register v alone: active elements take the value of `f`, the others stay, and the flags are those of the active elements (R183, R189). -/
def VOut.merges (o : VOut) (b : VBank) (v : VReg) (y : VTy) (p : PReg) (f : Nat → FRes) : Prop :=
  o.p = Option.none ∧ o.s = Option.none ∧ (∃ x, o.v = some (v.val, x))
    ∧ (∀ i, i < vlanes y → o.lane (vwidth y) i = if bitAt (b.pred p) i then (f i).bits % 2 ^ vwidth y else b.lane v (vwidth y) i)
    ∧ ∀ k, o.flags.testBit k = true ↔ ∃ i, i < vlanes y ∧ bitAt (b.pred p) i = true ∧ (f i).flags.testBit k = true

/-- An instruction writes the predicate register q alone: active bits below the lane count take the value of `f`, inactive ones stay, and the others are 0 (R193, R197). -/
def VOut.mergesP (o : VOut) (b : VBank) (q : PReg) (y : VTy) (p : PReg) (f : Nat → Bool × Nat) : Prop :=
  o.v = Option.none ∧ o.s = Option.none ∧ (∃ x : BitVec 128, o.p = some (q.val, x)
      ∧ ∀ i, i < 128 → x.getLsbD i = if i < vlanes y then (if bitAt (b.pred p) i then (f i).1 else bitAt (b.pred q) i) else false)
    ∧ ∀ k, o.flags.testBit k = true ↔ ∃ i, i < vlanes y ∧ bitAt (b.pred p) i = true ∧ (f i).2.testBit k = true

/-- A command has left its engine and counts as completed on its thread's timeline (R268, R269). -/
def CmdGone (s u : State) (c : Cmd) : Prop :=
  (∀ d ∈ u.cmds, d.id ≠ c.id)
    ∧ ∀ k, s.ctxOfAgent c.agent = some k → (s.ctx k).home = none → (u.ctx k).timeline c.tl = ((s.ctx k).timeline c.tl).complete c.num

end Sys2Proof.Machine
end

