-- ==== Sys2Proof/Certificates/Slice0/Obligations.lean ====
section
/-! DEFINITION. The statements for the provers. A register use is written ⟨sources with trap bits, sources that are no ports, destinations, destinations that are no ports⟩, and `s.issues u` says that the registers of a use let the instruction issue.
`s.retire i u d v` is the state in which the port sources of u are popped, v is written to d and the instruction i has completed; statements of their own say what each of the three changes. -/

open Sys2Proof Sys2Proof.Machine

/-- R65 and R66: each function of two sources writes the value of its row, and completes; s(x) is `toInt`, u(x) is `toNat`.
R65: each function of one source writes the value of its row and completes; bit k of x is `x.getLsbD k`, and byte k is bits 8k to 8k + 7.
Completes: add, sub, and, or, xor, andn, orn, shl, shr, sra, rol, ror, mul, mulh, mulhu, mulhsu, div, divu, rem, remu, min, max, minu, maxu, slt, sltu, seq, sne, clz, ctz, popc, bswap, brev, sextB, sextH, sextW, zextB, zextH, zextW, mix. -/
def Obligations.AluResults : Prop :=
  (∀ r ∈ ([
    (.add, fun a b v => v = a + b),
    (.sub, fun a b v => v = a - b),
    (.and, fun a b v => v = a &&& b),
    (.or, fun a b v => v = a ||| b),
    (.xor, fun a b v => v = a ^^^ b),
    (.andn, fun a b v => v = a &&& ~~~b),
    (.orn, fun a b v => v = a ||| ~~~b),
    (.shl, fun a b v => v = BitVec.ofNat 64 (a.toNat * 2 ^ (b.toNat % 64))),
    (.shr, fun a b v => v = BitVec.ofNat 64 (a.toNat / 2 ^ (b.toNat % 64))),
    (.sra, fun a b v => v = BitVec.ofInt 64 (a.toInt / 2 ^ (b.toNat % 64))),
    (.rol, fun a b v => v = a <<< (b.toNat % 64) ||| a >>> (64 - b.toNat % 64)),
    (.ror, fun a b v => v = a >>> (b.toNat % 64) ||| a <<< (64 - b.toNat % 64)),
    (.mul, fun a b v => v = BitVec.ofNat 64 (a.toNat * b.toNat)),
    (.mulh, fun a b v => v = (BitVec.ofInt 128 (a.toInt * b.toInt)).extractLsb' 64 64),
    (.mulhu, fun a b v => v = (BitVec.ofNat 128 (a.toNat * b.toNat)).extractLsb' 64 64),
    (.mulhsu, fun a b v => v = (BitVec.ofInt 128 (a.toInt * b.toNat)).extractLsb' 64 64),
    (.div, fun a b v => v = if b = 0 then 0xFFFFFFFFFFFFFFFF else if a = 0x8000000000000000 ∧ b.toInt = -1 then 0x8000000000000000 else BitVec.ofInt 64 (a.toInt.tdiv b.toInt)),
    (.divu, fun a b v => v = if b = 0 then 0xFFFFFFFFFFFFFFFF else BitVec.ofNat 64 (a.toNat / b.toNat)),
    (.rem, fun a b v => v = if b = 0 then a else if a = 0x8000000000000000 ∧ b.toInt = -1 then 0 else BitVec.ofInt 64 (a.toInt - b.toInt * a.toInt.tdiv b.toInt)),
    (.remu, fun a b v => v = if b = 0 then a else BitVec.ofNat 64 (a.toNat % b.toNat)),
    (.min, fun a b v => v = if a.toInt ≤ b.toInt then a else b),
    (.max, fun a b v => v = if a.toInt ≥ b.toInt then a else b),
    (.minu, fun a b v => v = if a.toNat ≤ b.toNat then a else b),
    (.maxu, fun a b v => v = if a.toNat ≥ b.toNat then a else b),
    (.slt, fun a b v => v = if a.toInt < b.toInt then 1 else 0),
    (.sltu, fun a b v => v = if a.toNat < b.toNat then 1 else 0),
    (.seq, fun a b v => v = if a = b then 1 else 0),
    (.sne, fun a b v => v = if a ≠ b then 1 else 0),
    (.mix, fun a b v => ∃ x y z : Word, x = a + (b <<< 32 ||| b >>> 32) ∧ y = (x ^^^ (x >>> 31)) * 0xC3A59D1746E28B5B
      ∧ z = (y ^^^ (y >>> 29)) * 0x8F1D6B2735C9E4A3 ∧ v = z ^^^ (z >>> 32))] : List ((Reg → Reg → Reg → Bool → Bool → Instr) × (Word → Word → Word → Prop))),
  ∀ (s : State) (d a b : Reg) (t u : Bool), s.issues ⟨[(a, t), (b, u)], [], [d], []⟩ = true →
    ∃ v, r.2 (s.val a) (s.val b) v ∧ exec (r.1 d a b t u) s = .next (s.retire (r.1 d a b t u) ⟨[(a, t), (b, u)], [], [d], []⟩ d v))
  ∧ (∀ r ∈ ([
    (.clz, fun a v => v.toNat ≤ 64 ∧ (a = 0 → v = 64) ∧ (a ≠ 0 → v.toNat < 64 ∧ a.getLsbD (63 - v.toNat) = true)
      ∧ ∀ k, k < v.toNat → a.getLsbD (63 - k) = false),
    (.ctz, fun a v => v.toNat ≤ 64 ∧ (a = 0 → v = 64) ∧ (a ≠ 0 → v.toNat < 64 ∧ a.getLsbD v.toNat = true)
      ∧ ∀ k, k < v.toNat → a.getLsbD k = false),
    (.popc, fun a v => v.toNat = ((List.range 64).filter (fun k => a.getLsbD k)).length),
    (.bswap, fun a v => ∀ k, k < 8 → v.extractLsb' (8 * k) 8 = a.extractLsb' (8 * (7 - k)) 8),
    (.brev, fun a v => ∀ k, k < 64 → v.getLsbD k = a.getLsbD (63 - k)),
    (.sextB, fun a v => v = (a.extractLsb' 0 8).signExtend 64),
    (.sextH, fun a v => v = (a.extractLsb' 0 16).signExtend 64),
    (.sextW, fun a v => v = (a.extractLsb' 0 32).signExtend 64),
    (.zextB, fun a v => v = (a.extractLsb' 0 8).zeroExtend 64),
    (.zextH, fun a v => v = (a.extractLsb' 0 16).zeroExtend 64),
    (.zextW, fun a v => v = (a.extractLsb' 0 32).zeroExtend 64)] : List ((Reg → Reg → Bool → Instr) × (Word → Word → Prop))),
  ∀ (s : State) (d a : Reg) (t : Bool), s.issues ⟨[(a, t)], [], [d], []⟩ = true →
    ∃ v, r.2 (s.val a) v ∧ exec (r.1 d a t) s = .next (s.retire (r.1 d a t) ⟨[(a, t)], [], [d], []⟩ d v))

/-- R65, R71: `sel` and `bfi` read the old value of their destination; `bfx` takes and `bfi` replaces the field whose lowest bit is lo and whose width is w + 1.
R68, R69, R70: the immediate instructions write the value of their rows and complete; the 13-bit immediate is sign-extended.
Completes: sel, addi, andi, ori, xori, slti, sltiu, shli, shri, srai, roli, lui, addpc, bfx, bfi. -/
def Obligations.ImmediatesAndFields : Prop :=
  ((∀ (s : State) (d a b : Reg) (t u : Bool), s.issues ⟨[(d, false), (a, t), (b, u)], [], [d], []⟩ = true →
    exec (.sel d a b t u) s = .next (s.retire (.sel d a b t u) ⟨[(d, false), (a, t), (b, u)], [], [d], []⟩ d
      (if s.val d ≠ 0 then s.val a else s.val b)))
  ∧ (∀ (s : State) (d a : Reg) (t : Bool) (lo w : Fin 64), lo.val + w.val < 64 → s.issues ⟨[(a, t)], [], [d], []⟩ = true →
    exec (.bfx d a t lo w) s = .next (s.retire (.bfx d a t lo w) ⟨[(a, t)], [], [d], []⟩ d
      (((s.val a).extractLsb' lo.val (w.val + 1)).zeroExtend 64)))
  ∧ (∀ (s : State) (d a : Reg) (t : Bool) (lo w : Fin 64), lo.val + w.val < 64 → s.issues ⟨[(d, false), (a, t)], [], [d], []⟩ = true →
    ∃ v : Word, exec (.bfi d a t lo w) s = .next (s.retire (.bfi d a t lo w) ⟨[(d, false), (a, t)], [], [d], []⟩ d v)
      ∧ ∀ k, k < 64 → v.getLsbD k = if lo.val ≤ k ∧ k ≤ lo.val + w.val then (s.val a).getLsbD (k - lo.val) else (s.val d).getLsbD k))
  ∧ ((∀ r ∈ ([
    (.addi, fun a i => a + i),
    (.andi, fun a i => a &&& i),
    (.ori, fun a i => a ||| i),
    (.xori, fun a i => a ^^^ i),
    (.slti, fun a i => if a.toInt < i.toInt then 1 else 0),
    (.sltiu, fun a i => if a.toNat < i.toNat then 1 else 0)] : List ((Reg → Reg → Bool → BitVec 13 → Instr) × (Word → Word → Word))),
    ∀ (s : State) (d a : Reg) (t : Bool) (i : BitVec 13), s.issues ⟨[(a, t)], [], [d], []⟩ = true →
      exec (r.1 d a t i) s = .next (s.retire (r.1 d a t i) ⟨[(a, t)], [], [d], []⟩ d (r.2 (s.val a) (BitVec.ofInt 64 i.toInt))))
  ∧ (∀ r ∈ ([
    (.shli, fun a n => BitVec.ofNat 64 (a.toNat * 2 ^ n)),
    (.shri, fun a n => BitVec.ofNat 64 (a.toNat / 2 ^ n)),
    (.srai, fun a n => BitVec.ofInt 64 (a.toInt / 2 ^ n)),
    (.roli, fun a n => a <<< n ||| a >>> (64 - n))] : List ((Reg → Reg → Bool → Fin 64 → Instr) × (Word → Nat → Word))),
    ∀ (s : State) (d a : Reg) (t : Bool) (n : Fin 64), s.issues ⟨[(a, t)], [], [d], []⟩ = true →
      exec (r.1 d a t n) s = .next (s.retire (r.1 d a t n) ⟨[(a, t)], [], [d], []⟩ d (r.2 (s.val a) n.val)))
  ∧ (∀ (s : State) (d : Reg) (i : BitVec 20), s.issues ⟨[], [], [d], []⟩ = true →
    exec (.lui d i) s = .next (s.retire (.lui d i) ⟨[], [], [d], []⟩ d (BitVec.ofInt 64 (i.toInt * 4096)))
    ∧ exec (.addpc d i) s = .next (s.retire (.addpc d i) ⟨[], [], [d], []⟩ d (s.self.pc + BitVec.ofInt 64 (i.toInt * 4096)))))

/-- R8, R9, R63, R365: what a written destination holds; m is the poison mark of the value. s0 ignores the write; a general register becomes full with the value and the mark, and every other register, context and queue is as before; `pout` and `dn` get one entry behind the others.
R62: reading `pin` or `up` takes exactly one entry, the first; a general register as a source changes nothing.
R84, R383, R385: completion without a jump of an instruction of n bytes from pc on, which ends at last. Nothing but the running context changes; in it the pc, the loop frames and the checker as the clauses say, and what issuing clears.
The checker has been fed with the word w masked as R384 says; a return to a loop start clears it. -/
def Obligations.RegisterWrites : Prop :=
  (∀ (s t : State) (d : Reg) (v : Word) (m : Bool), t = s.putMarked d v m →
    (d.val < 60 → t = { s with ctxs := t.ctxs } ∧ (∀ k, k ≠ s.me → t.ctx k = s.ctx k)
      ∧ t.self = { s.self with regs := t.self.regs } ∧ (∀ r, r ≠ d.val → t.self.cell r = s.self.cell r)
      ∧ t.self.cell d.val = if d.val = 0 then ⟨0, .full, false⟩ else ⟨v, .full, m⟩)
    ∧ (d.val = 61 → t = { s with queues := t.queues } ∧ (∀ k, k ≠ s.poutKey → t.pinQ k = s.pinQ k)
      ∧ t.pinQ s.poutKey = s.pinQ s.poutKey ++ [⟨0, true, v, m⟩])
    ∧ (d.val = 63 → t = { s with chains := t.chains } ∧ (∀ k, k ≠ s.dnKey → t.upQ k = s.upQ k)
      ∧ t.upQ s.dnKey = s.upQ s.dnKey ++ [⟨0, true, v, m⟩]))
  ∧ (∀ (s : State) (q : Reg × Bool),
    (q.1.val = 60 → s.popAll [q] = { s with queues := (s.popAll [q]).queues } ∧ (∀ k, k ≠ s.me → (s.popAll [q]).pinQ k = s.pinQ k)
      ∧ (s.popAll [q]).pinQ s.me = (s.pinQ s.me).tail ∧ ∀ e l, s.pinQ s.me = e :: l → s.val q.1 = e.val)
    ∧ (q.1.val = 62 → s.popAll [q] = { s with chains := (s.popAll [q]).chains } ∧ (∀ k, k ≠ s.me → (s.popAll [q]).upQ k = s.upQ k)
      ∧ (s.popAll [q]).upQ s.me = (s.upQ s.me).tail ∧ ∀ e l, s.upQ s.me = e :: l → s.val q.1 = e.val)
    ∧ (q.1.val < 60 → s.popAll [q] = s ∧ s.val q.1 = (s.self.cell q.1.val).val))
  ∧ (∀ (s : State) (i : Instr) (n : Nat) (w : Nat) (ws : List Nat), encode i = w :: ws →
    s.finishN i n = { s with ctxs := (s.finishN i n).ctxs } ∧ (∀ k, k ≠ s.me → (s.finishN i n).ctx k = s.ctx k)
    ∧ (∀ last, last = s.self.pc + BitVec.ofNat 64 (n - 4) →
      ((∀ f l, s.self.loops = f :: l → ¬ (s.self.pc ≤ f.stop ∧ f.stop ≤ last)) →
        (s.finishN i n).self = { s.self.afterIssue s.cycle with pc := last + 4, sig := sigFeed s.self.sig w })
      ∧ (∀ f l, s.self.loops = f :: l → s.self.pc ≤ f.stop → f.stop ≤ last → f.left - 1 ≠ 0 →
        (s.finishN i n).self = { s.self.afterIssue s.cycle with pc := f.start, sig := 0, loops := { f with left := f.left - 1 } :: l })
      ∧ (∀ f l, s.self.loops = f :: l → s.self.pc ≤ f.stop → f.stop ≤ last → f.left - 1 = 0 →
        (s.finishN i n).self = ((s.setSelf { s.self with loops := l }).finishN i n).self)))

/-- R79: each comparing branch issues and branches as its condition says, to pc + 4 × sext(off).
R79, R84, R85, R383, R385: what a branch does. Taken, the pc becomes the target, the frames whose body does not hold it go, and the checker is 0; not taken, it completes as an instruction of one word whose checker has been fed one more 0 bit.
R80, R81, R85: `jal` and `jalr` write pc + 4 to d and go to their target; `jalr` with a target whose two low bits are not 0 traps ALIGN and writes nothing. The base of `jalr` is no port (R13), and its old value is used.
Completes: brEq, brNe, brLt, brGe, brLtu, brGeu, brBs, brBc, jal, jalr. -/
def Obligations.BranchesAndJumps : Prop :=
  ((∀ r ∈ ([
    (.brEq, fun a b => decide (a = b)),
    (.brNe, fun a b => decide (a ≠ b)),
    (.brLt, fun a b => decide (a.toInt < b.toInt)),
    (.brGe, fun a b => decide (a.toInt ≥ b.toInt)),
    (.brLtu, fun a b => decide (a.toNat < b.toNat)),
    (.brGeu, fun a b => decide (a.toNat ≥ b.toNat))] : List ((Reg → Reg → BitVec 11 → Instr) × (Word → Word → Bool))),
    ∀ (s : State) (a b : Reg) (off : BitVec 11), s.issues ⟨[], [(a, false), (b, false)], [], []⟩ = true →
      exec (r.1 a b off) s = .next (s.branch (r.1 a b off) (r.2 (s.val a) (s.val b)) (s.self.pc + BitVec.ofInt 64 (4 * off.toInt))))
  ∧ (∀ (s : State) (a : Reg) (n : Fin 64) (off : BitVec 11), s.issues ⟨[], [(a, false)], [], []⟩ = true →
      exec (.brBs a n off) s = .next (s.branch (.brBs a n off) ((s.val a).getLsbD n.val) (s.self.pc + BitVec.ofInt 64 (4 * off.toInt)))
      ∧ exec (.brBc a n off) s = .next (s.branch (.brBc a n off) (!(s.val a).getLsbD n.val) (s.self.pc + BitVec.ofInt 64 (4 * off.toInt)))))
  ∧ (∀ (s : State) (i : Instr) (t : Word) (w : Nat) (ws : List Nat), encode i = w :: ws →
    (∀ c, s.branch i c t = { s with ctxs := (s.branch i c t).ctxs } ∧ ∀ k, k ≠ s.me → (s.branch i c t).ctx k = s.ctx k)
    ∧ (s.branch i true t).self = { s.self.afterIssue s.cycle with
        pc := t, sig := 0, loops := s.self.loops.dropWhile (fun f => !(decide (f.start ≤ t) && decide (t ≤ f.stop))) }
    ∧ (∀ c, c = crcBit (sigFeed s.self.sig w) false →
      ((∀ f l, s.self.loops = f :: l → s.self.pc ≠ f.stop) →
        (s.branch i false t).self = { s.self.afterIssue s.cycle with pc := s.self.pc + 4, sig := c })
      ∧ (∀ f l, s.self.loops = f :: l → s.self.pc = f.stop → f.left - 1 ≠ 0 →
        (s.branch i false t).self = { s.self.afterIssue s.cycle with pc := f.start, sig := 0, loops := { f with left := f.left - 1 } :: l })))
  ∧ ((∀ (s : State) (d : Reg) (off : BitVec 20), s.issues ⟨[], [], [d], []⟩ = true →
    exec (.jal d off) s = .next ((s.put d (s.self.pc + 4)).finishJump (.jal d off) (s.self.pc + BitVec.ofInt 64 (4 * off.toInt))))
  ∧ (∀ (s : State) (d a : Reg) (tr : Bool) (imm : BitVec 13) (t : Word), s.issues ⟨[], [(a, tr)], [d], []⟩ = true →
    t = s.val a + BitVec.ofInt 64 imm.toInt →
    (t.extractLsb' 0 2 = 0 → exec (.jalr d a tr imm) s = .next ((s.put d (s.self.pc + 4)).finishJump (.jalr d a tr imm) t))
    ∧ (t.extractLsb' 0 2 ≠ 0 → exec (.jalr d a tr imm) s = .next (s.trap 0x04 0 t)))
  ∧ (∀ (s : State) (i : Instr) (t : Word),
    s.finishJump i t = { s with ctxs := (s.finishJump i t).ctxs } ∧ (∀ k, k ≠ s.me → (s.finishJump i t).ctx k = s.ctx k)
    ∧ (s.finishJump i t).self = { s.self.afterIssue s.cycle with
        pc := t, sig := 0, loops := s.self.loops.dropWhile (fun f => !(decide (f.start ≤ t) && decide (t ≤ f.stop))) }))

/-- R83: `loop` and `loopi`, the end lying at pc + 4e: LOOP at depth 4 or beyond the end of the frame around it; else, once the word at the end's 32-byte block has been fetched, a frame is pushed, or, for a count of 0, the pc goes behind the end instruction.
R383, R384: the signature checker: one bit at a time with the polynomial 0x1021, the masked word from its most significant bit down; the masks by major opcode.
R386: `sig` compares the checker with its value when sigctl.en is set, traps SIG on a difference without a change of the checker, and resets it otherwise.
Completes: loopR, loopi, sig. -/
def Obligations.LoopsAndSignature : Prop :=
  (∀ (s : State) (i : Instr) (n stop : Word),
    ((∃ (a : Reg) (t : Bool) (e : Fin 8192), i = .loopR a t e ∧ n = s.val a ∧ stop = s.self.pc + BitVec.ofNat 64 (4 * e.val)
        ∧ s.issues ⟨[], [(a, t)], [], []⟩ = true)
      ∨ ∃ (c : Fin 16384) (e : Fin 4096), i = .loopi c e ∧ n = BitVec.ofNat 64 c.val ∧ stop = s.self.pc + BitVec.ofNat 64 (4 * e.val)) →
    ((s.self.loops.length = 4 ∨ (∃ f l, s.self.loops = f :: l ∧ f.stop < stop)) → exec i s = .next (s.trap 0x0D 0 stop))
    ∧ (s.self.loops.length ≠ 4 → (∀ f l, s.self.loops = f :: l → stop ≤ f.stop) →
      ∀ b t, s.fetch (stop.toNat / 32 * 32) = .line b t →
        (n ≠ 0 → exec i s = .next (t.setSelf { t.self.afterIssue t.cycle with
          pc := s.self.pc + 4, sig := 0, loops := ⟨s.self.pc + 4, stop, n⟩ :: s.self.loops }))
        ∧ (n = 0 → exec i s = .next (t.setSelf { t.self.afterIssue t.cycle with
          sig := 0, pc := (if (ofBytes ((b.drop (stop.toNat / 32 * 32 % 128)).take 4)) / 2 ^ 26 = 0x3F
            then BitVec.ofNat 64 (stop.toNat / 32 * 32) + 32 else stop + 4) }))))
  ∧ ((∀ (c : BitVec 16) (x : Bool), crcBit c x = if (c.getLsbD 15 ^^ x) = true then (c <<< 1) ^^^ 0x1021 else c <<< 1)
  ∧ (∀ (c : BitVec 16) (w : Nat), w < 2 ^ 32 →
      sigFeed c w = (List.range 32).foldl (fun c k => crcBit c ((w &&& sigMask (w / 2 ^ 26)).testBit (31 - k))) c)
  ∧ (∀ r ∈ [([0x01, 0x16, 0x17, 0x18, 0x1A, 0x1B, 0x1C, 0x1E, 0x2A, 0x2B], 0xFFFFFF3F),
      ([0x02, 0x03, 0x04, 0x05, 0x06, 0x07, 0x12, 0x13], 0xFFFFC000), ([0x0B], 0xFFFFD000),
      ([0x08, 0x0C, 0x0D, 0x0E, 0x0F, 0x1F, 0x28, 0x2C], 0xFFFFDC00), ([0x1D], 0xFFFFDF00), ([0x10], 0xFFFFF800),
      ([0x09, 0x0A, 0x11], 0xFFF00000), ([0x14], 0xFC000000), ([0x19], 0xFFFC0000),
      ([0x15, 0x20, 0x21, 0x22, 0x23, 0x24, 0x25, 0x26, 0x27, 0x29, 0x2D], 0xFFFFFFFF), ([0x3F], 0xFFFFC000)],
      ∀ op ∈ r.1, sigMask op = r.2))
  ∧ (∀ (s : State) (v : BitVec 16),
    (s.self.sigctl.getLsbD 16 = true → s.self.sig ≠ v → exec (.sig v) s = .next (s.trap 0x0A 0 (BitVec.ofNat 64 (s.self.sig.toNat * 65536 + v.toNat))))
    ∧ ((s.self.sigctl.getLsbD 16 = false ∨ s.self.sig = v) → (∀ f l, s.self.loops = f :: l → s.self.pc ≠ f.stop) →
      exec (.sig v) s = .next (s.setSelf { s.self.afterIssue s.cycle with pc := s.self.pc + 4, sig := 0 })))

/-- R87, R88: `fe.clr` and `fe.set` change only whether the register is full, and `fe.test` writes the state of its source, whatever it is, without reading it.
R9, R63: a result that arrives later: the destination is pending (or an entry of its port queue reserved), and a request with the known result is the last one; a producer whose result another event makes known is the same without the data.
Completes: feClr, feSet, feTest. -/
def Obligations.RegisterStates : Prop :=
  ((∀ (s : State) (d : Reg), s.issues ⟨[], [], [], [d]⟩ = true →
    exec (.feClr d) s = .next ((s.setSelf (s.self.setCell d.val ⟨(s.self.cell d.val).val, .idle, (s.self.cell d.val).poison⟩)).finish (.feClr d))
    ∧ exec (.feSet d) s = .next ((s.setSelf (s.self.setCell d.val ⟨(s.self.cell d.val).val, .full, (s.self.cell d.val).poison⟩)).finish (.feSet d)))
  ∧ (∀ (s : State) (d a : Reg), heldWrite s s.me a.val = false → s.self.home = none → 60 ≤ d.val → exec (.feTest d a) s = .next (s.trap 0x08 0 (BitVec.ofNat 64 d.val)))
  ∧ (∀ (s : State) (d a : Reg), s.issues ⟨[], [], [], [d]⟩ = true → heldWrite s s.me a.val = false →
    (a.val < 60 → ∃ v : Word, exec (.feTest d a) s = .next (s.retire (.feTest d a) ⟨[], [], [], [d]⟩ d v)
      ∧ v.toNat = (if (s.self.cell a.val).poison then 4 else 0)
        + (match (s.self.cell a.val).st with | .idle => 0 | .pending => 1 | .full => 2))
    ∧ (60 ≤ a.val → exec (.feTest d a) s = .next (s.trap 0x08 0 (BitVec.ofNat 64 a.val)))))
  ∧ (∀ (s : State) (d : Reg) (v : Word) (u : State),
    (u = s.later d v → ∃ q : Req, u.reqs = s.reqs ++ [q] ∧ q.id = s.nid ∧ q.kind = .status ∧ q.sampled = true ∧ q.data = toBytes v.toNat 8 ∧ q.poison = false
      ∧ q.agent = s.agent ∧ q.dest = (if d.val = 0 then .none else if d.val = 61 then .queue false s.poutKey ⟨8, false⟩ else if d.val = 63 then .queue true s.dnKey ⟨8, false⟩ else .reg d ⟨8, false⟩))
    ∧ ((u = s.later d v ∨ u = (s.producer d).2) →
      u = { s with ctxs := u.ctxs, queues := u.queues, chains := u.chains, reqs := u.reqs, nid := s.nid + 1 } ∧ (∀ k, k ≠ s.me → u.ctx k = s.ctx k)
      ∧ (d.val < 60 → u.self = s.self.pend d.val ∧ u.queues = s.queues ∧ u.chains = s.chains)
      ∧ (d.val = 61 → u.self = s.self ∧ u.pinQ s.poutKey = s.pinQ s.poutKey ++ [⟨s.nid, false, 0, false⟩])
      ∧ (d.val = 63 → u.self = s.self ∧ u.upQ s.dnKey = s.upQ s.dnKey ++ [⟨s.nid, false, 0, false⟩]))
    ∧ (u = (s.producer d).2 → (s.producer d).1 = s.nid ∧ ∃ q : Req, u.reqs = s.reqs ++ [q] ∧ q.id = s.nid ∧ q.kind = .status ∧ q.sampled = false ∧ q.agent = s.agent))

/-- R73: a load from the core's own local memory writes its destination at once, with the widening of its row; a sector that is uncorrectable gives the mark (R488).
R74, R76: a store to the core's own local memory writes exactly its bytes, the lowest first, and completes; `st.nt` does the same there (R233).
R72, R21, R22, R222: the checks of an access of n bytes by a thread at home, which no acquiring atomic holds back: the alignment, then the kind of address, then the translation and the permission, each with its trap.
Completes: ldB, ldBu, ldH, ldHu, ldW, ldWu, ldD, stB, stH, stW, stD, stNtB, stNtH, stNtW, stNtD. -/
def Obligations.LocalAccesses : Prop :=
  (∀ r ∈ ([
    (.ldB, 1, fun x => BitVec.ofInt 64 (BitVec.ofNat 8 x).toInt),
    (.ldBu, 1, fun x => BitVec.ofNat 64 x),
    (.ldH, 2, fun x => BitVec.ofInt 64 (BitVec.ofNat 16 x).toInt),
    (.ldHu, 2, fun x => BitVec.ofNat 64 x),
    (.ldW, 4, fun x => BitVec.ofInt 64 (BitVec.ofNat 32 x).toInt),
    (.ldWu, 4, fun x => BitVec.ofNat 64 x),
    (.ldD, 8, fun x => BitVec.ofNat 64 x)] : List ((Reg → Reg → Bool → BitVec 10 → Instr) × Nat × (Nat → Word))),
  ∀ (s : State) (d a : Reg) (t : Bool) (off : BitVec 10) (ea key : Nat), s.issues ⟨[], [(a, t)], [], [d]⟩ = true →
    ea = (s.val a + BitVec.ofInt 64 (r.2.1 * off.toInt)).toNat → s.localFree ea r.2.1 false → key = localKey s.cur.1 (ea - localBase) →
    exec (r.1 d a t off) s = .next ((s.putMarked d (r.2.2 (ofBytes (Memory.read s.mem key r.2.1))) (smGet false s.bad (key / 16))).finish (r.1 d a t off)))
  ∧ (∀ r ∈ ([(.stB, 1), (.stH, 2), (.stW, 4), (.stD, 8), (.stNtB, 1), (.stNtH, 2), (.stNtW, 4), (.stNtD, 8)] :
    List ((Reg → Reg → Bool → BitVec 10 → Instr) × Nat)),
  ∀ (s : State) (d a : Reg) (t : Bool) (off : BitVec 10) (ea key : Nat), s.issues ⟨[], [(a, t), (d, false)], [], []⟩ = true →
    ea = (s.val a + BitVec.ofInt 64 (r.2 * off.toInt)).toNat → s.localFree ea r.2 true → key = localKey s.cur.1 (ea - localBase) →
    ∃ u : State, exec (r.1 d a t off) s = .next (u.finish (r.1 d a t off)) ∧ u = { s with mem := u.mem, bad := u.bad }
      ∧ (∀ k, k < r.2 → Memory.byte u.mem (key + k) = (s.val d).extractLsb' (8 * k) 8) ∧ MemBut key r.2 s u)
  ∧ (∀ (s : State) (ea n : Nat) (store hostOk : Bool), (∀ q ∈ s.reqs, q.agent = s.agent → q.acq = 0) → s.self.home = none → ea < 2 ^ 64 → n ∈ [1, 2, 4, 8, 16, 128] →
    (ea % n ≠ 0 → s.access ea n n store hostOk = .stop (s.trap 0x04 0 (BitVec.ofNat 64 ea)))
    ∧ (ea % n = 0 → localBase ≤ ea → ea < localBase + 65536 →
      s.access ea n n store hostOk =
        if s.self.priv = .user ∧ localBase + 0xD000 ≤ ea then .stop (s.trap 0x07 4 (BitVec.ofNat 64 ea))
        else if s.self.priv = .user ∧ store = true ∧ s.cur.1 < 256 ∧ localBase + 0xCE00 ≤ ea then .stop (s.trap 0x07 4 (BitVec.ofNat 64 ea))
        else .localMem (ea - localBase))
    ∧ (ea % n = 0 → 2 ^ 56 ≤ ea → ea < 0xF000000000000000 → s.access ea n n store hostOk = .stop (s.trap 0x05 0 (BitVec.ofNat 64 ea)))
    ∧ (ea % n = 0 → kindOf s.cur.1 = .e → ea < localBase → s.access ea n n store hostOk = .stop (s.trap 0x05 0 (BitVec.ofNat 64 ea)))
    ∧ (ea % n = 0 → ea < 2 ^ 56 → kindOf s.cur.1 ≠ .e → s.self.xfault = none → ∀ e, s.tlbHit (unitOf s.cur.1) s.self.tenant ea = some e →
      s.access ea n n store hostOk =
        if (e.pa + ea % e.size) / 2 ^ 48 ≠ 15 ∧ s.home (e.pa + ea % e.size) = none then .stop (s.trap 0x06 3 (BitVec.ofNat 64 ea))
        else if bits e.attr 15 12 ≠ s.self.tenant then .stop (s.trap 0x07 3 (BitVec.ofNat 64 ea))
        else if s.self.priv = .user ∧ bitAt e.attr 3 = false then .stop (s.trap 0x07 2 (BitVec.ofNat 64 ea))
        else if store = true ∧ bitAt e.attr 2 = false then .stop (s.trap 0x07 1 (BitVec.ofNat 64 ea))
        else if (e.pa + ea % e.size) / 2 ^ 48 = 15 ∧ hostOk = false then .stop (s.trap 0x07 5 (BitVec.ofNat 64 ea))
        else .virt ea (e.pa + ea % e.size) e.attr))

/-- R73, R74, R216, R217: loads and stores through a window of the tile store: the load's value arrives later (R9), the store acts at once unless a started matrix command reads the bytes (R317).
R73, R74, R225, R226: an access to a mapped address that does not move its thread. A load makes its destination pending and sends one request for its bytes; an uncached store sends one with its bytes. Memory changes when the request is performed. A store to a line that another launch's guard holds waits (R259, R260).
R212: a cached store into a valid sector writes the tile store's copy and makes the sector dirty; no request is sent and nothing else of memory changes. Two cases send one and are left to other statements: the store has to stay behind another one, or it is a guarded one that first sends another launch's dirty sectors home (R259, R260).
R233: `st.nt` to a mapped address that does not move its thread puts its bytes into the core's combining buffer: a line of its own when the thread has none there and the buffer has room.
Completes: ldB, ldBu, ldH, ldHu, ldW, ldWu, ldD, stB, stH, stW, stD, stNtB, stNtH, stNtW, stNtD. -/
def Obligations.MemoryAccesses : Prop :=
  ((∀ r ∈ ([(.ldB, ⟨1, true⟩), (.ldBu, ⟨1, false⟩), (.ldH, ⟨2, true⟩), (.ldHu, ⟨2, false⟩), (.ldW, ⟨4, true⟩), (.ldWu, ⟨4, false⟩), (.ldD, ⟨8, false⟩)] :
      List ((Reg → Reg → Bool → BitVec 10 → Instr) × Widen)),
    ∀ (s : State) (d a : Reg) (t : Bool) (off : BitVec 10) (w o : Nat), s.issues ⟨[], [(a, t)], [], [d]⟩ = true →
      s.access (s.val a + BitVec.ofInt 64 (r.2.bytes * off.toInt)).toNat r.2.bytes r.2.bytes false true = .tile w o →
      ∃ (u : State) (q : Req), exec (r.1 d a t off) s = .next (u.finish (r.1 d a t off))
        ∧ u = { s with ctxs := u.ctxs, reqs := s.reqs ++ [q], nid := s.nid + 1 } ∧ (∀ k, k ≠ s.me → u.ctx k = s.ctx k)
        ∧ u.self = s.self.pend d.val ∧ q.id = s.nid ∧ q.sampled = true ∧ q.dest = s.longDest d r.2
        ∧ (q.data, q.poison) = s.windowRead (tileOf s.cur.1) w o r.2.bytes)
  ∧ (∀ r ∈ ([(.stB, 1), (.stH, 2), (.stW, 4), (.stD, 8), (.stNtB, 1), (.stNtH, 2), (.stNtW, 4), (.stNtD, 8)] :
      List ((Reg → Reg → Bool → BitVec 10 → Instr) × Nat)),
    ∀ (s : State) (d a : Reg) (t : Bool) (off : BitVec 10) (w o : Nat), s.issues ⟨[], [(a, t), (d, false)], [], []⟩ = true →
      s.access (s.val a + BitVec.ofInt 64 (r.2 * off.toInt)).toNat r.2 r.2 true false = .tile w o →
      s.rangeHeld (tileOf s.cur.1) (windowSpan w o r.2).1 (windowSpan w o r.2).2 = none →
      exec (r.1 d a t off) s = .next ((s.windowWrite (tileOf s.cur.1) w o (toBytes (s.val d).toNat r.2)).finish (r.1 d a t off)))
  ∧ (∀ (s : State) (t o : Nat) (b : List Byte), o % 131072 + b.length ≤ 131072 →
      (s.windowWrite t 0 o b) = { s with mem := (s.windowWrite t 0 o b).mem, bad := (s.windowWrite t 0 o b).bad }
      ∧ (∀ k, k < b.length → Memory.byte (s.windowWrite t 0 o b).mem (scratchKey t (o + k)) = b.getD k 0)
      ∧ MemBut (scratchKey t o) b.length s (s.windowWrite t 0 o b)))
  ∧ ((∀ r ∈ ([(.ldB, ⟨1, true⟩), (.ldBu, ⟨1, false⟩), (.ldH, ⟨2, true⟩), (.ldHu, ⟨2, false⟩), (.ldW, ⟨4, true⟩), (.ldWu, ⟨4, false⟩), (.ldD, ⟨8, false⟩)] :
      List ((Reg → Reg → Bool → BitVec 10 → Instr) × Widen)),
    ∀ (s : State) (d a : Reg) (t : Bool) (off : BitVec 10) (va pa attr : Nat), s.issues ⟨[], [(a, t)], [], [d]⟩ = true →
      s.access (s.val a + BitVec.ofInt 64 (r.2.bytes * off.toInt)).toNat r.2.bytes r.2.bytes false true = .virt va pa attr →
      s.movesTo pa attr = none →
      ∃ (u : State) (q : Req), exec (r.1 d a t off) s = .next (u.finish (r.1 d a t off))
        ∧ u = { s with ctxs := u.ctxs, reqs := s.reqs ++ [q], nid := s.nid + 1 } ∧ (∀ k, k ≠ s.me → u.ctx k = s.ctx k)
        ∧ u.self = s.self.pend d.val ∧ q.id = s.nid ∧ q.dest = s.longDest d r.2 ∧ q.pa = pa ∧ q.size = r.2.bytes
        ∧ (q.kind = .load ∨ q.kind = .fill ∧ s.caches s.cur.1 attr = true)
        ∧ (q.sampled = true → s.caches s.cur.1 attr = true ∧ ∃ b bad, s.cacheHit (tileOf s.cur.1) pa r.2.bytes = some (b, bad)))
  ∧ (∀ r ∈ ([(.stB, 1), (.stH, 2), (.stW, 4), (.stD, 8)] : List ((Reg → Reg → Bool → BitVec 10 → Instr) × Nat)),
    ∀ (s : State) (d a : Reg) (t : Bool) (off : BitVec 10) (va pa attr : Nat), s.issues ⟨[], [(a, t), (d, false)], [], []⟩ = true →
      s.access (s.val a + BitVec.ofInt 64 (r.2 * off.toInt)).toNat r.2 r.2 true false = .virt va pa attr →
      s.movesTo pa attr = none → s.ntConflict pa = none →
      (s.caches s.cur.1 attr = false → s.storeHeld pa attr = false →
        ∃ (u : State) (q : Req), exec (r.1 d a t off) s = .next (u.finish (r.1 d a t off))
          ∧ u = { s with reqs := s.reqs ++ [q], nid := s.nid + 1 } ∧ q.id = s.nid ∧ q.kind = .store ∧ q.dest = .none ∧ q.pa = pa
          ∧ q.data = toBytes (s.val d).toNat r.2 ∧ q.mask = List.range r.2 ∧ q.sampled = false ∧ q.launch = s.self.launch)
      ∧ (s.storeHeld pa attr = (if s.caches s.cur.1 attr then s.lineTaken (tileOf s.cur.1) pa s.self.launch else s.heldByOther (pa / 128) s.self.launch))
      ∧ (s.storeHeld pa attr = true → exec (r.1 d a t off) s = .next (s.parkMe (.guard (pa / 128) va)))
      ∧ (s.caches s.cur.1 attr = true → s.storeHeld pa attr = false → exec (r.1 d a t off) s = .next ((s.storeVirt va pa attr (toBytes (s.val d).toNat r.2)).finish (r.1 d a t off)))))
  ∧ (∀ (s u : State) (va pa attr : Nat) (b : List Byte) (c : CLine), u = s.storeVirt va pa attr b →
    s.caches s.cur.1 attr = true → s.ownPending pa b.length = false → s.guardBehind s.nid pa attr s.self.launch = false →
    (s.tile (tileOf s.cur.1)).find pa = some c → c.has (sectorOf pa) = true → (c.dirty = 0 ∨ c.launch = s.self.launch ∨ s.guarding s.self.launch = false) →
    u = { s with mem := u.mem, bad := u.bad, tiles := u.tiles } ∧ (∀ t, t ≠ tileOf s.cur.1 → u.tile t = s.tile t)
    ∧ (∀ k, k < b.length → Memory.byte u.mem (c.key (tileOf s.cur.1) (pa % 128) + k) = b.getD k 0)
    ∧ MemBut (c.key (tileOf s.cur.1) (pa % 128)) b.length s u
    ∧ ∃ c', (u.tile (tileOf s.cur.1)).find pa = some c' ∧ c'.has (sectorOf pa) = true ∧ bitAt c'.dirty (sectorOf pa) = true ∧ c'.launch = s.self.launch)
  ∧ (∀ r ∈ ([(.stNtB, 1), (.stNtH, 2), (.stNtW, 4), (.stNtD, 8)] : List ((Reg → Reg → Bool → BitVec 10 → Instr) × Nat)),
  ∀ (s : State) (d a : Reg) (t : Bool) (off : BitVec 10) (va pa attr : Nat), s.issues ⟨[], [(a, t), (d, false)], [], []⟩ = true →
    s.access (s.val a + BitVec.ofInt 64 (r.2 * off.toInt)).toNat r.2 r.2 true false = .virt va pa attr → s.movesTo pa attr = none →
    exec (r.1 d a t off) s = .next ((s.ntPut pa attr ((List.range r.2).map (fun o => (pa % 128 + o, (s.val d).extractLsb' (8 * o) 8)))).finish (r.1 d a t off))
    ∧ ((∀ l ∈ s.nt, l.agent = s.agent → l.line ≠ pa / 128) → (s.ntLines s.cur.1).length < 4 →
        ∃ l : NtLine, s.ntPut pa attr ((List.range r.2).map (fun o => (pa % 128 + o, (s.val d).extractLsb' (8 * o) 8))) = { s with nt := s.nt ++ [l] }
          ∧ l.core = s.cur.1 ∧ l.agent = s.agent ∧ l.line = pa / 128 ∧ l.when_ = s.cycle
          ∧ l.bytes = (List.range r.2).map (fun o => (pa % 128 + o, (s.val d).extractLsb' (8 * o) 8))))

/-- R239: what the atomics write for an old value and an operand of n bytes, both below 2^(8n); `cas` writes only on a match.
R237, R238, R239, R240: an atomic on the core's own local memory reads and writes its bytes in one step and returns the old value, once the release part of its order has been done; the acquire part follows. The operand lies in d (a pair for 16 bytes), the replacement of `cas` in the registers behind it.
R238, R240, R241: an atomic on a mapped address becomes one request to the home's atomic unit, carrying its operands, and its destination is pending; a copy of the sector in the tile cache goes first, and so do stores of the tile to it that are still to land.
Completes: amoAdd, amoAnd, amoOr, amoXor, amoMin, amoMax, amoMinu, amoMaxu, amoSwap, amoCas, amoFadd. -/
def Obligations.Atomics : Prop :=
  (∀ n ∈ [4, 8, 16], ∀ old v w : Nat, old < 2 ^ (8 * n) → v < 2 ^ (8 * n) → w < 2 ^ (8 * n) →
    amoNew .add n old v w = some ((old + v) % 2 ^ (8 * n))
    ∧ amoNew .and n old v w = some (old &&& v) ∧ amoNew .or n old v w = some (old ||| v) ∧ amoNew .xor n old v w = some (old ^^^ v)
    ∧ amoNew .min n old v w = some (if (BitVec.ofNat (8 * n) v).toInt < (BitVec.ofNat (8 * n) old).toInt then v else old)
    ∧ amoNew .max n old v w = some (if (BitVec.ofNat (8 * n) old).toInt < (BitVec.ofNat (8 * n) v).toInt then v else old)
    ∧ amoNew .minu n old v w = some (if v < old then v else old) ∧ amoNew .maxu n old v w = some (if old < v then v else old)
    ∧ amoNew .swap n old v w = some v ∧ amoNew .cas n old v w = (if old = v then some w else none)
    ∧ amoNew .fadd n old v w = some (fpAdd .f32 0 old v).bits)
  ∧ (∀ i ∈ ([
    (.amoAdd, AmoOp.add), (.amoAnd, .and), (.amoOr, .or), (.amoXor, .xor), (.amoMin, .min), (.amoMax, .max), (.amoMinu, .minu), (.amoMaxu, .maxu),
    (.amoSwap, .swap), (.amoCas, .cas), (fun d a r c _ t => .amoFadd d a r c t, .fadd)] : List ((Reg → Reg → Fin 4 → Fin 4 → Fin 4 → Bool → Instr) × AmoOp)),
  ∀ (s s1 : State) (d a : Reg) (r c w : Fin 4) (t : Bool) (n ea key v x old : Nat) (g : Nat → Nat), n = (if i.2 = .fadd then 4 else 4 * 2 ^ w.val) → n ≤ 16 →
    s.issues ⟨[], (a, t) :: amoSrcs i.2 n d, [], amoDsts n d⟩ = true → ea = (s.val a).toNat → s.localFree ea n true →
    s.released s1 (decide (2 ≤ r.val)) c.val → key = localKey s.cur.1 (ea - localBase) → smGet false s.bad (key / 16) = false →
    g = (fun k => (s.val (Fin.ofNat 64 (d.val + k))).toNat) → v = (if n = 16 then g 0 + g 1 * 2 ^ 64 else g 0 % 2 ^ (8 * n)) →
    x = (if n = 16 then g 2 + g 3 * 2 ^ 64 else g 1 % 2 ^ (8 * n)) → old = ofBytes (Memory.read s.mem key n) →
    ∃ u u' : State, exec (i.1 d a r c w t) s = .next ((u'.setSelf (if n = 16
          then (u'.self.write d.val (BitVec.ofNat 64 old)).write (d.val + 1) (BitVec.ofNat 64 (old / 2 ^ 64))
          else u'.self.write d.val (BitVec.ofNat 64 old))).finish (i.1 d a r c w t))
      ∧ u' = (if r.val % 2 = 1 then u.acquire c.val else u)
      ∧ u = { s1 with mem := u.mem, bad := u.bad } ∧ MemBut key n s u
      ∧ ofBytes (Memory.read u.mem key n) = ((amoNew i.2 n old v x).getD old) % 2 ^ (8 * n))
  ∧ (∀ i ∈ ([
    (.amoAdd, AmoOp.add), (.amoAnd, .and), (.amoOr, .or), (.amoXor, .xor), (.amoMin, .min), (.amoMax, .max), (.amoMinu, .minu), (.amoMaxu, .maxu),
    (.amoSwap, .swap), (.amoCas, .cas), (fun d a r c _ t => .amoFadd d a r c t, .fadd)] : List ((Reg → Reg → Fin 4 → Fin 4 → Fin 4 → Bool → Instr) × AmoOp)),
  ∀ (s s1 s2 : State) (d a : Reg) (r c w : Fin 4) (t : Bool) (n va pa attr : Nat), n = (if i.2 = .fadd then 4 else 4 * 2 ^ w.val) →
    s.issues ⟨[], (a, t) :: amoSrcs i.2 n d, [], amoDsts n d⟩ = true → s.access (s.val a).toNat n n true false = .virt va pa attr →
    s.movesTo pa attr = none → s.ntConflict pa = none → s.released s1 (decide (2 ≤ r.val)) c.val → s1.heldByOther (pa / 128) s1.self.launch = false →
    s2 = (if s1.caches s.cur.1 attr then s1.sendSector (tileOf s.cur.1) pa else s1) →
    ∃ (u : State) (q : Req), exec (i.1 d a r c w t) s = .next (u.finish (i.1 d a r c w t))
      ∧ u = { s2 with ctxs := u.ctxs, reqs := s2.reqs ++ [q], nid := s2.nid + 1 } ∧ (∀ k, k ≠ s.me → u.ctx k = s2.ctx k)
      ∧ u.self = (if n = 16 then (s.self.pend d.val).pend (d.val + 1) else s.self.pend d.val)
      ∧ q.id = s2.nid ∧ q.kind = .amo i.2 ∧ q.pa = pa ∧ q.size = n ∧ q.acq = (if r.val % 2 = 1 then c.val + 1 else 0)
      ∧ q.data = toBytes (s.amoV n d) n ++ toBytes (s.amoW n d) n
      ∧ q.dest = (if n = 16 then .pair d else if d.val = 0 then .none else .reg d ⟨n, false⟩))

/-- R237: a fence completes once the requests it covers have been performed, with its release part first and its acquire part last; while there are any, the context waits for exactly those, and its first part is not made again.
A release from cube scope on first waits for the thread's loads and atomics; then it covers the thread's requests and, from cube scope on, the write-backs of its tile.
R237: what the two parts do to the tile cache of an A-core from cube scope on: the release part writes every dirty sector back and leaves no line dirty; the acquire part leaves exactly the dirty sectors valid. Below that scope and on other cores they do nothing.
R235: `drain` completes when the thread has no buffer line and no write-out of one in flight, and waits for them otherwise.
Completes: fenceAcq, fenceRel, fenceAr, drain. -/
def Obligations.Fences : Prop :=
  (∀ (s s1 : State) (sx : Fin 4),
    (s.released s1 true sx.val → exec (.fenceRel sx) s = .next (s1.finish (.fenceRel sx))
      ∧ exec (.fenceAr sx) s = .next ((s1.acquire sx.val).finish (.fenceAr sx)))
    ∧ ((s.self.memo = [1] ∨ (s.reqsOf s.agent).filter (fun r => r.reads || r.pv) = []) → exec (.fenceAcq sx) s = .next ((s.acquire sx.val).finish (.fenceAcq sx)))
    ∧ (s.self.memo ≠ [1] → s.readsOut sx.val ≠ [] → ∀ u : State,
      u = s.setSelf { s.self with park := some (.reqs ((s.readsOut sx.val).map (·.id))), since := s.cycle, memo := [10] } →
      exec (.fenceRel sx) s = .next u ∧ exec (.fenceAr sx) s = .next u)
    ∧ (s.self.memo ≠ [1] → s.readsOut sx.val = [] → s1 = s.releaseStart sx.val → s1.relReqs s.agent s.cur.1 sx.val ≠ [] → ∀ u : State,
      u = s1.setSelf { s1.self with park := some (.reqs ((s1.relReqs s.agent s.cur.1 sx.val).map (·.id))), since := s1.cycle, memo := [1] } →
      exec (.fenceRel sx) s = .next u ∧ exec (.fenceAr sx) s = .next u)
    ∧ (s.self.memo ≠ [1] → (s.reqsOf s.agent).filter (fun r => r.reads || r.pv) ≠ [] → exec (.fenceAcq sx) s = .next
      (s.setSelf { s.self with park := some (.reqs (((s.reqsOf s.agent).filter (fun r => r.reads || r.pv)).map (·.id))), since := s.cycle, memo := [1] })))
  ∧ (∀ (s : State) (scope : Nat),
    (scope = 0 ∨ kindOf s.cur.1 ≠ .a → s.releaseStart scope = s ∧ s.acquire scope = s)
    ∧ (1 ≤ scope → kindOf s.cur.1 = .a →
      (∀ c ∈ ((s.releaseStart scope).tile (tileOf s.cur.1)).lines, c.dirty = 0)
      ∧ (∀ c ∈ (s.tile (tileOf s.cur.1)).lines, ∀ i, i < 8 → bitAt c.dirty i = true → ∃ q ∈ (s.releaseStart scope).reqs,
          q.kind = .writeBack ∧ q.pa = c.line * 128 + 16 * i ∧ q.data = Memory.read s.mem (c.key (tileOf s.cur.1) (16 * i)) 16)
      ∧ (s.releaseStart scope).mem = s.mem ∧ (s.releaseStart scope).ctxs = s.ctxs
      ∧ (s.acquire scope) = { s with tiles := (s.acquire scope).tiles } ∧ (∀ t, t ≠ tileOf s.cur.1 → (s.acquire scope).tile t = s.tile t)
      ∧ ((s.acquire scope).tile (tileOf s.cur.1)).lines
        = ((s.tile (tileOf s.cur.1)).lines.map (fun c => { c with valid := c.dirty })).filter (fun c => c.valid != 0)))
  ∧ (∀ (s s1 : State) (sx : Fin 4) (own : List Req), s1 = s.writeOutAll s.agent → own = (s1.reqsOf s.agent).filter (·.nt) →
    (s.self.memo = [1] → exec (.drain sx) s = .next (s.finish (.drain sx)))
    ∧ (s.self.memo ≠ [1] → own = [] → exec (.drain sx) s = .next (s1.finish (.drain sx)))
    ∧ (s.self.memo ≠ [1] → own ≠ [] → exec (.drain sx) s = .next
        (s1.setSelf { s1.self with park := some (.reqs (own.map (·.id))), since := s1.cycle, memo := [1] }))
    ∧ (s.ntOf s.agent = [] → s1 = s))

/-- R242, R243: cache maintenance of the line of a mapped address: `cwb` writes its dirty sectors back and keeps it, `cinv` drops it, `cflush` does both; a line that is absent is left alone, and so is every other line. `cinv.i` drops the line from the instruction caches of the tile's two cores, and a fill of the line that is under way is not kept when it arrives.
Completes: cwb, cinv, cinvI, cflush. -/
def Obligations.CacheMaintenance : Prop :=
  (∀ r ∈ ([(.cwb, Maint.wb, false), (.cinv, .inv, true), (.cflush, .flush, false)] : List ((Reg → Bool → Instr) × Maint × Bool)),
    ∀ (s : State) (a : Reg) (t : Bool) (va pa attr : Nat), s.issues ⟨[], [(a, t)], [], []⟩ = true → (s.val a).toNat / 128 * 128 / 2 ^ 60 ≠ 15 →
      s.access ((s.val a).toNat / 128 * 128) 1 1 r.2.2 false = .virt va pa attr → s.ntConflict pa = none → s.storesTo pa = [] →
      exec (r.1 a t) s = .next ((s.maintain r.2.1 pa attr).finish (r.1 a t)))
  ∧ (∀ (s : State) (m : Maint) (pa attr : Nat), (s.caches s.cur.1 attr = false ∨ (s.tile (tileOf s.cur.1)).find pa = none) → s.maintain m pa attr = s)
  ∧ (∀ (s : State) (m : Maint) (pa attr : Nat) (c : CLine), s.caches s.cur.1 attr = true → (s.tile (tileOf s.cur.1)).find pa = some c →
      (∀ t, t ≠ tileOf s.cur.1 → (s.maintain m pa attr).tile t = s.tile t) ∧ (s.maintain m pa attr).mem = s.mem
      ∧ ((s.maintain m pa attr).tile (tileOf s.cur.1)).lines = (match m with
        | .wb => (s.tile (tileOf s.cur.1)).lines.map (fun l => if l.line = pa / 128 then { l with dirty := 0 } else l)
        | _ => (s.tile (tileOf s.cur.1)).lines.filter (fun l => l.line != pa / 128))
      ∧ (m = .inv → (s.maintain m pa attr).reqs = s.reqs)
      ∧ (m ≠ .inv → ∀ i, i < 8 → bitAt c.dirty i = true → ∃ q ∈ (s.maintain m pa attr).reqs,
          q.kind = .writeBack ∧ q.pa = pa / 128 * 128 + 16 * i ∧ q.data = Memory.read s.mem (c.key (tileOf s.cur.1) (16 * i)) 16))
  ∧ (∀ (s : State) (a : Reg) (t : Bool) (va pa attr : Nat), s.issues ⟨[], [(a, t)], [], []⟩ = true → (s.val a).toNat / 128 * 128 / 2 ^ 60 ≠ 15 →
      s.access ((s.val a).toNat / 128 * 128) 1 1 false false = .virt va pa attr →
      ∃ u : State, exec (.cinvI a t) s = .next (u.finish (.cinvI a t)) ∧ u = { s with cores := u.cores, reqs := u.reqs }
        ∧ u.reqs = s.reqs.map (fun (q : Req) => if q.dest = .ifill s.cur.1 (pa / 128) ∨ (s.cur.1 < 256 ∧ q.dest = .ifill (partner s.cur.1) (pa / 128)) then { q with dest := .none } else q)
        ∧ (∀ c l, l ∈ (u.core c).icache → l ∈ (s.core c).icache)
        ∧ (∀ l ∈ (u.core s.cur.1).icache, l.line ≠ pa / 128) ∧ (s.cur.1 < 256 → ∀ l ∈ (u.core (partner s.cur.1)).icache, l.line ≠ pa / 128))

/-- R274 to R277: `sem.sig` adds to a semaphore, saturating at 2^32 − 1, and `sem.wait` takes from it when nobody waits and the value allows, or joins the order of waiting; 0 takes nothing, and an operand of 2^32 or more traps ILLEGAL.
R77, R78: `ldq` pushes what it loads onto the partner's queue, from local memory at once, from a mapped address as an entry that is filled later; it waits for room. `stq` pops one entry and stores its low bytes.
Completes: ldqW, ldqD, stqW, stqD, semSig, semWait. -/
def Obligations.SemaphoresAndQueues : Prop :=
  (∀ (s : State) (a : Reg) (t : Bool) (k : Fin 16) (key n : Nat), s.issues ⟨[(a, t)], [], [], []⟩ = true → key = 16 * tileOf s.cur.1 + k.val → n = (s.val a).toNat →
    (n < 2 ^ 32 → ∀ s1, s.released s1 true 0 → (s.sem key).order = [] →
      ∃ u : State, exec (.semSig a t k) s = .next (u.finish (.semSig a t k)) ∧ u = { (s1.popAll [(a, t)]) with sems := u.sems }
        ∧ (∀ j, j ≠ key → u.sem j = s.sem j) ∧ u.sem key = { s.sem key with val := min ((s.sem key).val + n) 0xFFFFFFFF })
    ∧ (2 ^ 32 ≤ n → exec (.semSig a t k) s = .next (s.trap 0x01 0x0D (BitVec.ofNat 64 ((encode (.semSig a t k)).headD 0)))
      ∧ exec (.semWait a t k) s = .next (s.trap 0x01 0x0D (BitVec.ofNat 64 ((encode (.semWait a t k)).headD 0))))
    ∧ (n = 0 → exec (.semWait a t k) s = .next ((s.popAll [(a, t)]).finish (.semWait a t k)))
    ∧ (n < 2 ^ 32 → n ≠ 0 → s.me ∉ (s.sem key).taken → (s.sem key).order = [] → n ≤ (s.sem key).val →
      ∃ u : State, exec (.semWait a t k) s = .next (u.finish (.semWait a t k)) ∧ u = { (s.popAll [(a, t)]) with sems := u.sems }
        ∧ (∀ j, j ≠ key → u.sem j = s.sem j) ∧ u.sem key = { s.sem key with val := (s.sem key).val - n })
    ∧ (n < 2 ^ 32 → n ≠ 0 → s.me ∉ (s.sem key).taken → (s.sem key).order = [] → (s.sem key).val < n →
      ∃ u : State, exec (.semWait a t k) s = .next (u.parkMe (.sem (tileOf s.cur.1) k.val)) ∧ u = { s with sems := u.sems }
        ∧ (∀ j, j ≠ key → u.sem j = s.sem j) ∧ u.sem key = { s.sem key with order := [⟨false, s.me, n⟩] })
    ∧ (n < 2 ^ 32 → n ≠ 0 → s.me ∈ (s.sem key).taken →
      ∃ u : State, exec (.semWait a t k) s = .next (u.finish (.semWait a t k)) ∧ u = { (s.popAll [(a, t)]) with sems := u.sems }
        ∧ (∀ j, j ≠ key → u.sem j = s.sem j) ∧ u.sem key = { s.sem key with taken := (s.sem key).taken.filter (fun x => x != s.me) }))
  ∧ ((∀ r ∈ ([(.ldqW, 4), (.ldqD, 8)] : List ((Reg → Bool → BitVec 10 → Instr) × Nat)),
    ∀ (s : State) (a : Reg) (t : Bool) (off : BitVec 10) (ea : Nat), s.issues ⟨[], [(a, t)], [], []⟩ = true → hasPartner s.cur.1 s.cur.2 = true →
      ea = (s.val a + BitVec.ofInt 64 (r.2 * off.toInt)).toNat →
      (s.localFree ea r.2 false → (s.pinQ s.poutKey).length < 32 → ∀ key, key = localKey s.cur.1 (ea - localBase) →
        exec (r.1 a t off) s = .next ((s.setPinQ s.poutKey (s.pinQ s.poutKey
          ++ [⟨0, true, BitVec.ofNat 64 (ofBytes (Memory.read s.mem key r.2)), smGet false s.bad (key / 16)⟩])).finish (r.1 a t off)))
      ∧ (s.localFree ea r.2 false → 32 ≤ (s.pinQ s.poutKey).length → exec (r.1 a t off) s = .next (s.parkMe .pout))
      ∧ (∀ va pa attr, s.access ea r.2 r.2 false false = .virt va pa attr → (s.pinQ s.poutKey).length < 32 →
        ∃ (u : State) (q : Req), exec (r.1 a t off) s = .next (u.finish (r.1 a t off))
          ∧ u = { s with queues := u.queues, reqs := s.reqs ++ [q], nid := s.nid + 1 } ∧ (∀ k, k ≠ s.poutKey → u.pinQ k = s.pinQ k)
          ∧ u.pinQ s.poutKey = s.pinQ s.poutKey ++ [⟨s.nid, false, 0, false⟩] ∧ q.id = s.nid ∧ q.dest = .queue false s.poutKey ⟨r.2, false⟩ ∧ q.pa = pa ∧ q.size = r.2))
  ∧ (∀ r ∈ ([(.stqW, 4), (.stqD, 8)] : List ((Reg → Bool → BitVec 10 → Instr) × Nat)),
    ∀ (s : State) (a : Reg) (t : Bool) (off : BitVec 10) (ea key : Nat) (e : QEnt) (l : List QEnt), s.issues ⟨[], [(a, t)], [], []⟩ = true →
      hasPartner s.cur.1 s.cur.2 = true → ea = (s.val a + BitVec.ofInt 64 (r.2 * off.toInt)).toNat →
      s.localFree ea r.2 true → key = localKey s.cur.1 (ea - localBase) → s.pinQ s.me = e :: l → e.filled = true →
      (e.poison = true → ∃ u : State, exec (r.1 a t off) s = .next (u.trap 0x09 2 (BitVec.ofNat 64 ea)) ∧ u = { s with queues := u.queues } ∧ u.pinQ s.me = l)
      ∧ (e.poison = false → ∃ u : State, exec (r.1 a t off) s = .next (u.finish (r.1 a t off))
        ∧ u = { s with mem := u.mem, bad := u.bad, queues := u.queues } ∧ u.pinQ s.me = l ∧ (∀ k, k ≠ s.me → u.pinQ k = s.pinQ k)
        ∧ (∀ k, k < r.2 → Memory.byte u.mem (key + k) = e.val.extractLsb' (8 * k) 8) ∧ MemBut key r.2 s u)))

/-- R270, R271, R272, R188: `tl.rd` reads the issued-value or the done-value; `tl.wait` completes once the done-value reaches its operand and refuses a number that has not been issued; `tl.wait.rel` completes once at most so many commands are open; `cpsync` completes once the thread has no coprocessor work. Otherwise they wait and change nothing.
Completes: tlRd, tlWait, tlWaitRel, cpsync. -/
def Obligations.TimelinesAndCpsync : Prop :=
  (∀ (s : State) (d : Reg) (k : Fin 4), s.issues ⟨[], [], [d], []⟩ = true →
    exec (.tlRd d false k) s = .next (s.retire (.tlRd d false k) ⟨[], [], [d], []⟩ d (BitVec.ofNat 64 (s.self.timeline k.val).issued))
    ∧ exec (.tlRd d true k) s = .next (s.retire (.tlRd d true k) ⟨[], [], [d], []⟩ d (BitVec.ofNat 64 (s.self.timeline k.val).done)))
  ∧ (∀ (s : State) (a : Reg) (t : Bool) (k : Fin 4) (l : Timeline) (n : Nat), s.issues ⟨[(a, t)], [], [], []⟩ = true → l = s.self.timeline k.val → n = (s.val a).toNat →
    (l.issued < n → exec (.tlWait a t k) s = .next (s.trap 0x01 0x0D (BitVec.ofNat 64 ((encode (.tlWait a t k)).headD 0))))
    ∧ (n ≤ l.issued → n ≤ l.done → exec (.tlWait a t k) s = .next ((s.popAll [(a, t)]).finish (.tlWait a t k)))
    ∧ (n ≤ l.issued → l.done < n → exec (.tlWait a t k) s = .next (s.parkMe (.timeline k.val n)))
    ∧ (l.issued - (l.done + l.ahead.length) ≤ n → exec (.tlWaitRel a t k) s = .next ((s.popAll [(a, t)]).finish (.tlWaitRel a t k)))
    ∧ (n < l.issued - (l.done + l.ahead.length) → exec (.tlWaitRel a t k) s = .next (s.parkMe (.timelineOpen k.val n))))
  ∧ (∀ s : State, ((∀ r ∈ (s.core s.cur.1).ring, r.agent = s.agent → r.fault ≠ none) ∧ (∀ r ∈ s.reps, r.key ≠ s.me) →
      exec .cpsync s = .next (s.finish .cpsync))
    ∧ ((∃ r ∈ (s.core s.cur.1).ring, r.agent = s.agent ∧ r.fault = none) → exec .cpsync s = .next (s.parkMe .cpsync)))

/-- R211, R213, R214: `resize` to the present size changes nothing; while another `resize` of the tile that was issued earlier is at work, or an engine command of the tile that addresses scratch is running, it waits in the order of issue; otherwise the tile cache has n ways afterwards, and every byte of a way that changed sides is zero.
R143 to R147, R377: SPILL puts the victim's registers into the lowest free slot and frees its context; the victim is parked on a general register and has the lowest priority below the activation's, then the longest wait. A reload from the slot's bytes gives back the live registers and the saved state, and every other register zero and full.
Completes: resize, spill, reload, vectorStateSave. -/
def Obligations.ResizeAndSpill : Prop :=
  (∀ (s : State) (n : Fin 16) (t : Nat) (l : List Nat), t = tileOf s.cur.1 → l = s.resizing t →
    (s.self.memo = [1] → exec (.resize n) s = .next ((s.setTile t { s.tile t with resizers := l.filter (fun x => x != s.agent) }).finish (.resize n)))
    ∧ (s.self.memo ≠ [1] → l = [] → (s.tile t).n = n.val → exec (.resize n) s = .next (s.finish (.resize n)))
    ∧ (s.self.memo ≠ [1] → (∃ a r, l = a :: r ∧ a ≠ s.agent) → ∃ u : State, exec (.resize n) s = .next (u.parkMe .hold)
        ∧ u = s.setTile t { s.tile t with resizers := if s.agent ∈ l then l else l ++ [s.agent] })
    ∧ (s.self.memo ≠ [1] → l = [] → (s.tile t).n ≠ n.val → (∃ c ∈ s.cmds, c.unit = t ∧ c.st = .started ∧ c.onScratch = true) →
        exec (.resize n) s = .next ((s.setTile t { s.tile t with resizers := [s.agent] }).parkMe .hold))
    ∧ (s.self.memo ≠ [1] → l = [] → (s.tile t).n ≠ n.val → s.memOk = true → n.val ≤ 12 → (s.tile t).n ≤ 12 → (∀ c ∈ s.cmds, c.unit = t → c.st = .started → c.onScratch = false) →
      (∀ c ∈ (s.tile t).lines, c.dirty = 0) → s.tileBacks t = [] →
      ∃ u : State, exec (.resize n) s = .next (u.finish (.resize n)) ∧ (u.tile t).n = n.val ∧ (u.tile t).resizers = [] ∧ u.ctxs = s.ctxs ∧ u.reqs = s.reqs
        ∧ (∀ w o, w < 12 → o < 131072 → (w < n.val ∧ (s.tile t).n ≤ w ∨ n.val ≤ w ∧ w < (s.tile t).n) → Memory.byte u.mem (wayKey t w o) = 0)
        ∧ ∀ a, (∀ w o, w < 12 → o < 131072 → (w < n.val ∧ (s.tile t).n ≤ w ∨ n.val ≤ w ∧ w < (s.tile t).n) →
            a ≠ wayKey t w o) → Memory.byte u.mem a = Memory.byte s.mem a))
  ∧ ((∀ (s : State) (i q slot k : Nat) (p : Nat × PendAct) (l : List Nat), s.bestCtr s.arg.a = some p → q = p.2.prio → s.freeSlots s.arg.a = slot :: l → s.spillVictim s.arg.a q = some i → k = ctxKey s.arg.a i →
    s.spillable k = true ∧ q < (s.ctx k).prio ∧ (∀ j, j < 8 → s.spillable (ctxKey s.arg.a j) = true → q < (s.ctx (ctxKey s.arg.a j)).prio →
        (s.ctx (ctxKey s.arg.a j)).prio ≤ (s.ctx k).prio ∧ ((s.ctx (ctxKey s.arg.a j)).prio = (s.ctx k).prio → (s.ctx k).since ≤ (s.ctx (ctxKey s.arg.a j)).since))
    ∧ (s.ntOf (s.ctx k).uid = [] → Answers .spill s (fun u => u.ctx k = { Ctx.free with chain := (s.ctx k).chain } ∧ (∀ j, j ≠ k → u.ctx j = s.ctx j)
      ∧ u.mem = Memory.write s.mem (localKey s.arg.a (0xD000 + 512 * slot)) ((s.ctx k).slotBytes s.arg.a (s.ctx k).parkedOn)
      ∧ ∃ t : Stored, u.stored = s.stored ++ [t] ∧ t.core = s.arg.a ∧ t.slot = slot ∧ t.frame = false ∧ t.ctx.name = (s.ctx k).name ∧ t.ready = (((s.ctx k).cell (s.ctx k).parkedOn).st == FE.full))))
  ∧ (∀ (s : State) (k : Nat), s.spillable k = true → k % 16 ≠ 8 ∧ (s.ctx k).vlive = 0 ∧ (liveRegs (s.ctx k).live).length ≤ 44 ∧ s.pinQ k = [] ∧ (∃ r : Reg, (s.ctx k).park = some (.reg r) ∧ r.val ≠ 0 ∧ r.val < 60)
    ∧ ∀ t ∈ (s.ctx k).tls, t.2.done = t.2.issued)
  ∧ (∀ (s : State) (t : Stored) (f : Nat), s.bestReady s.arg.a = some t → s.allocatable s.arg.a = [f] → t.frame = false → t.slot < 24 → t.msgs = [] → t.pins = 0 → Answers .reload s (fun u =>
      u.ctx (ctxKey s.arg.a f) = { t.ctx.fromSlot s.arg.a (Memory.read s.mem (localKey t.core (0xD000 + 512 * t.slot)) 512) with occ := true, issued := s.cycle, chain := (s.ctx (ctxKey s.arg.a f)).chain }
      ∧ (∀ j, j ≠ ctxKey s.arg.a f → u.ctx j = s.ctx j) ∧ u.stored = s.stored.filter (fun (v : Stored) => v ≠ t) ∧ u.mem = s.mem))
  ∧ (∀ (x y : Ctx) (core reg : Nat), (liveRegs x.live).length ≤ 44 → x.loops.length ≤ 4 → x.prio < 4 → reg < 60 → y = x.fromSlot core (x.slotBytes core reg) →
    (x.slotBytes core reg).length = 512 ∧ (x.pc.toNat % 4 = 0 → y.pc = x.pc) ∧ y.live = x.live ∧ y.vlive = 0 ∧ y.loops = x.loops ∧ y.prio = x.prio ∧ y.sig = x.sig
    ∧ (x.fmode.toNat < 4 → y.fmode = x.fmode) ∧ (x.fflags.toNat < 64 → y.fflags = x.fflags)
    ∧ (∀ r, r ≠ 0 → r < 60 → x.live.getLsbD r = true → y.cell r = x.cell r) ∧ ∀ r, (r = 0 ∨ 60 ≤ r ∨ x.live.getLsbD r = false) → y.cell r = ⟨0, .full, false⟩)
  ∧ (∀ (s u : State) (k uid pa attr : Nat) (t : Stored), s.arg.a = k → (s.vbank k).tag = some uid → s.storedOf uid = some t → s.recordAt t.ctx.tenant (t.recOf / 16) (t.recOf % 16) true = .ok pa attr →
    s.putParts ⟨t.ctx.tenant, 0⟩ pa attr (bankParts (s.vbank k) t.ctx.vlive t.vops t.rep) = some u →
    Answers .vectorStateSave s (fun w => w.vbank k = VBank.zero ∧ w.ctxs = u.ctxs ∧ w.reqs = u.reqs ∧ ∀ j, j ≠ k → w.vbank j = u.vbank j)))

/-- R359, R360, R361: a synchronous trap of a running thread that is no moth, whose tenant has a handler: the five registers, from user mode the loop shadow and the saved checker, the mode and the pc; nothing else of the context or the machine changes. `late` and the dispatch number come with a late fault.
R361, R359, R388, R228: the other cases of taking a trap: without a handler, or at a trap of the first fetch of one, the thread is to die and firmware counts; a moth takes the trap home; in firmware mode no register changes; a consumption inside a cluster starts containment; a trap of the steward ends its event. -/
def Obligations.TrapEntry : Prop :=
  (∀ (s u : State) (core ctx cause sub seq : Nat) (val tpc : Word) (late : Bool) (x : Ctx) (p : Nat), u = takeTrapAt s core ctx cause sub val tpc seq late →
    x = s.ctx (ctxKey core ctx) → p = (match x.priv with | .user => 0 | .supervisor => 1 | .firmware => 2) →
    ctx ≠ 8 → (consumes x cause sub && inCluster s core x) = false → x.priv ≠ .firmware → x.home = none → (s.tenant x.tenant).tvec ≠ 0 → (x.entering = false ∨ late = true) →
    u = { s with ctxs := u.ctxs } ∧ (∀ k, k ≠ ctxKey core ctx → u.ctx k = s.ctx k)
    ∧ u.ctx (ctxKey core ctx) = { x with
        tcause := BitVec.ofNat 64 (cause + (if late then 256 else 0) + p * 1024), tpc := tpc, tval := val, tsub := BitVec.ofNat 64 sub, tseq := BitVec.ofNat 64 seq
        shadow := (if p = 0 then x.loops else x.shadow), loops := (if p = 0 then [] else x.loops)
        sigctl := (if p = 0 then (x.sigctl &&& 0xFFFFFFFFFFFF0000) ||| x.sig.zeroExtend 64 else x.sigctl), sig := (if p = 0 then 0 else x.sig)
        priv := .supervisor, pc := (s.tenant x.tenant).tvec, park := none, entering := true, memo := [], stay := false, xfault := none })
  ∧ (∀ (s u : State) (core ctx cause sub seq : Nat) (val tpc : Word) (late : Bool) (x : Ctx), u = takeTrapAt s core ctx cause sub val tpc seq late →
    x = s.ctx (ctxKey core ctx) →
    (ctx = 8 → u = { endEvent s core with fwTraps := s.fwTraps + 1 } ∧ (u.core core).event = none ∧ (u.ctx (ctxKey core 8)).occ = false)
    ∧ (ctx ≠ 8 → (consumes x cause sub && inCluster s core x) = true →
      u = { s.setCtx (ctxKey core ctx) { x with park := some .away } with contain := s.contain ++ [(core, ctx, cause)] })
    ∧ (ctx ≠ 8 → (consumes x cause sub && inCluster s core x) = false → x.priv = .firmware →
      u = s.setCtx (ctxKey core ctx) { x with pc := Config.firmwareVector &&& 0xFFFFFFFFFFFFFFFC, park := none })
    ∧ (ctx ≠ 8 → (consumes x cause sub && inCluster s core x) = false → x.priv ≠ .firmware → x.home ≠ none →
      u = s.setCtx (ctxKey core ctx) { x with trapHome := some ⟨cause, sub, val, tpc, seq, late⟩, park := some .homeward, memo := [] })
    ∧ (ctx ≠ 8 → (consumes x cause sub && inCluster s core x) = false → x.priv ≠ .firmware → x.home = none → ((s.tenant x.tenant).tvec = 0 ∨ x.entering = true ∧ late = false) →
      u = { s.setCtx (ctxKey core ctx) { x with dying := true, park := none } with fwTraps := s.fwTraps + 1 }))

/-- R89, R360, R40, R61: `sys` traps SYS with the address of the next instruction in execution, after the end check; `brk` and a word that is no instruction trap at their own address, the latter with the subcode and the word that decode found.
R362: `rte`, with its checks in their order: PRIV in user mode; in the steward the event ends; ILLEGAL for a saved mode 3, PRIV for firmware, ALIGN for a misaligned tpc; else the saved mode and pc are restored, and for user mode the loop frames and the checker.
Completes: sys, brk, rte, illegal. -/
def Obligations.TrapInstructions : Prop :=
  ((∀ (s : State) (c : Fin 1024), (∀ f l, s.self.loops = f :: l → s.self.pc ≠ f.stop) →
    exec (.sys c) s = .next (takeTrapAt (s.setSelf s.self) s.cur.1 s.cur.2 0x0C 0 (BitVec.ofNat 64 c.val) (s.self.pc + 4) 0 false))
  ∧ (∀ (s : State) (c : Fin 1024) (f : Frame) (l : List Frame), s.self.loops = f :: l → s.self.pc = f.stop → f.left - 1 ≠ 0 →
    exec (.sys c) s = .next (takeTrapAt (s.setSelf { s.self with loops := { f with left := f.left - 1 } :: l, sig := 0 })
      s.cur.1 s.cur.2 0x0C 0 (BitVec.ofNat 64 c.val) f.start 0 false))
  ∧ (∀ (s : State) (c : Fin 1024), exec (.brk c) s = .next (takeTrapAt s s.cur.1 s.cur.2 0x0B 0 (BitVec.ofNat 64 c.val) s.self.pc 0 false))
  ∧ (∀ s : State, exec .illegal s = .next (takeTrapAt s s.cur.1 s.cur.2 0x01 s.arg.a s.arg.w s.self.pc 0 false)))
  ∧ (∀ (s : State) (p : Nat) (w : Word), p = bits s.self.tcause.toNat 11 10 → w = 0xB0001000 →
    (s.self.priv = .user → exec .rte s = .next (s.trap 0x02 0 w))
    ∧ (s.self.priv ≠ .user → s.cur.2 = 8 → exec .rte s = .next (endEvent s s.cur.1))
    ∧ (s.self.priv ≠ .user → s.cur.2 ≠ 8 →
      (p = 3 → exec .rte s = .next (s.trap 0x01 0x0D w)) ∧ (p = 2 → exec .rte s = .next (s.trap 0x02 0 w))
      ∧ (p < 2 → s.self.tpc.toNat % 4 ≠ 0 → exec .rte s = .next (s.trap 0x04 0 s.self.tpc))
      ∧ (p < 2 → s.self.tpc.toNat % 4 = 0 → exec .rte s = .next (s.setSelf { s.self.afterIssue s.cycle with
          pc := s.self.tpc, priv := (if p = 0 then .user else .supervisor), loops := (if p = 0 then s.self.shadow else s.self.loops)
          sig := (if p = 0 then s.self.sigctl.truncate 16 else sigFeed s.self.sig 0xB0001000) }))))

/-- R20: the fate of an access to a special-register number, in three steps: numbers that name nothing, the privilege of the number, the register itself. The first that fails traps, and the value checks of a `wrsr` come after.
R15, R16, R356, R486: what `rdsr` reads from a number that the mode may read.
R91, R356, R357, R358: what `wrsr` writes, register by register with the bit ranges that must be zero; a value with a bit set there, or with prev = 3 or a context above 8, traps ILLEGAL with tsub 0x0D and writes nothing. vlive keeps its value but on an E-core.
Completes: rdsr, wrsr. -/
def Obligations.SpecialRegisters : Prop :=
  (∀ (s : State) (n : Fin 1024) (d a : Reg) (t : Bool) (rd wr : Word), s.issues ⟨[], [], [d], []⟩ = true → s.issues ⟨[(a, t)], [], [], []⟩ = true →
    rd = BitVec.ofNat 64 ((encode (.rdsr d n)).headD 0) → wr = BitVec.ofNat 64 ((encode (.wrsr a t n)).headD 0) →
    (((16 ≤ n.val ∧ n.val ≤ 31) ∨ 96 ≤ n.val) → exec (.rdsr d n) s = .next (s.trap 0x01 0x0C rd) ∧ exec (.wrsr a t n) s = .next (s.trap 0x01 0x0C wr))
    ∧ (((32 ≤ n.val ∧ n.val ≤ 63 ∧ s.self.priv = .user) ∨ (64 ≤ n.val ∧ n.val ≤ 95 ∧ s.self.priv ≠ .firmware)) →
      exec (.rdsr d n) s = .next (s.trap 0x02 0 rd) ∧ exec (.wrsr a t n) s = .next (s.trap 0x02 0 wr))
    ∧ ((n.val ≤ 4 ∨ (9 ≤ n.val ∧ n.val ≤ 15) ∨ ((n.val = 38 ∨ n.val = 41 ∨ (45 ≤ n.val ∧ n.val ≤ 47)) ∧ s.self.priv ≠ .user)
        ∨ (64 ≤ n.val ∧ n.val ≤ 67 ∧ s.self.priv = .firmware)) → exec (.wrsr a t n) s = .next (s.trap 0x01 0x0C wr))
    ∧ (((48 ≤ n.val ∧ n.val ≤ 63 ∧ s.self.priv ≠ .user) ∨ (68 ≤ n.val ∧ n.val ≤ 95 ∧ n.val ≠ 80 ∧ s.self.priv = .firmware)
        ∨ (n.val = 80 ∧ s.cur.1 < 256 ∧ s.self.priv = .firmware)) →
      exec (.rdsr d n) s = .next (s.trap 0x01 0x0C rd) ∧ exec (.wrsr a t n) s = .next (s.trap 0x01 0x0C wr)))
  ∧ (∀ (s : State) (d : Reg) (n : Fin 1024), s.issues ⟨[], [], [d], []⟩ = true →
    (n.val ≤ 15 ∨ (32 ≤ n.val ∧ n.val ≤ 47 ∧ s.self.priv ≠ .user) ∨ (64 ≤ n.val ∧ n.val ≤ 67 ∧ s.self.priv = .firmware)) →
    ∃ v : Word, exec (.rdsr d n) s = .next (s.retire (.rdsr d n) ⟨[], [], [d], []⟩ d v)
      ∧ ∀ r ∈ [(0, s.self.pc), (2, BitVec.ofNat 64 (s.cube * 65536 + s.cur.1 * 16 + s.cur.2)), (3, BitVec.ofNat 64 s.time), (4, BitVec.ofNat 64 s.cycle),
          (5, s.self.live), (6, s.self.vlive), (7, s.self.fmode), (8, s.self.fflags), (9, BitVec.ofNat 64 s.self.dseq), (10, BitVec.ofNat 64 s.self.job),
          (11, BitVec.ofNat 64 s.self.lid), (13, BitVec.ofNat 64 s.mapgen), (15, 0), (32, s.self.tcause), (33, s.self.tpc), (34, s.self.tval), (35, s.self.tseq),
          (36, s.self.tsub), (37, (s.tenant s.self.tenant).tvec), (38, BitVec.ofNat 64 s.self.tenant), (39, (s.tenant s.self.tenant).xroot),
          (40, (s.tenant s.self.tenant).spill), (41, s.self.rect), (43, s.self.sigctl), (44, s.self.ctxsel), (64, 0x4C5A038401000000)], n.val = r.1 → v = r.2)
  ∧ (∀ (s : State) (a : Reg) (t : Bool) (n : Fin 1024) (v : Word), s.issues ⟨[(a, t)], [], [], []⟩ = true → v = s.val a → (n.val ≤ 8 ∨ s.self.priv ≠ .user) →
    (∀ r ∈ ([(5, [], fun x => { x with live := v }), (6, [(63, 32)], fun x => { x with vlive := (if kindOf s.cur.1 = .e then v else x.vlive) }),
        (7, [(63, 2)], fun x => { x with fmode := v }), (8, [(63, 6)], fun x => { x with fflags := v }),
        (32, [(63, 12)], fun x => { x with tcause := v }), (33, [], fun x => { x with tpc := v }), (34, [], fun x => { x with tval := v }),
        (35, [(63, 16)], fun x => { x with tseq := v }), (36, [(63, 8)], fun x => { x with tsub := v }), (43, [(63, 17)], fun x => { x with sigctl := v }),
        (44, [(63, 32), (15, 4)], fun x => { x with ctxsel := v })] : List (Nat × List (Nat × Nat) × (Ctx → Ctx))),
      n.val = r.1 →
      (((∀ z ∈ r.2.1, bits v.toNat z.1 z.2 = 0) ∧ (n.val = 32 → bits v.toNat 11 10 ≠ 3) ∧ (n.val = 44 → bits v.toNat 3 0 ≤ 8)) →
        ∃ u : State, exec (.wrsr a t n) s = .next (u.finish (.wrsr a t n)) ∧ u = { s.popAll [(a, t)] with ctxs := u.ctxs }
          ∧ (∀ k, k ≠ s.me → u.ctx k = s.ctx k) ∧ u.self = r.2.2 s.self)
      ∧ (((∃ z ∈ r.2.1, bits v.toNat z.1 z.2 ≠ 0) ∨ (n.val = 32 ∧ bits v.toNat 11 10 = 3) ∨ (n.val = 44 ∧ 8 < bits v.toNat 3 0)) →
        exec (.wrsr a t n) s = .next (s.trap 0x01 0x0D (BitVec.ofNat 64 ((encode (.wrsr a t n)).headD 0)))))
    ∧ (∀ r ∈ ([(37, [(63, 56), (7, 0)], fun x => { x with tvec := v }), (39, [(63, 52), (11, 0)], fun x => { x with xroot := v }),
        (40, [(63, 56), (12, 0)], fun x => { x with spill := v })] : List (Nat × List (Nat × Nat) × (Tenant → Tenant))),
      n.val = r.1 →
      ((∀ z ∈ r.2.1, bits v.toNat z.1 z.2 = 0) →
        exec (.wrsr a t n) s = .next (((s.popAll [(a, t)]).setTenant s.self.tenant (r.2.2 (s.tenant s.self.tenant))).finish (.wrsr a t n)))
      ∧ ((∃ z ∈ r.2.1, bits v.toNat z.1 z.2 ≠ 0) →
        exec (.wrsr a t n) s = .next (s.trap 0x01 0x0D (BitVec.ofNat 64 ((encode (.wrsr a t n)).headD 0))))))

/-- R149, R357: a write of `chain` for a context configures it and empties the queues of its links, old and new; as an event it is the same. A value that breaks a rule changes nothing.
R409, R410: an injection inverts exactly the two named data bits of the half sector that the fields name, and keeps its check bits; a value without go is only kept. Bit errors of the hardware itself, in a register, an on-die sector or a matrix accumulator, mark that place alone (R407; that they come at any time and place is the model's choice, log entry 83).
Completes: wrsr, chainWrite, errorInjection. -/
def Obligations.WritesWithEffects : Prop :=
  (∀ (s : State) (core ctx : Nat) (w : Word) (u : State),
    (u = s.chainSet core ctx w → (u.ctx (ctxKey core ctx)).chain = w ∧ u = { s with ctxs := u.ctxs, chains := u.chains }
      ∧ (∀ k, k ≠ ctxKey core ctx → u.ctx k = s.ctx k) ∧ u.ctx (ctxKey core ctx) = { s.ctx (ctxKey core ctx) with chain := w }
      ∧ u.upQ (ctxKey core ctx) = []
      ∧ (hasDn (s.ctx (ctxKey core ctx)) = true → u.upQ (ctxKey (dnCore core (s.ctx (ctxKey core ctx))) ctx) = [])
      ∧ (hasDn { s.ctx (ctxKey core ctx) with chain := w } = true → u.upQ (ctxKey (dnCore core { s.ctx (ctxKey core ctx) with chain := w }) ctx) = []))
    ∧ (s.arg.a = core → s.arg.b = ctx → s.arg.w = w →
      (s.chainBad core ctx w.toNat = false → exec .chainWrite s = .next (s.chainSet core ctx w)) ∧ (s.chainBad core ctx w.toNat = true → exec .chainWrite s = .next s))
    ∧ (∀ (a : Reg) (t : Bool), s.issues ⟨[(a, t)], [], [], []⟩ = true → s.self.priv ≠ .user → s.val a = w → s.cur.1 = core → s.self.ctxsel.toNat % 16 = ctx →
      (s.chainBad core ctx w.toNat = false → exec (.wrsr a t 42) s = .next (((s.popAll [(a, t)]).chainSet core ctx w).finish (.wrsr a t 42)))
      ∧ (s.chainBad core ctx w.toNat = true → exec (.wrsr a t 42) s = .next (s.trap 0x01 0x0D (BitVec.ofNat 64 ((encode (.wrsr a t 42)).headD 0))))))
  ∧ ((∀ s : State, s.arg.b = 0 → einjBad s.arg.w.toNat = false → s.arg.w.getLsbD 0 = false →
    exec .errorInjection s = .next { s with einj := smPut 0 s.einj s.arg.a s.arg.w })
  ∧ (∀ s : State, (s.arg.b = 6 → exec .errorInjection s = .next { s with bad := smPut false s.bad (s.arg.a / 16) true })
    ∧ (s.arg.b = 5 → exec .errorInjection s = .next (s.setArray s.arg.a { s.array s.arg.a with accBad := smPut false (s.array s.arg.a).accBad s.arg.d true }))
    ∧ (s.arg.b = 1 → (s.ctx s.arg.a).occ = true → exec .errorInjection s = .next (s.setCtx s.arg.a ((s.ctx s.arg.a).setCell s.arg.d { (s.ctx s.arg.a).cell s.arg.d with poison := true }))))
  ∧ ∀ (s : State), s.arg.b = 0 → einjBad s.arg.w.toNat = false → s.arg.w.getLsbD 0 = true → ∀ (p : Place) (la : Nat), p = ⟨s.arg.a, bits s.arg.w.toNat 55 52, bits s.arg.w.toNat 51 50,
      bits s.arg.w.toNat 49 48, bits s.arg.w.toNat 47 33, bits s.arg.w.toNat 32 28 * 32 + bits s.arg.w.toNat 27 27 * 16⟩ → la = s.placeAddr p →
    Answers .errorInjection s (fun u => u = { s with mem := u.mem, ecc := u.ecc, einj := u.einj } ∧ MemBut la 16 s u
      ∧ ofBytes (Memory.read u.mem la 16) = (s.rawSector la ^^^ 2 ^ bits s.arg.w.toNat 26 20 ^^^ 2 ^ bits s.arg.w.toNat 19 13) % 2 ^ 128
      ∧ smGet 0 u.einj s.arg.a = s.arg.w &&& 0xFFFFFFFFFFFFFFFE))

/-- R126, R127, R128: the counter instructions on a counter that the mode may touch: `ctr.set` loads the counter from its descriptor and empties its mailbox, `ctr.rd` reads its state, `ctr.mask` and `ctr.unmask` write its mask bit. Only that counter changes.
R126: the checks of the counter index: 64 or more traps ILLEGAL; a counter that is not granted to the tenant, or the launch counter, traps PROT in user mode; the launch counter is ILLEGAL for the other modes but for `ctr.rd`.
R140: `trig` applies a decrement of less than 256 to a counter of its core and completes, granted or not; while the pending limit refuses it, it waits.
Completes: trig, ctrSet, ctrRd, ctrMask, ctrUnmask. -/
def Obligations.Counters : Prop :=
  ((∀ (s : State) (a b : Reg) (t v : Bool) (idx key d0 d1 o : Nat), s.issues ⟨[(a, t), (b, v)], [], [], []⟩ = true → idx = (s.val a).toNat → idx < 64 → key = ctrKey s.cur.1 idx →
    s.self.home = none → (s.val b).toNat = localBase + o → o % 16 = 0 → o + 16 ≤ 65536 → isLaunchCtr key = false → (s.self.priv = .user → (s.counter key).owner = some s.self.tenant) →
    smGet false s.bad (localKey s.cur.1 o / 16) = false → d0 = ofBytes (Memory.read s.mem (localKey s.cur.1 o) 8) → d1 = ofBytes (Memory.read s.mem (localKey s.cur.1 o + 8) 8) →
    bits d0 63 56 = 0 → d0 % 4 = 0 → bits d1 63 59 = 0 → bits d1 55 54 = 0 → bits d1 47 32 % 64 = 0 →
    bits d1 47 32 + 64 * (bits d1 53 48 + 1) ≤ (if s.cur.1 < 256 then 0xCE00 else 0xD000) → (∀ x, s.self.act = some x → x.counter ≠ key) → (s.counter key).running = [] →
    exec (.ctrSet a b t v) s = .next (((s.popAll [(a, t), (b, v)]).setCounter key { s.counter key with
      count := bits d1 15 0, reload := bits d1 31 16, entry := BitVec.ofNat 64 d0, prio := bits d1 57 56, base := bits d1 47 32, cap := bits d1 53 48 + 1
      mask := bitAt d1 58, head := 0, ring := [], pending := [] }).finish (.ctrSet a b t v)))
  ∧ (∀ (s : State) (d a : Reg) (t : Bool) (idx key : Nat) (c : Counter), s.issues ⟨[(a, t)], [], [d], []⟩ = true → s.issues ⟨[(a, t)], [], [], []⟩ = true →
    idx = (s.val a).toNat → idx < 64 → key = ctrKey s.cur.1 idx → c = s.counter key → (s.self.priv = .user → c.owner = some s.self.tenant ∧ isLaunchCtr key = false) →
    exec (.ctrRd d a t) s = .next (s.retire (.ctrRd d a t) ⟨[(a, t)], [], [d], []⟩ d (BitVec.ofNat 64
        (c.count + c.reload * 2 ^ 16 + c.ring.length * 2 ^ 32 + c.pending.length * 2 ^ 40 + (if c.mask then 2 ^ 47 else 0) + c.prio * 2 ^ 48 + (c.cap - 1) * 2 ^ 50)))
    ∧ (isLaunchCtr key = false →
      exec (.ctrMask a t) s = .next (((s.popAll [(a, t)]).setCounter key { c with mask := true }).finish (.ctrMask a t))
      ∧ exec (.ctrUnmask a t) s = .next (((s.popAll [(a, t)]).setCounter key { c with mask := false }).finish (.ctrUnmask a t)))))
  ∧ (∀ (s : State) (d a : Reg) (t : Bool) (idx key : Nat), s.issues ⟨[(a, t)], [], [d], []⟩ = true → s.issues ⟨[(a, t)], [], [], []⟩ = true → idx = (s.val a).toNat → key = ctrKey s.cur.1 idx →
    (64 ≤ idx → exec (.ctrRd d a t) s = .next (s.trap 0x01 0x0D (BitVec.ofNat 64 ((encode (.ctrRd d a t)).headD 0)))
      ∧ exec (.ctrMask a t) s = .next (s.trap 0x01 0x0D (BitVec.ofNat 64 ((encode (.ctrMask a t)).headD 0)))
      ∧ exec (.ctrUnmask a t) s = .next (s.trap 0x01 0x0D (BitVec.ofNat 64 ((encode (.ctrUnmask a t)).headD 0))))
    ∧ (idx < 64 → s.self.priv = .user → (isLaunchCtr key = true ∨ (s.counter key).owner ≠ some s.self.tenant) →
      exec (.ctrRd d a t) s = .next (s.trap 0x07 0 (BitVec.ofNat 64 idx)) ∧ exec (.ctrMask a t) s = .next (s.trap 0x07 0 (BitVec.ofNat 64 idx))
      ∧ exec (.ctrUnmask a t) s = .next (s.trap 0x07 0 (BitVec.ofNat 64 idx)))
    ∧ (idx < 64 → s.self.priv ≠ .user → isLaunchCtr key = true →
      exec (.ctrMask a t) s = .next (s.trap 0x01 0x0D (BitVec.ofNat 64 ((encode (.ctrMask a t)).headD 0)))
      ∧ exec (.ctrUnmask a t) s = .next (s.trap 0x01 0x0D (BitVec.ofNat 64 ((encode (.ctrUnmask a t)).headD 0)))))
  ∧ (∀ (s : State) (a b : Reg) (t v : Bool) (idx dec key : Nat), s.issues ⟨[(a, t), (b, v)], [], [], []⟩ = true → idx = (s.val a).toNat → idx < 64 → dec = (s.val b).toNat → key = ctrKey s.cur.1 idx →
    (s.self.priv = .user → (s.counter key).owner = some s.self.tenant) → isLaunchCtr key = false →
    (dec < 256 → (s.applyCtr key s.self.tenant s.self.job none dec).1 ≠ 1 →
      exec (.trig a b t v) s = .next (((s.applyCtr key s.self.tenant s.self.job none dec).2.popAll [(a, t), (b, v)]).finish (.trig a b t v)))
    ∧ (dec < 256 → (s.applyCtr key s.self.tenant s.self.job none dec).1 = 1 → exec (.trig a b t v) s = .next (s.parkMe (.counterRoom idx)))
    ∧ (256 ≤ dec → exec (.trig a b t v) s = .next (s.trap 0x01 0x0D (BitVec.ofNat 64 ((encode (.trig a b t v)).headD 0)))))

/-- R129: a decrement of k without or with a message at a counter: the status, the count, the stored message and the new activation, which owns the messages that no activation owned. A refusal changes nothing.
R329, R369: COUNTER-CLAIM grants a counter that nobody has with 0, and refuses any other with 6; COUNTER-RELEASE masks and empties the tenant's counter, which becomes free once no activation of it runs; PARCEL-DROP takes the starved parcels of a launch out of its backlog, counts them as done, and the launch ends FAULTED.
Completes: counterClaim, counterRelease, parcelDrop. -/
def Obligations.CounterUpdates : Prop :=
  (∀ (s : State) (k tenant job dec : Nat) (msg : Option (List Word)) (c : Counter), c = s.counter k →
    (c.owner ≠ some tenant → s.applyCtr k tenant job msg dec = (6, s))
    ∧ (c.owner = some tenant → msg.isSome = true → c.cap ≤ c.ring.length → s.applyCtr k tenant job msg dec = (1, s))
    ∧ (c.owner = some tenant → (msg.isSome = false ∨ c.ring.length < c.cap) → 1 ≤ dec → c.count ≤ dec → c.pending.length = 127 → s.applyCtr k tenant job msg dec = (1, s))
    ∧ (c.owner = some tenant → (msg.isSome = false ∨ c.ring.length < c.cap) → (dec = 0 ∨ dec < c.count ∨ c.pending.length ≠ 127) →
      ∃ u, s.applyCtr k tenant job msg dec = (0, u) ∧ u = { s with mem := u.mem, bad := u.bad, ctrs := u.ctrs, nid := u.nid } ∧ (∀ j, j ≠ k → u.counter j = s.counter j)
        ∧ (msg = none → u.mem = s.mem ∧ u.bad = s.bad)
        ∧ (∀ ws, msg = some ws → u.mem = Memory.write s.mem (localKey (k / 64) (c.base + 64 * ((c.head + c.ring.length) % c.cap))) (ws.flatMap (fun w => toBytes w.toNat 8)))
        ∧ ((dec = 0 ∨ dec < c.count) → u.nid = s.nid ∧ u.counter k = { c with count := c.count - dec, ring := c.ring ++ (if msg.isSome then [(0, false)] else []) })
        ∧ (dec ≠ 0 → c.count ≤ dec → u.nid = s.nid + 1 ∧ (u.counter k).count = c.reload
          ∧ (u.counter k).ring = (c.ring ++ (if msg.isSome then [(0, false)] else [])).map (fun (r : Nat × Bool) => if r.1 = 0 then (s.nid, r.2) else r)
          ∧ ∃ p : PendAct, (u.counter k).pending = c.pending ++ [p] ∧ p.aid = s.nid ∧ p.entry = c.entry ∧ p.prio = c.prio ∧ p.tenant = tenant ∧ p.job = job
            ∧ p.msgs = ((c.ring ++ (if msg.isSome then [(0, false)] else [])).filter (fun (r : Nat × Bool) => r.1 = 0)).length)))
  ∧ (∀ (s : State) (e : StewEvent) (c n k : Nat), (s.core s.arg.a).event = some e → e.fw = true → c = (e.words.getD 1 0).toNat → n = (e.words.getD 2 0).toNat → k = c * 64 + n →
    (e.cmd = 7 → ((320 ≤ c ∨ 63 ≤ n ∨ (s.counter k).owner ≠ none) → exec .counterClaim s = .next ((s.groupResult .counterClaim e.src k 6).fwEnd s.arg.a))
      ∧ (c < 320 → n < 63 → (s.counter k).owner = none → exec .counterClaim s = .next (((s.setCounter k { s.counter k with owner := some e.tenant }).groupResult .counterClaim e.src k 0).fwEnd s.arg.a)))
    ∧ (e.cmd = 8 → ((320 ≤ c ∨ 63 ≤ n ∨ (s.counter k).owner ≠ some e.tenant) → exec .counterRelease s = .next (s.fwEnd s.arg.a))
      ∧ (c < 320 → n < 63 → (s.counter k).owner = some e.tenant → Answers .counterRelease s (fun u => (u.counter k).mask = true ∧ (u.counter k).ring = [] ∧ (u.counter k).pending = []
        ∧ ((s.counter k).running = [] → (u.counter k).owner = none) ∧ ((s.counter k).running ≠ [] → (u.counter k).owner = some e.tenant ∧ (u.counter k).releasing = true) ∧ ∀ j, j ≠ k → u.counter j = s.counter j)))
    ∧ (e.cmd = 9 → ((∀ l ∈ s.launches, l.tenant = e.tenant → l.lid ≠ c % 2 ^ 32) → exec .parcelDrop s = .next (s.fwEnd s.arg.a))
      ∧ (∀ l v, s.launches.find? (fun l => l.tenant == e.tenant && l.lid == c % 2 ^ 32 && l.placed) = some l → v = s.fwEnd s.arg.a → v.undealtStarved l = false → v.starvedPool l ≠ [] → Answers .parcelDrop s (fun u => u.mem = s.mem
        ∧ ∃ m ∈ u.launches, m.id = l.id ∧ m.status = 6 ∧ m.done = l.done + (v.starvedPool l).length ∧ m.starved = [] ∧ ∀ q ∈ m.moved, q ∈ l.moved ∧ q.2 ∉ v.starvedPool l))))

/-- R134, R136 to R139: `send`, `fill` and `spawn` with a well-formed header: the destination awaits the status, and one packet with the header, the words in the link format and the sender's name leaves: for a name by the core's directory cache or the name itself, for `spawn` to the vault core of its operand's address.
R134: a packet for this cube is put behind the others under way, and nothing else changes; one for another cube leaves by the fabric.
R418 to R420: a packet for another cube goes out on the peer's context of its class, is numbered and kept for retransmission; behind one that waits for the same peer and class, or with every context in use by unacknowledged packets, it waits. Nothing else of the machine changes.
Completes: send, spawn, fill. -/
def Obligations.Packets : Prop :=
  (∀ (s : State) (d a b : Reg) (t v : Bool) (h : Word) (n : Nat), h = s.val a → n = bits h.toNat 48 46 + 1 →
    s.issues ⟨[], [(a, t), (b, v)] ++ (List.range (n - 1)).map (fun j => (Fin.ofNat 64 (b.val + 1 + j), false)), [d], []⟩ = true → b.val + n - 1 ≤ 59 → n ≤ 6 →
    bits h.toNat 63 54 = 0 → bits h.toNat 53 52 ≠ 2 → bits h.toNat 51 49 < 6 → (bits h.toNat 53 52 = 3 → s.self.priv ≠ .user) →
    (∃ (u : State) (p : Packet), exec (.send d a b t v) s = .next ((u.route p).finish (.send d a b t v)) ∧ u = (s.producer d).2
        ∧ p.kind = .message ∧ p.req = s.nid ∧ p.hdr = h ∧ p.src = s.myName ∧ p.tenant = s.self.tenant ∧ p.job = s.self.job ∧ p.scube = s.cube ∧ p.score = s.cur.1
        ∧ p.words = (List.range n).map (fun j => BitVec.ofNat 64 (narrow (bits h.toNat 51 49) (s.val (Fin.ofNat 64 (b.val + j)))))
        ∧ (smGet 0 (s.core s.cur.1).dir (dirKey s.self.tenant (h.toNat % 2 ^ 32)) = 0 →
          (h.getLsbD 31 = true → p.cube = bits h.toNat 30 18 ∧ p.core = birthCore (h.toNat % 2 ^ 32)) ∧ (h.getLsbD 31 = false → p.cube = s.cube ∧ p.core = s.cur.1)))
    ∧ (n = 1 → bits h.toNat 45 38 = 0 → 1 ≤ bits h.toNat 37 32 → bits h.toNat 37 32 < 60 →
      ∃ (u : State) (p : Packet), exec (.fill d a b t v) s = .next ((u.route p).finish (.fill d a b t v)) ∧ u = (s.producer d).2
        ∧ p.kind = .fill ∧ p.req = s.nid ∧ p.hdr = h ∧ p.src = s.myName ∧ p.tenant = s.self.tenant ∧ p.words = [BitVec.ofNat 64 (narrow (bits h.toNat 51 49) (s.val b))])
    ∧ (h.toNat % 2 ^ 32 = 0 → ∀ va pa attr c la, s.resolve (s.val b).toNat = .virt va pa attr → s.home pa = some (c, la) →
      ∃ (u : State) (p : Packet), exec (.spawn d a b t v) s = .next ((u.route p).finish (.spawn d a b t v)) ∧ u = (s.producer d).2
        ∧ p.kind = .spawn ∧ p.req = s.nid ∧ p.hdr = h ∧ p.cube = c ∧ p.core = 256 + (s.place la).vault ∧ p.target = bits h.toNat 37 32 + 1 ∧ p.words.head? = some (s.val b)))
  ∧ (∀ (s : State) (p : Packet),
    (p.cube = s.cube → s.route p = { s with nid := s.nid + 1, net := s.net ++ [{ p with id := s.nid }] })
    ∧ (p.cube ≠ s.cube → (s.route p).net = s.net ∧ (s.route p).ctxs = s.ctxs ∧ (s.route p).mem = s.mem))
  ∧ (∀ (s : State) (q mode n : Nat) (op : Instr) (a : EvArg) (e : Ev), n = smGet 0 s.sendNo (pdcKey q mode) → e = ⟨op, { a with peer := some q, seq := some (mode, n, s.time) }⟩ →
    (s.sendTo q mode op a = { s with pdcs := (s.sendTo q mode op a).pdcs, outbox := (s.sendTo q mode op a).outbox, pdcWait := (s.sendTo q mode op a).pdcWait, sendNo := (s.sendTo q mode op a).sendNo })
    ∧ ((∀ w ∈ s.pdcWait, w.1 ≠ mode ∨ w.2.arg.peer ≠ some q) →
      (∀ p, s.pdcs = [p] → p.peer = q → p.mode = mode → (s.sendTo q mode op a).outbox = e :: s.outbox ∧ (s.sendTo q mode op a).pdcWait = s.pdcWait
        ∧ smGet 0 (s.sendTo q mode op a).sendNo (pdcKey q mode) = n + 1 ∧ ∃ r, (s.sendTo q mode op a).pdcs = [r] ∧ r.sent = p.sent ++ [⟨n, e, s.time + 16000, 16000⟩])
      ∧ (s.pdcs.length < 65536 → (s.sendTo q mode op a).outbox = e :: s.outbox)
      ∧ ((∀ p ∈ s.pdcs, p.peer ≠ q ∨ p.mode ≠ mode) → 65536 ≤ s.pdcs.length → (∀ p ∈ s.pdcs, p.sent ≠ []) → s.sendTo q mode op a = { s with pdcWait := s.pdcWait ++ [(mode, ⟨op, { a with peer := some q }⟩)] }))
    ∧ ((∃ w ∈ s.pdcWait, w.1 = mode ∧ w.2.arg.peer = some q) → s.sendTo q mode op a = { s with pdcWait := s.pdcWait ++ [(mode, ⟨op, { a with peer := some q }⟩)] }))

/-- R129, R134, R139, R390: MESSAGE_ARRIVAL at a counter applies the message and returns the status to the sender's register; a cancelled job gives 4, a fence 3. FILL_ARRIVAL writes an empty-idle register of a resident thread of the sender's tenant, status 0, and gives 5 for another state and 6 for another tenant. The packet is gone afterwards.
R130: a stored message: the header's upper half with the source endpoint, the payload words widened by the link format, zeros, and the arrival time.
Completes: messageArrival, fillArrival. -/
def Obligations.MessageArrivals : Prop :=
  ((∀ (s : State) (p : Packet), s.arg.b = 0 → s.net.find? (fun q => q.id == s.arg.a) = some p → p.scube = s.cube → p.core < 320 → p.kind ≠ .fill →
    (s.cancelled p.tenant p.job = true → exec .messageArrival s = .next ({ s with net := s.net.filter (fun (q : Packet) => q.id != p.id) }.answer p.req 4))
    ∧ (s.cancelled p.tenant p.job = false → s.fenceOver p.core = true → exec .messageArrival s = .next ({ s with net := s.net.filter (fun (q : Packet) => q.id != p.id) }.answer p.req 3))
    ∧ (s.cancelled p.tenant p.job = false → s.fenceOver p.core = false → (p.kind = .spawn ∨ isStewardEnd (p.hdr.toNat % 2 ^ 32) = false) → p.target ≠ 0 → p.firm = [] →
      ∀ st u, s.applyCtr (ctrKey p.core (p.target - 1)) p.tenant p.job (some (s.messageWords p)) (bits p.hdr.toNat 45 38) = (st, u) →
        exec .messageArrival s = .next ({ u with net := u.net.filter (fun (q : Packet) => q.id != p.id) }.answer p.req (BitVec.ofNat 64 st))))
  ∧ (∀ (s : State) (p : Packet) (k r : Nat) (x : Ctx), s.arg.b = 0 → s.net.find? (fun q => q.id == s.arg.a) = some p → p.scube = s.cube → p.core < 320 →
    s.cancelled p.tenant p.job = false → s.fenceOver p.core = false → isThreadEnd (p.hdr.toNat % 2 ^ 32) = true → isStewardEnd (p.hdr.toNat % 2 ^ 32) = false →
    s.residentNamed p.core (p.hdr.toNat % 2 ^ 32) = some k → x = s.ctx k → r = bits p.hdr.toNat 37 32 →
    (x.tenant = p.tenant → (x.cell r).st = .idle → exec .fillArrival s = .next ({ (s.setCtx k (x.setCell r ⟨widen (bits p.hdr.toNat 51 49) (p.words.getD 0 0).toNat, .full, false⟩)) with
        net := s.net.filter (fun (q : Packet) => q.id != p.id) }.answer p.req 0))
    ∧ (x.tenant = p.tenant → (x.cell r).st ≠ .idle → exec .fillArrival s = .next ({ s with net := s.net.filter (fun (q : Packet) => q.id != p.id) }.answer p.req 5))
    ∧ (x.tenant ≠ p.tenant → exec .fillArrival s = .next ({ s with net := s.net.filter (fun (q : Packet) => q.id != p.id) }.answer p.req 6)))
  ∧ (∀ (s : State) (id : Nat) (v : Word) (q : Req), q ∈ (s.answer id v).reqs →
      q.id = id ∧ q.sampled = true ∧ q.data = toBytes v.toNat 8 ∨ q.id ≠ id ∧ q ∈ s.reqs))
  ∧ (∀ (s : State) (p : Packet) (l : List Word), p.firm = [] → p.kind = .message → p.words.length ≤ 6 → p.src < 2 ^ 32 → l = s.messageWords p →
    l.length = 8 ∧ (l.getD 0 0).toNat = p.hdr.toNat / 2 ^ 32 * 2 ^ 32 + p.src
    ∧ (∀ j, j < p.words.length → l.getD (j + 1) 0 = widen (bits p.hdr.toNat 51 49) (p.words.getD j 0).toNat)
    ∧ (∀ j, p.words.length ≤ j → j < 6 → l.getD (j + 1) 0 = 0) ∧ l.getD 7 0 = BitVec.ofNat 64 s.time)

/-- R135, R225 to R229: relocation on this cube: the arriving packet is taken by an inbox with room, the home context is then held, or else it is refused and the home context goes on without moving; a thread of the inbox is loaded into a free context; a moth that returns is loaded into its held home context, which keeps its own identity; old stubs go.
R133, R134, R135: the directory leads a packet to the core of its entry, ends one without an entry in status 2, or 3 where the thread's core is fenced, and takes an entry that the supervisor gives; a stub sends it on with one more hop and a notice to its source; a notice replaces the source core's entry.
Completes: home, directoryLookup, stubForward, movedNotice, stubExpiry, relocationArrival, relocationRefusal, mothLoad, mothReturn. -/
def Obligations.Relocation : Prop :=
  ((∀ (s : State) (t : Stored) (k : Nat), s.arg.b ≠ 1 → s.arg.b ≠ 2 → s.stored.find? (fun u => u.slot == 25 && !u.ret && u.ctx.uid == s.arg.a) = some t → s.departing s.arg.a = some k →
    ((s.stored.filter (fun u => u.core == t.core && u.slot == 24)).length < 16 → s.cancelled t.ctx.tenant t.ctx.job = false → (s.ctx k).home = none → Answers .relocationArrival s (fun u =>
      u.stored = s.stored.filter (fun (v : Stored) => v ≠ t) ++ [{ t with slot := 24 }] ∧ u.ctx k = { s.ctx k with park := some .away } ∧ (∀ j, j ≠ k → u.ctx j = s.ctx j) ∧ u.mem = s.mem))
    ∧ (16 ≤ (s.stored.filter (fun u => u.core == t.core && u.slot == 24)).length → exec .relocationArrival s = .next { s with stored := s.stored.filter (fun (v : Stored) => v ≠ t) ++ [{ t with slot := 27 }] }))
  ∧ (∀ (s : State) (k : Nat), s.departing s.arg.a = some k → Answers .relocationRefusal s (fun u => u.ctx k = { s.ctx k with park := none, stay := true, memo := [] } ∧ (∀ j, j ≠ k → u.ctx j = s.ctx j)
      ∧ u.stored = s.stored.filter (fun (t : Stored) => !(t.slot == 27 && t.ctx.uid == s.arg.a)) ∧ u.mem = s.mem))
  ∧ (∀ (s : State) (t : Stored) (i : Nat), s.stored.find? (fun u => u.slot == 24 && u.ctx.uid == s.arg.a) = some t → s.freeCtxs t.core = [i] →
      exec .mothLoad s = .next (({ s with stored := s.stored.filter (fun (u : Stored) => u ≠ t) } : State).setCtx (ctxKey t.core i) { t.ctx with occ := true, issued := s.cycle }))
  ∧ (∀ (s : State) (t : Stored) (k : Nat), s.arg.b = 0 → s.heldHome s.arg.a = some k → s.stored.find? (fun u => u.slot == 25 && u.ret && u.ctx.uid == s.arg.a) = some t → t.ctx.trapHome = none → Answers .mothReturn s (fun u =>
      u.stored = s.stored.filter (fun (v : Stored) => v ≠ t) ∧ u.mem = s.mem ∧ (∀ j, j ≠ k → u.ctx j = s.ctx j) ∧ (∀ r, (u.ctx k).cell r = t.ctx.cell r) ∧ (u.ctx k).pc = t.ctx.pc ∧ (u.ctx k).fflags = t.ctx.fflags ∧ (u.ctx k).live = t.ctx.live
      ∧ (u.ctx k).loops = t.ctx.loops ∧ (u.ctx k).sig = t.ctx.sig ∧ (u.ctx k).park = none ∧ (u.ctx k).uid = (s.ctx k).uid ∧ (u.ctx k).name = (s.ctx k).name ∧ (u.ctx k).tenant = (s.ctx k).tenant))
  ∧ (∀ s : State, exec .stubExpiry s = .next (s.setCore s.arg.a { s.core s.arg.a with stubs := (s.core s.arg.a).stubs.filter (fun (b : Stub) => decide (s.time < b.taken + 100000)) }))
  ∧ (∀ s : State, (s.self.home = none → exec .home s = .next (s.finish .home)) ∧ (s.self.home ≠ none → exec .home s = .next (s.parkMe .homeward))))
  ∧ ((∀ (s : State) (p : Packet) (e : Nat), s.arg.b = 0 → s.net.find? (fun q => q.id == s.arg.a) = some p → e = smGet 0 (s.tenant p.tenant).dir (p.hdr.toNat % 2 ^ 32) →
    (e = 0 → s.peers = [] → exec .directoryLookup s = .next (s.settlePacket p (if isThreadEnd (p.hdr.toNat % 2 ^ 32) && s.fenceOver p.core then 3 else 2)))
    ∧ (2 ^ 40 ≤ e → e < 2 ^ 50 → (e - 2 ^ 40) / 64 / 512 = s.cube → isThreadEnd (p.hdr.toNat % 2 ^ 32) = false → p.scube ≠ s.cube → p.hops ≠ 5 →
      exec .directoryLookup s = .next { s with net := s.net.map (fun (q : Packet) => if q.id = p.id
        then { p with cube := s.cube, core := (e - 2 ^ 40) / 64 % 512, target := e % 64 + 1, asked := false } else q) }))
  ∧ (∀ s : State, s.arg.b = 3 → Answers .directoryLookup s (fun u => u = { s with tenants := u.tenants } ∧ (∀ t, t ≠ s.arg.e → u.tenant t = s.tenant t)
      ∧ smGet 0 (u.tenant s.arg.e).dir s.arg.d = s.arg.c ∧ ∀ n, n ≠ s.arg.d → smGet 0 (u.tenant s.arg.e).dir n = smGet 0 (s.tenant s.arg.e).dir n))
  ∧ (∀ (s : State) (p : Packet) (b : Stub), s.net.find? (fun q => q.id == s.arg.a) = some p → s.stubOf p.core (p.hdr.toNat % 2 ^ 32) = some b → b.cube = s.cube → p.scube = s.cube →
    (p.hops < 4 → exec .stubForward s = .next { s with
      net := s.net.map (fun (q : Packet) => if q.id = p.id then { p with cube := b.cube, core := b.core, hops := p.hops + 1 } else q)
      notices := s.notices ++ [⟨p.score, dirKey p.tenant (p.hdr.toNat % 2 ^ 32), threadEntry b.cube b.core⟩] })
    ∧ (4 ≤ p.hops → exec .stubForward s = .next { s with net := s.net.map (fun (q : Packet) => if q.id = p.id then { q with hops := 5 } else q) }))
  ∧ (∀ (s : State) (n : Notice) (l : List Notice), s.arg.b = 0 → s.notices = n :: l → (smGet 0 (s.core n.core).dir n.key ≠ 0 ∨ (s.core n.core).dir.length < 64) →
    Answers .movedNotice s (fun u => u = { s with notices := l, cores := u.cores } ∧ smGet 0 (u.core n.core).dir n.key = n.entry
      ∧ (∀ k, k ≠ n.key → smGet 0 (u.core n.core).dir k = smGet 0 (s.core n.core).dir k) ∧ ∀ c, c ≠ n.core → u.core c = s.core c)))

/-- R150, R151, R154, R156: membership and the queries of groups: joining takes the lowest free rank, status 0; the status is 6 without such a group, for a member, or in four groups; leaving frees the rank. The size and the rank; `gstg` delivers what the record holds.
R152, R153, R155: barriers. An arrival is recorded with its time, after the release part; `garr` delivers the generation's number and goes on, `gbar` waits for the release of the generation it arrived in, and `gwait` for the one it names; leaving makes the acquire. A single-cube generation in which every expected member has arrived is released at once and the record takes one instance.
Completes: gjoin, gleave, gbar, garr, gwait, gsize, grank, gstg. -/
def Obligations.Groups : Prop :=
  ((∀ (s : State) (d a : Reg) (t : Bool) (v : Word), s.issues ⟨[(a, t)], [], [d], []⟩ = true → v = s.val a → v.toNat < 2 ^ 32 →
    (∀ g, s.group s.self.tenant v.toNat = some g → (g.member s.agent) = none → s.self.groups.length < 4 →
      ∃ u : State, exec (.gjoin d a t) s = .next ((u.later d 0).finish (.gjoin d a t)) ∧ u = { s.popAll [(a, t)] with ctxs := u.ctxs, groups := u.groups }
        ∧ u.self = { s.self with groups := s.self.groups ++ [g.handle] } ∧ u.groups = s.groups.map (fun (q : Group) => if q.tenant = g.tenant ∧ q.handle = g.handle then q.join s.agent else q))
    ∧ ((s.group s.self.tenant v.toNat = none ∨ 4 ≤ s.self.groups.length ∨ ∃ g m, s.group s.self.tenant v.toNat = some g ∧ g.member s.agent = some m) →
      exec (.gjoin d a t) s = .next (((s.popAll [(a, t)]).later d 6).finish (.gjoin d a t)))
    ∧ (∀ g m, s.group s.self.tenant v.toNat = some g → g.member s.agent = some m →
      ∃ u : State, exec (.gleave d a t) s = .next ((u.later d 0).finish (.gleave d a t)) ∧ u = { s.popAll [(a, t)] with ctxs := u.ctxs, groups := u.groups }
        ∧ u.self = { s.self with groups := s.self.groups.filter (fun (h : Nat) => h != g.handle) } ∧ u.groups = s.groups.map (fun (q : Group) => if q.tenant = g.tenant ∧ q.handle = g.handle then q.leave s.agent else q))
    ∧ (s.group s.self.tenant v.toNat = none → exec (.gleave d a t) s = .next (((s.popAll [(a, t)]).later d 6).finish (.gleave d a t)))
    ∧ (∀ g, s.group s.self.tenant v.toNat = some g → exec (.gsize d a t) s = .next (s.retire (.gsize d a t) ⟨[(a, t)], [], [d], []⟩ d
        (BitVec.ofNat 64 (if g.cubes = [] then g.members.length else g.cubes.length))))
    ∧ (∀ g m, s.group s.self.tenant v.toNat = some g → g.member s.agent = some m → exec (.grank d a t) s = .next (s.retire (.grank d a t) ⟨[(a, t)], [], [d], []⟩ d
        (BitVec.ofNat 64 (if g.cubes = [] then m.rank else g.rank)))))
  ∧ (∀ (s : State) (d a b : Reg) (t v : Bool) (h : Word) (q : Nat) (g : Group) (m : Member), s.issues ⟨[(a, t), (b, v)], [], [d], []⟩ = true → h = s.val a → h.toNat < 2 ^ 32 →
    s.group s.self.tenant h.toNat = some g → g.member s.agent = some m → q = (s.val b).toNat →
    (q < 2 ^ 34 → bits q 33 32 ≠ 3 → bits q 31 28 = 0 → bits q 15 4 = 0 → ∃ x : Word, exec (.gstg d a b t v) s = .next (((s.popAll [(a, t), (b, v)]).later d x).finish (.gstg d a b t v))
      ∧ (g.record[q % 16]? = none → x = BitVec.allOnes 64)
      ∧ (∀ c, g.record[q % 16]? = some c → (bits q 33 32 = 1 → x = BitVec.ofNat 64 c.gen)
        ∧ (bits q 33 32 = 0 → x = if smGet 0 c.offs (bits q 27 16) = 0 then BitVec.allOnes 64 else BitVec.ofNat 64 (smGet 0 c.offs (bits q 27 16) - 1))))
    ∧ ((2 ^ 34 ≤ q ∨ bits q 33 32 = 3 ∨ bits q 31 28 ≠ 0 ∨ bits q 15 4 ≠ 0) → exec (.gstg d a b t v) s = .next (s.trap 0x01 0x0D (BitVec.ofNat 64 ((encode (.gstg d a b t v)).headD 0)))))
  ∧ (∀ (g : Group) (uid : Nat), ∃ r, (g.join uid).members = g.members ++ [⟨r, uid, if g.opened = none then g.gen else g.gen + 1⟩]
      ∧ (∀ m ∈ g.members, m.rank ≠ r) ∧ ∀ k, k < r → ∃ m ∈ g.members, m.rank = k))
  ∧ ((∀ (s : State) (d a : Reg) (t : Bool) (v : Word) (g : Group) (m : Member) (s1 : State), s.issues ⟨[(a, t)], [], [], []⟩ = true → s.issues ⟨[(a, t)], [], [d], []⟩ = true → v = s.val a → v.toNat < 2 ^ 32 →
    s.group s.self.tenant v.toNat = some g → g.member s.agent = some m → (g.opened.isSome && g.cut) = false → g.waits m = false → (s.self.memo = [] ∨ s.self.memo = [1]) →
    s.released s1 true (if g.cubes = [] then 1 else 2) →
    exec (.garr d a t) s = .next ((({ s1.popAll [(a, t)] with groups := s1.groups.map (fun (q : Group) => if q.tenant = g.tenant ∧ q.handle = g.handle then (q.arrive m.rank s.time false).settle else q) }).later d
      (BitVec.ofNat 64 g.gen)).finish (.garr d a t))
    ∧ exec (.gbar a t) s = .next ({ s1.setSelf { s1.self with memo := [5, g.gen, g.handle] } with
        groups := s1.groups.map (fun (q : Group) => if q.tenant = g.tenant ∧ q.handle = g.handle then (q.arrive m.rank s.time false).settle else q) }.parkMe (.gen g.tenant g.handle g.gen)))
  ∧ (∀ (s : State) (a : Reg) (t : Bool) (v : Word) (g : Group) (k h : Nat), v = s.val a → v.toNat < 2 ^ 32 → s.self.memo = [5, k, h] → s.group s.self.tenant v.toNat = some g →
    (k < g.gen → exec (.gbar a t) s = .next (((s.popAll [(a, t)]).acquire (if g.cubes = [] then 1 else 2)).finish (.gbar a t)))
    ∧ (g.gen ≤ k → exec (.gbar a t) s = .next (s.parkMe (.gen s.self.tenant v.toNat k))))
  ∧ (∀ (s : State) (a b : Reg) (t u : Bool) (v : Word) (g : Group) (m : Member), s.issues ⟨[(a, t), (b, u)], [], [], []⟩ = true → v = s.val a → v.toNat < 2 ^ 32 → s.self.memo ≠ [6] →
    s.group s.self.tenant v.toNat = some g → g.member s.agent = some m →
    ((s.val b).toNat < g.gen → exec (.gwait a b t u) s = .next (((s.popAll [(a, t), (b, u)]).acquire (if g.cubes = [] then 1 else 2)).finish (.gwait a b t u)))
    ∧ (g.gen ≤ (s.val b).toNat → exec (.gwait a b t u) s = .next (s.parkMe (.gen g.tenant g.handle (s.val b).toNat))))
  ∧ (∀ (g q : Group) (rank now : Nat), q = g.arrive rank now false →
    (g.opened = none → q.opened = some now ∧ smGet 0 q.arrived rank = 1 ∧ ∀ r, r ≠ rank → smGet 0 q.arrived r = 0)
    ∧ (∀ t0, g.opened = some t0 → q.opened = some t0 ∧ smGet 0 q.arrived rank = min (now - t0) 0xFFFFFFFE + 1 ∧ ∀ r, r ≠ rank → smGet 0 q.arrived r = smGet 0 g.arrived r)
    ∧ (q.cubes = [] → q.cut = false → (∀ m ∈ q.members, q.gen < m.since ∨ smGet 0 q.arrived m.rank ≠ 0) →
      q.settle.gen = q.gen + 1 ∧ q.settle.opened = none ∧ q.settle.arrived = [] ∧ q.settle.members = q.members ∧ q.settle.record.length ≤ 16
      ∧ ∃ c, q.settle.record.head? = some c ∧ c.gen = q.gen ∧ c.offs = q.arrived.filter (fun o => o.1 < 256))
    ∧ ((∃ m ∈ q.members, m.since ≤ q.gen ∧ smGet 0 q.arrived m.rank = 0) → q.settle = q)))

/-- R106, R108 to R115: each floating-point instruction issues on the low halves of its sources under the mode of `fmode`, ORs its flags into `fflags`, and writes its result, an FP32 value in a cleared word or an integer. The fused ones read the old destination as the addend.
R96, R97, R101, R102, R107, R109 to R114: the special inputs of the floating-point operations, in every format: poison first, then signalling NaNs, the invalid operations, quiet NaNs; infinities and zeros; signs, the least and the greatest, the comparisons and the conversions.
Completes: fadd, fsub, fmul, fdiv, fsqrt, fma, fms, fmin, fmax, fneg, fabs, fclass, fcmpEq, fcmpLt, fcmpLe, fcvtF32I64, fcvtI64F32, fcvtF32F16, fcvtF16F32, fcvtF32Bf16, fcvtBf16F32, fcvtF32Tf8, fcvtTf8F32. -/
def Obligations.FloatInstructions : Prop :=
  ((∀ r ∈ ([
    (.fadd, fpAdd .f32), (.fsub, fpSub .f32), (.fmul, fpMul .f32), (.fdiv, fpDiv .f32),
    (.fmin, fun _ => fpMinMax .f32 false), (.fmax, fun _ => fpMinMax .f32 true),
    (.fcmpEq, fun _ => fpCmp .f32 .eq), (.fcmpLt, fun _ => fpCmp .f32 .lt), (.fcmpLe, fun _ => fpCmp .f32 .le)] :
      List ((Reg → Reg → Reg → Bool → Bool → Instr) × (Nat → Nat → Nat → FRes))),
    ∀ (s : State) (d a b : Reg) (t u : Bool) (x : FRes), s.issues ⟨[(a, t), (b, u)], [], [d], []⟩ = true →
      x = r.2 (s.self.fmode.toNat % 4) ((s.val a).toNat % 2 ^ 32) ((s.val b).toNat % 2 ^ 32) →
      exec (r.1 d a b t u) s = .next ((s.setSelf { s.self with fflags := s.self.fflags ||| BitVec.ofNat 64 x.flags }).retire
        (r.1 d a b t u) ⟨[(a, t), (b, u)], [], [d], []⟩ d (BitVec.ofNat 64 x.bits)))
  ∧ (∀ r ∈ ([(.fma, fpFma .f32), (.fms, fpFms .f32)] : List ((Reg → Reg → Reg → Bool → Bool → Instr) × (Nat → Nat → Nat → Nat → FRes))),
    ∀ (s : State) (d a b : Reg) (t u : Bool) (x : FRes), s.issues ⟨[(d, false), (a, t), (b, u)], [], [d], []⟩ = true →
      x = r.2 (s.self.fmode.toNat % 4) ((s.val a).toNat % 2 ^ 32) ((s.val b).toNat % 2 ^ 32) ((s.val d).toNat % 2 ^ 32) →
      exec (r.1 d a b t u) s = .next ((s.setSelf { s.self with fflags := s.self.fflags ||| BitVec.ofNat 64 x.flags }).retire
        (r.1 d a b t u) ⟨[(d, false), (a, t), (b, u)], [], [d], []⟩ d (BitVec.ofNat 64 x.bits)))
  ∧ (∀ r ∈ ([
    (.fsqrt, fun m w => fpSqrt .f32 m (w.toNat % 2 ^ 32)),
    (.fneg, fun _ w => fpNeg .f32 (w.toNat % 2 ^ 32)),
    (.fabs, fun _ w => fpAbs .f32 (w.toNat % 2 ^ 32)),
    (.fclass, fun _ w => ⟨fpClass .f32 (w.toNat % 2 ^ 32), 0⟩),
    (.fcvtF32I64, fun m w => cvtIntF .f32 m w.toInt),
    (.fcvtF32F16, fun m w => cvtF .f16 .f32 m (w.toNat % 2 ^ 16)),
    (.fcvtF16F32, fun m w => cvtF .f32 .f16 m (w.toNat % 2 ^ 32)),
    (.fcvtF32Bf16, fun m w => cvtF .bf16 .f32 m (w.toNat % 2 ^ 16)),
    (.fcvtBf16F32, fun m w => cvtF .f32 .bf16 m (w.toNat % 2 ^ 32)),
    (.fcvtF32Tf8, fun _ w => ⟨wideTf8 .f32 (w.toNat % 2 ^ 8), 0⟩),
    (.fcvtTf8F32, fun _ w => cvtTf8 .f32 (w.toNat % 2 ^ 32))] : List ((Reg → Reg → Bool → Instr) × (Nat → Word → FRes))),
    ∀ (s : State) (d a : Reg) (t : Bool) (x : FRes), s.issues ⟨[(a, t)], [], [d], []⟩ = true → x = r.2 (s.self.fmode.toNat % 4) (s.val a) →
      exec (r.1 d a t) s = .next ((s.setSelf { s.self with fflags := s.self.fflags ||| BitVec.ofNat 64 x.flags }).retire
        (r.1 d a t) ⟨[(a, t)], [], [d], []⟩ d (BitVec.ofNat 64 x.bits)))
  ∧ (∀ (s : State) (d a : Reg) (t : Bool) (x : Int × Nat), s.issues ⟨[(a, t)], [], [d], []⟩ = true →
      x = cvtI .f32 (s.self.fmode.toNat % 4) (-2 ^ 63) (2 ^ 63 - 1) ((s.val a).toNat % 2 ^ 32) →
      exec (.fcvtI64F32 d a t) s = .next ((s.setSelf { s.self with fflags := s.self.fflags ||| BitVec.ofNat 64 x.2 }).retire
        (.fcvtI64F32 d a t) ⟨[(a, t)], [], [d], []⟩ d (BitVec.ofInt 64 x.1))))
  ∧ ((∀ (f : Fmt) (m : Nat), ∀ op ∈ [fpAdd f m, fpSub f m, fpMul f m, fpDiv f m, fun a b => fpFma f m a b b, fun a b => fpFms f m a b b],
    ∀ a b, ((f.val a = .poison ∨ f.val b = .poison) → op a b = ⟨f.poison, 32⟩)
      ∧ (f.val a ≠ .poison → f.val b ≠ .poison → (f.val a = .snan ∨ f.val b = .snan) → op a b = ⟨f.nan, 1⟩)
      ∧ (f.val a = .qnan → (f.val b = .qnan ∨ ∃ n, f.val b = .num n) → op a b = ⟨f.nan, 0⟩)
      ∧ (f.val b = .qnan → (∃ n, f.val a = .num n) → op a b = ⟨f.nan, 0⟩))
  ∧ (∀ (f : Fmt) (m a b c : Nat) (p q : Bool) (x y : Machine.Num),
    (f.val a = .inf p → f.val b = .inf q → fpAdd f m a b = (if p = q then ⟨f.inf p, 0⟩ else ⟨f.nan, 1⟩) ∧ fpSub f m a b = (if p = q then ⟨f.nan, 1⟩ else ⟨f.inf p, 0⟩)
      ∧ fpMul f m a b = ⟨f.inf (p != q), 0⟩ ∧ fpDiv f m a b = ⟨f.nan, 1⟩)
    ∧ (f.val a = .inf p → f.val b = .num y → fpAdd f m a b = ⟨f.inf p, 0⟩ ∧ fpSub f m a b = ⟨f.inf p, 0⟩ ∧ fpDiv f m a b = ⟨f.inf (p != y.neg), 0⟩
      ∧ fpMul f m a b = (if y.m = 0 then ⟨f.nan, 1⟩ else ⟨f.inf (p != y.neg), 0⟩)
      ∧ (f.val c ≠ .poison → f.val c ≠ .snan → y.m = 0 → fpFma f m a b c = ⟨f.nan, 1⟩ ∧ fpFms f m a b c = ⟨f.nan, 1⟩))
    ∧ (f.val a = .num x → f.val b = .inf q → fpAdd f m a b = ⟨f.inf q, 0⟩ ∧ fpSub f m a b = ⟨f.inf (!q), 0⟩ ∧ fpDiv f m a b = ⟨f.zero (x.neg != q), 0⟩
      ∧ fpMul f m a b = (if x.m = 0 then ⟨f.nan, 1⟩ else ⟨f.inf (x.neg != q), 0⟩))
    ∧ (f.val a = .num x → f.val b = .num y → y.m = 0 → fpDiv f m a b = (if x.m = 0 then ⟨f.nan, 1⟩ else ⟨f.inf (x.neg != y.neg), 2⟩))
    ∧ (f.val a = .inf p → fpSqrt f m a = if p then ⟨f.nan, 1⟩ else ⟨f.inf false, 0⟩)
    ∧ (f.val a = .num x → (x.m = 0 → fpSqrt f m a = ⟨f.zero x.neg, 0⟩) ∧ (x.m ≠ 0 → x.neg = true → fpSqrt f m a = ⟨f.nan, 1⟩)))
  ∧ (∀ (f : Fmt) (a b : Nat) (mx : Bool), a < 2 ^ f.width → b < 2 ^ f.width →
    ((f.val a = .poison ∨ f.val b = .poison) → fpMinMax f mx a b = ⟨f.poison, 32⟩ ∧ ∀ r, fpCmp f r a b = ⟨0, 32⟩)
    ∧ (∀ x y, f.val a = .num x → f.val b = .num y →
      (x.rat < y.rat → fpMinMax f false a b = ⟨a, 0⟩ ∧ fpMinMax f true a b = ⟨b, 0⟩)
      ∧ (x.rat = y.rat → x.neg = true → y.neg = false → fpMinMax f false a b = ⟨a, 0⟩ ∧ fpMinMax f false b a = ⟨a, 0⟩ ∧ fpMinMax f true a b = ⟨b, 0⟩ ∧ fpMinMax f true b a = ⟨b, 0⟩)
      ∧ fpCmp f .eq a b = ⟨if x.rat = y.rat then 1 else 0, 0⟩ ∧ fpCmp f .lt a b = ⟨if x.rat < y.rat then 1 else 0, 0⟩
      ∧ fpCmp f .le a b = ⟨if x.rat ≤ y.rat then 1 else 0, 0⟩
      ∧ (f.val a = .num x → (fpNeg f a).flags = 0 ∧ (∀ k, (fpNeg f a).bits.testBit k = if k + 1 = f.width then !a.testBit k else a.testBit k)
        ∧ (fpAbs f a).flags = 0 ∧ ∀ k, (fpAbs f a).bits.testBit k = if k + 1 = f.width then false else a.testBit k)
      ∧ fpClass f a = (if x.m = 0 then (if x.neg then 8 else 16) else if x.m < 2 ^ f.fw then (if x.neg then 4 else 32) else if x.neg then 2 else 64))
    ∧ ((f.val a = .snan ∨ f.val a = .qnan) → ∀ y, f.val b = .num y → ∀ x, x = (if f.val a = .snan then 1 else 0) →
      fpMinMax f mx a b = ⟨b, x⟩ ∧ fpMinMax f mx b a = ⟨b, x⟩ ∧ fpCmp f .eq a b = ⟨0, x⟩ ∧ fpCmp f .lt a b = ⟨0, 1⟩ ∧ fpCmp f .le b a = ⟨0, 1⟩
      ∧ fpNeg f a = ⟨f.nan, x⟩ ∧ fpAbs f a = ⟨f.nan, x⟩)
    ∧ (f.val a = .poison → fpClass f a = 1024 ∧ fpNeg f a = ⟨f.poison, 32⟩ ∧ fpAbs f a = ⟨f.poison, 32⟩) ∧ (f.val a = .qnan → fpClass f a = 512)
    ∧ (f.val a = .snan → fpClass f a = 256) ∧ (f.val a = .inf true → fpClass f a = 1) ∧ (f.val a = .inf false → fpClass f a = 128))
  ∧ (∀ (f g : Fmt) (m a : Nat),
    (f.val a = .poison → cvtF f g m a = ⟨g.poison, 32⟩ ∧ cvtTf8 f a = ⟨0x80, 32⟩ ∧ ∀ lo hi, cvtI f m lo hi a = (lo, 32))
    ∧ (f.val a = .snan → cvtF f g m a = ⟨g.nan, 1⟩ ∧ cvtTf8 f a = ⟨0x80, 1⟩ ∧ ∀ lo hi, cvtI f m lo hi a = (hi, 1))
    ∧ (f.val a = .qnan → cvtF f g m a = ⟨g.nan, 0⟩ ∧ cvtTf8 f a = ⟨0x80, 0⟩ ∧ ∀ lo hi, cvtI f m lo hi a = (hi, 1))
    ∧ (∀ p, f.val a = .inf p → cvtF f g m a = ⟨g.inf p, 0⟩ ∧ cvtTf8 f a = ⟨(if p then 128 else 0) + 127, 20⟩ ∧ ∀ lo hi, cvtI f m lo hi a = (if p then lo else hi, 1))
    ∧ wideTf8 f 0x80 = f.nan))

/-- R101, R103 to R105, R107: rounding. Every finite nonzero sum, difference, product, quotient, fused result, square root and conversion is its exact value rounded once, with exactly the flags of that rounding; an exact zero has the sign that the rules give, and no flag. A TF8 code is the nearest one, ties to the even body. An integer in range is the value rounded under the mode. -/
def Obligations.FloatRounding : Prop :=
  (∀ (f : Fmt) (m a b c : Nat) (x y z : Machine.Num), m < 4 → f.val a = .num x → f.val b = .num y → f.val c = .num z → ∀ (sg : Bool → Bool → Bool), (∀ p q, sg p q = if p = q then p else m == 3) →
    ∀ r ∈ [(x.rat + y.rat, fpAdd f m a b, sg x.neg y.neg), (x.rat - y.rat, fpSub f m a b, sg x.neg (!y.neg)), (x.rat * y.rat, fpMul f m a b, x.neg != y.neg),
      (x.rat * y.rat + z.rat, fpFma f m a b c, sg (x.neg != y.neg) z.neg), (x.rat * y.rat - z.rat, fpFms f m a b c, sg (x.neg != y.neg) (!z.neg))],
    (r.1 ≠ 0 → (Cut.of r.1).roundsTo f m r.2.1) ∧ (r.1 = 0 → r.2.1 = ⟨f.zero r.2.2, 0⟩))
  ∧ (∀ (f g : Fmt) (m a b : Nat) (x y : Machine.Num), m < 4 → f.val a = .num x → f.val b = .num y →
    (x.m ≠ 0 → y.m ≠ 0 → (Cut.of (x.rat / y.rat)).roundsTo f m (fpDiv f m a b)) ∧ (x.m = 0 → y.m ≠ 0 → fpDiv f m a b = ⟨f.zero (x.neg != y.neg), 0⟩)
    ∧ (x.m ≠ 0 → x.neg = false → (Cut.sqrt x.rat).roundsTo f m (fpSqrt f m a))
    ∧ (x.m ≠ 0 → (Cut.of x.rat).roundsTo g m (cvtF f g m a)) ∧ (x.m = 0 → cvtF f g m a = ⟨g.zero x.neg, 0⟩))
  ∧ (∀ (f : Fmt) (m : Nat) (v : Int), m < 4 → (v ≠ 0 → (Cut.of v).roundsTo f m (cvtIntF f m v)) ∧ cvtIntF f m 0 = ⟨f.zero false, 0⟩)
  ∧ (∀ (f : Fmt) (a : Nat) (x : Machine.Num) (y : Rat), f.val a = .num x → y = |x.rat| →
    (31 / 2 < y → cvtTf8 f a = ⟨(if x.neg then 128 else 0) + 127, 20⟩)
    ∧ (y ≤ 31 / 2 → ∃ b, b < 128 ∧ (cvtTf8 f a).bits = (if b = 0 then 0 else (if x.neg then 128 else 0) + b)
      ∧ (∀ k, k < 128 → |(tf8Mag b : Rat) / 2 ^ 19 - y| ≤ |(tf8Mag k : Rat) / 2 ^ 19 - y| ∧ (k ≠ b → |(tf8Mag b : Rat) / 2 ^ 19 - y| = |(tf8Mag k : Rat) / 2 ^ 19 - y| → b % 2 = 0))
      ∧ (cvtTf8 f a).flags = (if (tf8Mag b : Rat) / 2 ^ 19 = y then 0 else 16) + (if 0 < y ∧ y < 1 / 2 ^ 19 then 8 else 0)))
  ∧ (∀ (f : Fmt) (m a : Nat) (x : Machine.Num) (lo hi : Int), m < 4 → f.val a = .num x → lo ≤ hi → ∃ q : Int,
    (match m with
      | 0 => |(q : Rat) - x.rat| ≤ 1 / 2 ∧ (|(q : Rat) - x.rat| = 1 / 2 → q % 2 = 0)
      | 1 => |(q : Rat)| ≤ |x.rat| ∧ |(q : Rat) - x.rat| < 1 ∧ 0 ≤ q * x.rat
      | 2 => x.rat ≤ q ∧ (q : Rat) - x.rat < 1
      | _ => (q : Rat) ≤ x.rat ∧ x.rat - q < 1)
    ∧ cvtI f m lo hi a = (if hi < q then (hi, 1) else if q < lo then (lo, 1) else (q, if (q : Rat) = x.rat then 0 else 16)))

/-- R119 to R122: `end` makes the context stop issuing; while a register is pending it waits, and once nothing of the thread is pending the context becomes free and no group has the thread as a member. `yield` moves only the context's place in its core's rotation; `self` writes the position word; `live` replaces one segment of the live mask.
R117, R118, R131: which activation starts, and what a new thread finds: of the unmasked counters with pending activations one of highest priority, the first after the one chosen last at that priority; every register zero and full but s56 and s57, the control state cleared, an empty `pin` queue. One of a cancelled job starts no thread (R459).
Completes: endThread, yield, selfId, live, activationStart. -/
def Obligations.Threads : Prop :=
  ((∀ (s u : State), s.cur.2 ≠ 8 → u = s.setSelf { (s.self.feed .endThread).issuedAt s.cycle with ending := true, park := some .drained } →
    ((∃ r ∈ s.self.regs, r.2.st = .pending) → exec .endThread s = .next u)
    ∧ (u.endReady s.me = true → s.self.home = none → Answers .endThread s (fun t => t.self = { Ctx.free with chain := s.self.chain }
      ∧ (∀ k, k ≠ s.me → t.ctx k = s.ctx k) ∧ ∀ g ∈ t.groups, g.member s.self.uid = none)))
  ∧ (∀ s : State, s.cur.2 ≠ 8 → exec .yield s = .next ((s.setCore s.cur.1 { s.core s.cur.1 with last := smPut 8 (s.core s.cur.1).last s.self.prio s.cur.2 }).finish .yield))
  ∧ (∀ s : State, s.cur.2 = 8 → exec .yield s = .next (s.finish .yield))
  ∧ (∀ (s : State) (d : Reg), s.issues ⟨[], [], [d], []⟩ = true →
    ((256 ≤ s.cur.1 ∨ (s.tile (tileOf s.cur.1)).owner = none) →
      exec (.selfId d) s = .next (s.retire (.selfId d) ⟨[], [], [d], []⟩ d (BitVec.ofNat 64 ((if s.cur.1 < 256 then s.cur.1 % 2 else 0) * 2 ^ 32 + s.cur.2 % 8 * 2 ^ 33))))
    ∧ (∀ id l, s.cur.1 < 256 → (s.tile (tileOf s.cur.1)).owner = some id → s.launch id = some l →
      exec (.selfId d) s = .next (s.retire (.selfId d) ⟨[], [], [d], []⟩ d (BitVec.ofNat 64 (s.cur.1 % 2 * 2 ^ 32 + l.h * 2 ^ 24 + l.w * 2 ^ 16
        + (tileOf s.cur.1 / 16 - l.y) * 2 ^ 8 + (tileOf s.cur.1 % 16 - l.x) + s.cur.2 % 8 * 2 ^ 33)))))
  ∧ (∀ (s : State) (k : Fin 4) (m : BitVec 18), ∃ v : Word, exec (.live k m) s = .next ((s.setSelf { s.self with live := v }).finish (.live k m))
    ∧ ∀ i, i < 64 → v.getLsbD i = if 18 * k.val + 1 ≤ i ∧ i < 18 * k.val + 19 ∧ i < 60 then m.getLsbD (i - (18 * k.val + 1)) else s.self.live.getLsbD i))
  ∧ ((∀ (s : State) (core i : Nat) (p : PendAct), s.bestCtr core = some (i, p) →
    i < 64 ∧ (s.counter (ctrKey core i)).mask = false ∧ (s.counter (ctrKey core i)).pending.head? = some p
    ∧ (∀ j q, j < 64 → (s.counter (ctrKey core j)).mask = false → (s.counter (ctrKey core j)).pending.head? = some q → p.prio ≤ q.prio
      ∧ (q.prio = p.prio → ∀ l, l = smGet 64 (s.core core).lastCtr p.prio → (l < i ∧ (l < j → i ≤ j)) ∨ (i ≤ l ∧ j ≤ l ∧ i ≤ j))))
  ∧ (∀ (s : State) (core : Nat), s.bestCtr core = none ↔ ∀ j, j < 64 → (s.counter (ctrKey core j)).mask = false → (s.counter (ctrKey core j)).pending = [])
  ∧ (∀ (s : State) (i f k key : Nat) (p : PendAct), s.bestCtr s.arg.a = some (i, p) → key = ctrKey s.arg.a i → k = ctxKey s.arg.a f →
    (s.cancelled p.tenant p.job = true → Answers .activationStart s (fun u => u.ctxs = s.ctxs ∧ u.mem = s.mem ∧ (∀ j, j ≠ key → u.counter j = s.counter j)
      ∧ u.counter key = { s.counter key with pending := (s.counter key).pending.tail }.endAct p.aid))
    ∧ (s.cancelled p.tenant p.job = false → s.allocatable s.arg.a = [f] → p.group = 0 → Answers .activationStart s (fun u => ∀ x, x = u.ctx k →
      x.occ = true ∧ x.pc = p.entry ∧ x.tenant = p.tenant ∧ x.job = p.job ∧ x.prio = p.prio ∧ x.priv = .user ∧ x.live = BitVec.allOnes 64 ∧ x.vlive = 0 ∧ x.fmode = 0 ∧ x.fflags = 0
      ∧ x.loops = [] ∧ x.tls = [] ∧ x.sig = 0 ∧ x.park = none ∧ x.chain = (s.ctx k).chain
      ∧ (∀ r, r ≠ 56 → r ≠ 57 → x.cell r = ⟨0, .full, false⟩) ∧ x.cell 56 = ⟨if p.msgs = 0 then 0 else BitVec.ofNat 64 (localBase + p.first), .full, false⟩
      ∧ x.cell 57 = ⟨BitVec.ofNat 64 (key % 64 + p.msgs * 2 ^ 8 + (s.counter key).pending.tail.length * 2 ^ 16 + (if p.byLaunch then 2 ^ 24 else 0)), .full, false⟩
      ∧ u.pinQ k = [] ∧ u.counter key = { s.counter key with pending := (s.counter key).pending.tail, running := (s.counter key).running ++ [p.aid] }
      ∧ (∀ j, j ≠ k → u.ctx j = s.ctx j) ∧ u.mem = s.mem))))

/-- R161 to R166, R463: the parcel instructions on a tile that launch id owns. `pq.put` appends a QUEUED parcel in the lowest free slot, or waits; `pq.take` takes the oldest QUEUED parcel that the tile meets, waits while work is left elsewhere, or writes zeros; `pq.done` frees the slot of a parcel taken by the thread and counts it; `pq.cnt` counts; `pq.steal` reserves slots and asks the victim. On a tile that no launch owns they trap PROT.
R162, R168, R173, R174: parcels on their way. In a diffusion period the parcels that two paired tiles of one cluster send each other leave their queues and are MOVING: never a parcel that is not QUEUED, not migratable or borrowed, or that the receiver does not meet, and never more than its free slots. An arriving parcel is QUEUED in the lowest free slot; the backlog feeds its parcel of lowest index that has a tile.
Completes: pqPut, pqTake, pqDone, pqCnt, pqSteal, diffusionPeriod, parcelArrival, backlogFeed. -/
def Obligations.Parcels : Prop :=
  ((∀ (s : State) (a b : Reg) (t v : Bool) (k id : Nat) (p : Nat), s.issues ⟨[(a, t), (b, v)], [], [], []⟩ = true → p = (s.val b).toNat → k = tileOf s.cur.1 → s.cur.1 < 256 →
    ((bits p 63 56 ≠ 0 ∨ 6 ≤ bits p 29 27 ∨ 6 ≤ bits p 26 24) → exec (.pqPut a b t v) s = .next (s.trap 0x01 0x0D (BitVec.ofNat 64 ((encode (.pqPut a b t v)).headD 0))))
    ∧ (bits p 63 56 = 0 → bits p 29 27 < 6 → bits p 26 24 < 6 →
      ((s.tile k).owner = none → exec (.pqPut a b t v) s = .next (s.trap 0x07 0 (BitVec.ofNat 64 k)))
      ∧ ((s.tile k).owner = some id → (∀ i, i < 256 → ∃ q ∈ (s.tile k).parcels, q.slot = i) → exec (.pqPut a b t v) s = .next (s.parkMe .parcelSlot))
      ∧ (∀ i, (s.tile k).owner = some id → i < 256 → (∀ q ∈ (s.tile k).parcels, q.slot ≠ i) → (∀ j, j < i → ∃ q ∈ (s.tile k).parcels, q.slot = j) →
        exec (.pqPut a b t v) s = .next (((({ s with nid := s.nid + 1 } : State).setTile k { s.tile k with parcels := (s.tile k).parcels ++
          [{ slot := i, e := s.val a, p := s.val b, st := .queued, order := s.nid, since := s.cycle, owner := s.cube, borrowed := none, launch := id }] }).popAll [(a, t), (b, v)]).finish (.pqPut a b t v)))))
  ∧ (∀ (s : State) (d e : Reg) (k id : Nat), s.issues ⟨[], [], [], [d, e]⟩ = true → e.val = d.val + 1 → k = tileOf s.cur.1 → s.cur.1 < 256 →
    ((s.tile k).owner = none → exec (.pqTake d) s = .next (s.trap 0x07 0 (BitVec.ofNat 64 k)))
    ∧ (∀ p, (s.tile k).owner = some id → s.takeable k = some p → ∃ u : State, u = s.mapParcel k p.slot (fun _ => { p with st := .taken s.agent })
      ∧ exec (.pqTake d) s = .next ((u.setSelf ((s.self.write d.val p.e).write e.val { p with st := .taken s.agent }.word)).finish (.pqTake d)))
    ∧ ((s.tile k).owner = some id → s.takeable k = none → s.workLeft id = true → exec (.pqTake d) s = .next (s.parkMe .parcel))
    ∧ ((s.tile k).owner = some id → s.takeable k = none → s.workLeft id = false → exec (.pqTake d) s = .next ((s.setSelf ((s.self.write d.val 0).write e.val 0)).finish (.pqTake d)))
    ∧ (∀ p, s.takeable k = some p → p ∈ (s.tile k).parcels ∧ p.st = .queued ∧ s.meets k p.p = true
      ∧ ∀ q ∈ (s.tile k).parcels, q.st = .queued → s.meets k q.p = true → p.order ≤ q.order))
  ∧ (∀ (s : State) (a : Reg) (t : Bool) (k : Nat) (v : Word), s.issues ⟨[(a, t)], [], [], []⟩ = true → v = s.val a → k = tileOf s.cur.1 →
    ((∀ j, ∀ q ∈ (s.tile j).parcels, q.st = .taken s.agent → q.slot = bits v.toNat 55 48 → q.index ≠ v.toNat % 2 ^ 24) →
      exec (.pqDone a t) s = .next (s.trap 0x01 0x0D (BitVec.ofNat 64 ((encode (.pqDone a t)).headD 0))))
    ∧ (∀ j p, s.mine v = some (j, p) → p ∈ (s.tile j).parcels ∧ p.st = .taken s.agent ∧ p.slot = bits v.toNat 55 48 ∧ p.index = v.toNat % 2 ^ 24
      ∧ ((∃ q ∈ (s.tile k).parcels, q.st = .taken s.agent ∧ q.slot = p.slot ∧ q.index = p.index) → j = k))
    ∧ (∀ j p, s.mine v = some (j, p) → p.borrowed = none → exec (.pqDone a t) s = .next (({ s.popAll [(a, t)] with
        tiles := (s.setTile j { s.tile j with parcels := (s.tile j).parcels.filter (fun (q : Parcel) => q.slot ≠ p.slot) }).tiles
        launches := s.launches.map (fun (l : Launch) => if l.id = p.launch then { l with done := l.done + 1 } else l) } : State).finish (.pqDone a t))))
  ∧ (∀ (s : State) (d : Reg) (k id : Nat) (c : List Parcel), s.issues ⟨[], [], [d], []⟩ = true → k = tileOf s.cur.1 → s.cur.1 < 256 → c = (s.tile k).parcels → (s.tile k).owner = some id →
    exec (.pqCnt d) s = .next (s.retire (.pqCnt d) ⟨[], [], [d], []⟩ d (BitVec.ofNat 64 ((c.filter (fun q => q.st == .queued)).length
      + (c.filter (fun (q : Parcel) => q.isTaken)).length * 2 ^ 16 + (256 - c.length) * 2 ^ 32))))
  ∧ (∀ (s w : State) (d a : Reg) (v k id n : Nat) (g : Group) (m : Member), s.issues ⟨[(a, false)], [], [d], []⟩ = true → w = s.popAll [(a, false)] → v = (s.val a).toNat → v < 2 ^ 45 → k = tileOf s.cur.1 → s.cur.1 < 256 →
    (s.tile k).owner = some id → s.group s.self.tenant (v % 2 ^ 32) = some g → g.member s.agent = some m → n = min 32 (256 - (s.tile k).parcels.length) →
    ((g.cubes = [] ∨ v / 2 ^ 32 = s.cube) → exec (.pqSteal d a) s = .next ((w.later d 6).finish (.pqSteal d a)))
    ∧ (g.cubes ≠ [] → v / 2 ^ 32 ≠ s.cube → n = 0 → exec (.pqSteal d a) s = .next ((w.later d 0).finish (.pqSteal d a)))
    ∧ (g.cubes ≠ [] → v / 2 ^ 32 ≠ s.cube → n ≠ 0 → ∃ u : State, exec (.pqSteal d a) s = .next ((u.sendTo (v / 2 ^ 32) 3 .stealRequest { EvArg.zero with a := s.cube, b := s.nid, c := n, d := k, e := g.handle, words := [BitVec.ofNat 64 s.self.tenant, BitVec.ofNat 64 s.self.job, BitVec.ofNat 64 (s.array k).rows, BitVec.ofNat 64 (s.array k).cols] }).finish (.pqSteal d a))
      ∧ u.ctxs = (w.producer d).2.ctxs ∧ u.mem = s.mem ∧ ∀ p, p ∈ (u.tile k).parcels → p ∈ (s.tile k).parcels ∨ p.st = .held s.nid)))
  ∧ ((∀ (s : State) (a b : Nat) (l : List Parcel), l = s.diffuse a b → l.length ≤ 256 - (s.tile b).parcels.length
    ∧ (∀ p ∈ l, p ∈ (s.tile a).parcels ∧ p.st = .queued ∧ p.migratable = true ∧ p.borrowed = none ∧ s.meets b p.p = true)
    ∧ (l.filter (fun p => s.meets a p.p)).length ≤ ((s.tile a).queuedCount - (s.tile b).queuedCount) / 4
    ∧ (l.length < 256 - (s.tile b).parcels.length → ∀ p ∈ (s.tile a).parcels, p.st = .queued → p.migratable = true → p.borrowed = none → s.meets b p.p = true → s.meets a p.p = false → p ∈ l))
  ∧ (∀ (p t b : Nat), t < 128 → (pairOf p t = some b ↔ b < 128 ∧ ((p % 4 < 2 ∧ b / 16 = t / 16 ∧ (if t % 16 % 2 = p % 2 then b = t + 1 else b + 1 = t))
      ∨ (2 ≤ p % 4 ∧ b % 16 = t % 16 ∧ (if t / 16 % 2 = p % 2 then b = t + 16 else b + 16 = t)))))
  ∧ (∀ s : State, (∀ t, t < 128 → (s.tile t).owner = none) → exec .diffusionPeriod s = .next { s with diffused := s.cycle / 256 + 1 })
  ∧ (∀ s : State, Answers .diffusionPeriod s (fun u => u = { s with tiles := u.tiles, moving := u.moving, diffused := s.cycle / 256 + 1 } ∧ (∃ l, u.moving = s.moving ++ l)
      ∧ ∀ t, ∀ p ∈ (u.tile t).parcels, p ∈ (s.tile t).parcels))
  ∧ (∀ (s : State) (t i : Nat) (p : Parcel) (r : List (Nat × Parcel)), s.moving = (t, p) :: r →
    (i < 256 → (∀ q ∈ (s.tile t).parcels, q.slot ≠ i) → (∀ j, j < i → ∃ q ∈ (s.tile t).parcels, q.slot = j) → exec .parcelArrival s = .next (({ s with moving := r, nid := s.nid + 1 } : State).setTile t
      { s.tile t with parcels := (s.tile t).parcels ++ [{ p with slot := i, st := .queued, order := s.nid, since := s.cycle }] }))
    ∧ ((∀ i, i < 256 → ∃ q ∈ (s.tile t).parcels, q.slot = i) → exec .parcelArrival s = .next { s with moving := r ++ [(t, p)] }))
  ∧ (∀ (s u : State) (l : Launch) (t : Nat), s.arg.b = 0 → s.launch s.arg.a = some l → l.moved = [] → l.next < l.count → s.feedTile l.id (l.parcelP l.next) = some t →
      s.enqueue t (s.parcelOf l.id l.argument (l.parcelP l.next)) = some u →
      exec .backlogFeed s = .next (({ u with launches := u.launches.map (fun (m : Launch) => if m.id = l.id then { m with next := m.next + 1 } else m) }).evaluate l.id 0x7F))
  ∧ (∀ (s : State) (id t : Nat) (p : Word), s.feedTile id p = some t → (s.tile t).owner = some id ∧ s.meets t p = true ∧ 0 < (s.tile t).freeSlots
      ∧ ∀ u, u < 128 → (s.tile u).owner = some id → s.meets u p = true → (s.tile u).freeSlots ≤ (s.tile t).freeSlots ∧ ((s.tile u).freeSlots = (s.tile t).freeSlots → t ≤ u))
  ∧ (∀ (l : Launch) (i : Nat) (p : Nat), i < 2 ^ 24 → p = (l.parcelP i).toNat → p % 2 ^ 24 = i ∧ bits p 29 27 = bits (l.dword 3) 51 49 ∧ bits p 26 24 = bits (l.dword 3) 48 46
      ∧ bitAt p 31 = bitAt (l.dword 3) 45 ∧ bitAt p 30 = bitAt (l.dword 3) 44))

/-- R158 to R160, R170, R171, R173: validation, prerequisites, admission and commit of a launch, step by step.
R170, R175, R176, R454: completion: the release and the signal to dependants, then the record of 64 bytes; an abandoned record raises RECORD-FAULT, and the launch leaves the unit all the same.
Completes: launchMessage, prerequisitesMet, admissionScan, reservationBackoffExpiry, headOfLine, clusterCommit, launchCompletion. -/
def Obligations.Launches : Prop :=
  ((∀ (s : State) (t : Nat) (lpb : List Nat) (sl : Option (Nat × Nat)) (c w h : Nat), c = lpb.getD 3 0 → w = bits c 36 32 → h = bits c 40 37 →
    ∃ m : Launch, (s.accept t lpb sl) = { s with nid := s.nid + 1, launches := s.launches ++ [m] } ∧ m.tenant = t ∧ m.lid = lpb.getD 0 0 / 2 ^ 32 ∧ m.job = lpb.getD 0 0 % 2 ^ 24 ∧ m.lpb = lpb ∧ m.slot = sl
      ∧ (∀ bad : Prop, (bad ↔ lpb.getD 0 0 / 2 ^ 32 = 0 ∨ bits (lpb.getD 0 0) 31 24 ≠ 0 ∨ lpb.getD 1 0 % 4 ≠ 0 ∨ bits c 63 59 ≠ 0 ∨ bits c 55 54 = 0 ∨ 6 ≤ bits c 51 49 ∨ 6 ≤ bits c 48 46 ∨ h = 0 ∨ 8 < h ∨ w = 0 ∨ 16 < w
          ∨ bits (lpb.getD 6 0) 63 34 ≠ 0 ∨ lpb.getD 7 0 % 64 ≠ 0 ∨ (m.lid ∈ [lpb.getD 4 0 % 2 ^ 32, lpb.getD 4 0 / 2 ^ 32, lpb.getD 5 0 % 2 ^ 32, lpb.getD 5 0 / 2 ^ 32] ∧ m.lid ≠ 0) ∨ s.granted t < w * h
          ∨ ∃ n ∈ s.launches, n.tenant = t ∧ n.lid = m.lid ∧ n.active = true) →
        (s.cancelled t m.job = true → m.st = .rejected ∧ m.status = 5) ∧ (s.cancelled t m.job = false → bad → m.st = .rejected ∧ m.status = 3)
        ∧ (s.cancelled t m.job = false → ¬ bad → 2 ^ 24 ≤ c % 2 ^ 32 → m.st = .rejected ∧ m.status = 1)
        ∧ (s.cancelled t m.job = false → ¬ bad → c % 2 ^ 32 < 2 ^ 24 → m.st = .waiting)))
  ∧ (∀ (s : State) (p : Packet) (va : Nat), s.net.find? (fun q => q.id == s.arg.a) = some p → va = ((s.messageWords p).getD 1 0).toNat →
    (s.cancelled p.tenant p.job = true → exec .launchMessage s = .next (s.settlePacket p 4))
    ∧ (s.cancelled p.tenant p.job = false → s.bufferFull p.tenant = true → exec .launchMessage s = .next (s.settlePacket p 1))
    ∧ (s.cancelled p.tenant p.job = false → s.bufferFull p.tenant = false → ∀ pa attr b u, s.xlate p.tenant va false false = .ok pa attr → s.unitRead 0 pa 64 = some ((b, false), u) →
      exec .launchMessage s = .next ((u.accept p.tenant ((List.range 8).map (fun i => ofBytes ((b.drop (8 * i)).take 8))) none).settlePacket p 0)))
  ∧ (∀ (s : State) (l : Launch), s.launch s.arg.a = some l → l.st = .waiting →
    ((∃ p ∈ l.prereqs, ∃ k, s.prereq l.tenant p = some k ∧ k ≠ 0 ∧ k ≠ 4) → exec .prerequisitesMet s = .next (s.mapLaunch l.id (fun m => { m with st := .failed, status := 2 })))
    ∧ ((∀ p ∈ l.prereqs, s.prereq l.tenant p = some 0 ∨ s.prereq l.tenant p = some 4) →
      exec .prerequisitesMet s = .next (s.mapLaunch l.id (fun m => if l.count = 0 then { m with st := .completing } else { m with st := .placing, placing := s.time }))))
  ∧ (∀ (s : State) (l : Launch), s.launch s.arg.a = some l → l.st = .placing →
    (l.engine = false → s.engines < 4 → (∀ m ∈ s.launches, m.head = true → m.st = .placing → m.id ≠ l.id → l.width * l.height < m.width * m.height → l.prio < m.prio) →
      exec .admissionScan s = .next (s.mapLaunch l.id (fun m => { m with engine := true, cand := s.rotate % ((17 - m.width) * (9 - m.height)), left := (17 - m.width) * (9 - m.height), tiles := [] })))
    ∧ (l.engine = true → l.backoff = none → 0 < l.left → l.tiles.length < l.width * l.height →
      (l.tiles = [] → (∃ t ∈ l.rectAt l.cand, s.tileOpen l.tenant t = false) →
        exec .admissionScan s = .next (s.mapLaunch l.id (fun m => { m with cand := (m.cand + 1) % m.candidates, left := m.left - 1, tiles := [] })))
      ∧ ((l.tiles ≠ [] ∨ ∀ t ∈ l.rectAt l.cand, s.tileOpen l.tenant t = true) → ∀ t, t = (l.rectAt l.cand).getD l.tiles.length 0 →
        ((s.tile t).owner = none → (s.tile t).reserved = none → exec .admissionScan s = .next ((s.setTile t { s.tile t with reserved := some l.id }).mapLaunch l.id (fun m => { m with tiles := m.tiles ++ [t] })))
        ∧ (((s.tile t).owner ≠ none ∨ (s.tile t).reserved ≠ none) → Answers .admissionScan s (fun u => (∀ q ∈ l.tiles, (u.tile q).reserved = none) ∧ (∀ q, q ∉ l.tiles → u.tile q = s.tile q)
          ∧ u.launches = s.launches.map (fun (m : Launch) => if m.id = l.id then { m with tiles := [], conflicts := m.conflicts + 1, backoff := some (s.cycle + (min (256 * 2 ^ l.conflicts) 65536 + l.job % 256)) } else m))))))
  ∧ (∀ s : State, exec .reservationBackoffExpiry s = .next (s.mapLaunch s.arg.a (fun m => if m.backoff.any (fun c => decide (c ≤ s.cycle))
      then { m with cand := (m.cand + 1) % m.candidates, left := m.candidates, tiles := [], backoff := none } else m))
    ∧ exec .headOfLine s = .next (s.mapLaunch s.arg.a (fun m => if m.st = .placing ∧ m.placing + 1000000 ≤ s.time then { m with head := true } else m)))
  ∧ (∀ (s : State) (l : Launch) (ts : List Nat), s.arg.b ≠ 1 → s.launch s.arg.a = some l → l.reservedAll = true → ts = l.tiles → ts.Nodup →
    ∃ u : State, exec .clusterCommit s = .next (u.evaluate l.id 0x7F) ∧ u.rotate = s.rotate + 1
      ∧ (∀ t ∈ ts, (u.tile t).owner = some l.id ∧ (u.tile t).reserved = none ∧ (u.tile t).last = some l.tenant ∧ (u.tile t).scrubbed = false)
      ∧ (∀ t, t ∉ ts → u.tile t = s.tile t)
      ∧ (∀ j, j < ts.length → (u.tile (ts.getD j 0)).parcels.map (fun p => (p.slot, p.index))
        = ((List.range 256).filter (fun q => decide (q * ts.length + j < min l.count (256 * ts.length)))).map (fun q => (q, (q * ts.length + j) % 2 ^ 24)))))
  ∧ ((∀ (s : State) (l : Launch), s.launch s.arg.a = some l → l.active = true → l.st = .completing → l.phase = 1 → l.guard = .none →
    (s.launchWrites l.id = true → exec .launchCompletion s = .next s)
    ∧ (s.launchWrites l.id = false → Answers .launchCompletion s (fun u => ∃ m, m = { l with status := if l.status = 0 ∧ l.lost then 4 else l.status, phase := 2, guard := .none }
      ∧ u.launches = s.launches.map (fun (q : Launch) => if q.id = l.id then m else q) ∧ u.history.head? = some ⟨l.tenant, l.lid, l.job, m.status⟩ ∧ (u.history.filter (fun h => h.tenant == l.tenant)).length ≤ 4096)))
  ∧ (∀ (s : State) (l : Launch), s.launch s.arg.a = some l → l.active = true → s.finished l = true → l.phase = 0 → l.status = 0 → l.scope = 0 → l.guard = .none → s.cluster l.id = [] →
      exec .launchCompletion s = .next (s.mapLaunch l.id (fun m => { m with st := .completing, phase := 1 })))
  ∧ (∀ (s : State) (l : Launch), s.launch s.arg.a = some l → (l.st = .rejected ∨ l.st = .failed) → l.phase = 0 → Answers .launchCompletion s (fun u =>
      u.launches = s.launches.map (fun (m : Launch) => if m.id = l.id then { m with phase := 2 } else m)
      ∧ (l.dup = true → u.history = s.history) ∧ (l.dup = false → u.history.head? = some ⟨l.tenant, l.lid, l.job, l.status⟩)))
  ∧ (∀ (s : State) (l : Launch), s.launch s.arg.a = some l → ((l.st = .rejected ∨ l.st = .failed) ∧ l.phase ≠ 0 ∨ l.st = .completing ∧ 2 ≤ l.phase) →
    (∀ pa attr u, s.xlate l.tenant l.record false true = .ok pa attr → s.unitWrite ⟨l.tenant, 0⟩ pa attr (s.recordBytes l) false = some u → exec .launchCompletion s = .next (u.launchDone l))
    ∧ (∀ c v, s.xlate l.tenant l.record false true = .fault c v → exec .launchCompletion s = .next ((s.raise l.origin (StewEvent.msg l.tenant 0x05 l.lid 0 0)).launchDone l)))
  ∧ (∀ (s : State) (l : Launch) (b : List Byte), b = s.recordBytes l → l.lid < 2 ^ 32 → l.status < 256 → l.job < 2 ^ 24 → l.admitAt < 2 ^ 64 → s.time < 2 ^ 64 → l.done < 2 ^ 64 → l.x < 16 → l.y < 16 →
      b.length = 64 ∧ ofBytes (b.take 8) = l.status + l.lid * 2 ^ 32 ∧ ofBytes ((b.drop 8).take 8) = l.job ∧ ofBytes ((b.drop 16).take 8) = l.admitAt ∧ ofBytes ((b.drop 24).take 8) = s.time
      ∧ ofBytes ((b.drop 32).take 8) = l.done ∧ ofBytes ((b.drop 40).take 8) = (if l.placed then l.x + l.y * 256 else 0) ∧ ofBytes (b.drop 48) = 0)
  ∧ (∀ (s : State) (l : Launch), l.placed = false → s.launchDone l = { s with
      launches := s.launches.filter (fun (m : Launch) => m.id ≠ l.id)
      outbox := (match l.slot with | some (t, v) => ⟨.launchCompletion, { EvArg.zero with a := t, b := v, c := l.lid }⟩ :: s.outbox | none => s.outbox) }))

/-- R259, R260, R394, R395, R402: a write placed at its home puts its bytes there and touches no byte outside its sector; while another launch holds the line it is not placed; a guarded launch's first write to a line puts the line's old bytes into a guard record. A read by an agent of another launch gets the confirmed bytes of a held line, with the errors that they had.
R260, R402: a thread that has waited 1 ms on a held line traps GUARD at its instruction; a journal stall of 1 ms abandons the draining interval with most records: its checkpoint records go, on every vault, and a full checkpoint is needed.
Completes: guardWaitTimeout, journalStallTimeout. -/
def Obligations.HomeAccesses : Prop :=
  ((∀ (s u : State) (w : HomeWrite) (b : Nat), b = w.la / 16 * 16 → (∀ p ∈ w.bytes, p.1 < 16) → (w.bytes.map (·.1)).Nodup → s.placeWrite w = some u →
    MemBut b 16 s u ∧ (∀ p ∈ w.bytes, Memory.byte u.mem (b + p.1) = p.2) ∧ u.ctxs = s.ctxs ∧ u.reqs = s.reqs
    ∧ (∀ r, s.heldRec w.line = some r → r.launch = w.launch)
    ∧ (s.guarding w.launch = true → attrG w.attr = true → s.heldRec w.line = none → s.jguards (s.place w.la).vault < s.jguard (s.place w.la).vault →
      ∃ r ∈ u.journal, r.guard = true ∧ r.line = w.line ∧ r.launch = w.launch ∧ r.old = Memory.read s.mem (w.la / 128 * 128) 128))
  ∧ (∀ (s : State) (w : HomeWrite) (r : JRec), s.heldRec w.line = some r → r.launch ≠ w.launch → s.placeWrite w = none)
  ∧ (∀ (s : State) (line la id : Nat), ((s.readSector line la id).2).mem = s.mem
    ∧ (∀ r, s.heldRec line = some r → r.launch ≠ id → (s.readSector line la id).1 = ((r.old.drop (la % 128 / 16 * 16)).take 16, bitAt r.bad (la % 128 / 16)))
    ∧ ((s.heldRec line = none ∨ ∃ r, s.heldRec line = some r ∧ r.launch = id) → smGet 0 s.ecc (la / 16) = 0 → (s.readSector line la id).1 = (Memory.read s.mem (la / 16 * 16) 16, false))))
  ∧ ((∀ (s : State) (line va : Nat), (s.ctx s.arg.a).park = some (.guard line va) →
    exec .guardWaitTimeout s = .next (takeTrapAt s (s.arg.a / 16) (s.arg.a % 16) 0x14 0 (BitVec.ofNat 64 va) (s.ctx s.arg.a).pc 0 false))
  ∧ (∀ (s : State) (t n : Nat), s.largestDrain s.arg.a = some (t, n) → Answers .journalStallTimeout s (fun u => u.mem = s.mem ∧ u.ctxs = s.ctxs ∧ u.journal = s.journal.filter (fun (r : JRec) => r.guard || r.tenant != t)
      ∧ (∀ v, v < 64 → ((s.ival (ivalKey t v)).st = .draining ∨ (s.ival (ivalKey t v)).st = .recording) → (u.ival (ivalKey t v)).st = .needsFull)
      ∧ ∀ k, (∀ v, v < 64 → k ≠ ivalKey t v) → u.ival k = s.ival k))
  ∧ (∀ (s : State) (v t n : Nat), s.largestDrain v = some (t, n) → t < 16 ∧ (s.ival (ivalKey t v)).st = .draining
      ∧ n = (s.journal.filter (fun r => r.vault == v && !r.guard && r.tenant == t)).length
      ∧ ∀ u, u < 16 → (s.ival (ivalKey u v)).st = .draining → (s.journal.filter (fun r => r.vault == v && !r.guard && r.tenant == u)).length ≤ n))

/-- R9, R62, R77, R212, R234, R239, R260, R394, R402, R422, R427: the events that finish requests: a known result is written into its register or its reserved queue entry, poisoned or not; a load or an atomic is performed at its home; a write is placed, or starts to wait; an acknowledgement ends a remote write, and a refusal of a thread's write is kept for its trap; MOVED sends a request again; a buffer line unwritten for 4,096 cycles is written out, sector by sector.
R260, R422, R427: a request of another cube joins those that have arrived; one that is served here is taken from them, read, placed or performed at its home and answered, or answered MOVED when its home is another cube; one that has to wait stays, and a command's write that has waited 1 ms at a held line is answered with GUARD.
Completes: producerCompletion, combiningWriteOut, writePlacement, remoteRequest, moved, remoteWriteAcknowledgement. -/
def Obligations.Requests : Prop :=
  ((∀ (s : State) (q : Req), s.req s.arg.a = some q → q.denied = false → q.sampled = true → q.acq = 0 →
    (∀ d w k, q.dest = .reg d w → s.ctxOfAgent q.agent = some k →
      exec .producerCompletion s = .next (({ s with reqs := s.reqs.filter (fun (r : Req) => r.id ≠ q.id) } : State).setCtx k ((s.ctx k).setCell d.val ⟨w.word (ofBytes q.data), .full, q.poison⟩)))
    ∧ (∀ d k, q.dest = .pair d → s.ctxOfAgent q.agent = some k → (s.setCtx k ((s.ctx k).setCell d.val ⟨BitVec.ofNat 64 (ofBytes q.data), .full, q.poison⟩)).ctxOfAgent q.agent = some k → Answers .producerCompletion s (fun u => u.mem = s.mem ∧ (∀ j, j ≠ k → u.ctx j = s.ctx j)
      ∧ (u.ctx k).cell (d.val + 1) = ⟨BitVec.ofNat 64 (ofBytes (q.data.drop 8)), .full, q.poison⟩ ∧ ∀ r, r ≠ d.val → r ≠ d.val + 1 → (u.ctx k).cell r = (s.ctx k).cell r))
    ∧ (∀ k w, q.dest = .queue false k w → exec .producerCompletion s = .next (({ s with reqs := s.reqs.filter (fun (r : Req) => r.id ≠ q.id) } : State).setPinQ k
        ((s.pinQ k).map (fun (e : QEnt) => if e.id = q.id ∧ e.filled = false then ⟨q.id, true, w.word (ofBytes q.data), q.poison⟩ else e)))))
  ∧ (∀ (s : State) (q : Req) (la : Nat), s.req s.arg.a = some q → s.arg.b = 0 → q.denied = false → q.sampled = false → q.sent = false → s.isRemote q.pa = false → la = s.localAddr q.pa →
    (q.kind = .load → q.mask = [] → ∀ b bad u, s.readHome q.pa la q.size q.launch = ((b, bad), u) → exec .producerCompletion s = .next (u.deliver { q with remote := false } b bad))
    ∧ (∀ op, q.kind = .amo op → (s.heldByOther (q.pa / 128) q.launch = true → exec .producerCompletion s = .next s)
      ∧ (s.heldByOther (q.pa / 128) q.launch = false → ∀ b u, s.readHome q.pa la q.size q.launch = ((b, false), u) → u.lineBad la = 0 →
        (amoNew op q.size (ofBytes b) (ofBytes (q.data.take q.size)) (ofBytes (q.data.drop q.size)) = none → exec .producerCompletion s = .next ((u.passed { q with remote := false }).deliver { q with remote := false } b false))
        ∧ (∀ x v, amoNew op q.size (ofBytes b) (ofBytes (q.data.take q.size)) (ofBytes (q.data.drop q.size)) = some x →
          u.placeWrite { line := q.pa / 128, la := la, bytes := (List.range q.size).map (fun o => (q.pa % 16 + o, (toBytes x q.size).getD o 0)), bad := false, tenant := q.tenant, attr := q.attr, launch := q.launch } = some v →
          exec .producerCompletion s = .next ((v.passed { q with remote := false }).deliver { q with remote := false } b false)))))
  ∧ (∀ (s : State) (q : Req) (w : HomeWrite), s.arg.b ≠ 1 → s.req s.arg.a = some q → (q.kind = .store ∨ q.kind = .writeBack) → q.sent = false → s.isRemote q.pa = false →
    w = { line := q.pa / 128, la := s.localAddr q.pa, bytes := q.mask.map (fun o => (q.pa % 16 + o, q.data.getD o 0)), bad := q.poison, tenant := attrTenant q.attr, attr := q.attr, launch := q.launch } →
    (∀ u, s.placeWrite w = some u → Answers .writePlacement s (fun v => v.mem = u.mem ∧ v.ctxs = s.ctxs ∧ v.reqs = s.reqs.filter (fun (r : Req) => r.id ≠ q.id)))
    ∧ (s.placeWrite w = none → exec .writePlacement s = .next (if q.since = 0 then { s with reqs := s.reqs.map (fun (r : Req) => if r.id = q.id then { r with since := s.time + 1 } else r) } else s)))
  ∧ (∀ (s : State) (q : Req), s.req s.arg.a = some q →
    ((s.arg.c = 0 ∨ 2 ^ 50 ≤ q.agent) → Answers .remoteWriteAcknowledgement s (fun u => u.reqs = s.reqs.filter (fun (r : Req) => r.id ≠ q.id) ∧ u.mem = s.mem ∧ u.ctxs = s.ctxs))
    ∧ (s.arg.c ≠ 0 → q.agent < 2 ^ 50 → exec .remoteWriteAcknowledgement s = .next { s with reqs := s.reqs.map (fun (r : Req) => if r.id = q.id then { r with sampled := true, denied := true } else r) })
    ∧ (s.arg.b = s.cube → exec .moved s = .next { s with reqs := s.reqs.map (fun (r : Req) => if r.id = q.id then { r with remote := false, sent := false } else r) })
    ∧ (s.arg.b ≠ s.cube → exec .moved s = .next (s.sendRemoteTo q s.arg.b)))
  ∧ (∀ (s : State) (l : NtLine), (s.nt.filter (fun m => m.core == s.arg.a)).find? (fun m => decide (m.when_ + 4096 ≤ s.cycle)) = some l → Answers .combiningWriteOut s (fun u => u.nt = s.nt.filter (fun (m : NtLine) => m ≠ l) ∧ u.ctxs = s.ctxs
      ∧ ∀ i, i < 8 → (∃ b ∈ l.bytes, b.1 / 16 = i) → ∃ q ∈ u.reqs, q.kind = .store ∧ q.pa = l.line * 128 + 16 * i ∧ q.size = 16 ∧ q.agent = l.agent ∧ q.mask = (l.bytes.filter (fun b => b.1 / 16 == i)).map (fun b => b.1 % 16))))
  ∧ ((∀ (s : State) (q : Nat), s.arg.peer = some q → Answers .remoteRequest s (fun u => u = { s with arrivals := u.arrivals } ∧ ∃ r, u.arrivals = s.arrivals ++ [r] ∧ r.far = [BitVec.ofNat 64 s.time] ∧ r.peer = some q ∧ r.a = s.arg.a ∧ r.c = s.arg.c ∧ r.w = s.arg.w ∧ r.bytes = s.arg.bytes))
  ∧ (∀ (s t : State) (g : EvArg) (p : Nat), s.arg.peer = none → s.arrivals[s.arg.a]? = some g → g.peer = some p → t = { s with arrivals := s.arrivals.eraseIdx s.arg.a } →
    ((g.c = 1 ∨ 16 ≤ g.c ∧ g.c < 32) → (g.words.getD 4 0) ≠ 0 → (s.heldBy (g.w.toNat / 128)).isSome = true → (∃ x, g.far = [x] ∧ x.toNat + 1000000 ≤ s.time) →
      exec .remoteRequest s = .next (t.sendTo p 2 .remoteWriteAcknowledgement { EvArg.zero with a := g.a, c := 0x0B }))
    ∧ ((g.words.getD 4 0) = 0 → g.c < 32 → s.frozenAt g.w.toNat = true → exec .remoteRequest s = .next s)
    ∧ ((g.words.getD 4 0) = 0 → g.c < 32 → s.frozenAt g.w.toNat = false →
      (s.home g.w.toNat = none → exec .remoteRequest s = .next s)
      ∧ (∀ c l, s.home g.w.toNat = some (c, l) →
        (c ≠ s.cube → exec .remoteRequest s = .next (t.sendTo p 3 .moved { EvArg.zero with a := g.a, b := c, c := s.mapgen }))
        ∧ (c = s.cube → g.c = 3 → ∀ b bad u, t.readSector (g.w.toNat / 128) (t.localAddr g.w.toNat) 0 = ((b, bad), u) →
          exec .remoteRequest s = .next (u.sendTo p 0 .producerCompletion { EvArg.zero with a := g.a, b := 1, c := bad.toNat, w := g.w, bytes := b }))
        ∧ (c = s.cube → g.c = 1 → g.bytes.length = 16 → (g.words.getD 3 0) = 0xFFFF → g.w.toNat % 16 = 0 →
          (∀ r, s.heldRec (g.w.toNat / 128) = some r → r.launch ≠ 0 → exec .remoteRequest s = .next s)
          ∧ (∀ u, s.heldRec (g.w.toNat / 128) = none → s.localAddr g.w.toNat % 16 = 0 → exec .remoteRequest s = .next u → u ≠ s → MemBut (s.localAddr g.w.toNat) 16 s u ∧ Memory.read u.mem (s.localAddr g.w.toNat) 16 = g.bytes))))))

/-- R220, R221, R223, R224, R366, R367: the walk of the five levels, its faults, and the end of a walk: a leaf goes into the translation caches that the walk answers, a fault to the contexts that wait for it, and a stale walk is made again.
R367: `tlb.inv` removes the tenant's entries of the page, or all of them, from every translation cache, and waits until every access made through them is performed; a broken operand traps ILLEGAL, user mode PRIV.
Completes: tlbInv, pageWalk. -/
def Obligations.Translation : Prop :=
  ((∀ (s : State) (t va : Nat) (far : List (Nat × Nat)), (s.tenant t).xroot = 0 → s.walk t va far = .fault 1)
  ∧ (∀ (s : State) (va t n lv : Nat), 1 ≤ lv → lv ≤ 5 → 6 ≤ n + lv → ∀ ix, ix = (match lv with | 1 => bits va 55 48 | 2 => bits va 47 39 | 3 => bits va 38 30 | 4 => bits va 29 21 | _ => bits va 20 16) →
    (s.readEntry (t + 8 * ix) = .noRegion → walkFrom s va n lv t [] = .fault 3)
    ∧ (∀ e, s.readEntry (t + 8 * ix) = .val e →
      (e % 2 = 0 → walkFrom s va n lv t [] = .fault 1)
      ∧ (e % 2 = 1 → (2 ^ 52 ≤ e ∨ bits e 11 9 ≠ 0) → walkFrom s va n lv t [] = .fault 2)
      ∧ (e % 2 = 1 → e < 2 ^ 52 → bits e 11 9 = 0 → bitAt e 1 = true →
        (lv < 3 → walkFrom s va n lv t [] = .fault 2)
        ∧ (3 ≤ lv → ∀ z, z = (if lv = 3 then 2 ^ 30 else if lv = 4 then 2 ^ 21 else 2 ^ 16) →
          (bits e 51 16 * 65536 % z ≠ 0 → walkFrom s va n lv t [] = .fault 2) ∧ (bits e 51 16 * 65536 % z = 0 → walkFrom s va n lv t [] = .leaf (bits e 51 16 * 65536 + va % z) z (e % 65536))))
      ∧ (e % 2 = 1 → e < 2 ^ 52 → bits e 11 9 = 0 → bitAt e 1 = false →
        ((bits e 8 2 ≠ 0 ∨ lv = 5) → walkFrom s va n lv t [] = .fault 2)
        ∧ (bits e 8 2 = 0 → lv < 5 → walkFrom s va n lv t [] = walkFrom s va (n - 1) (lv + 1) (bits e 51 12 * 4096) []))))
  ∧ (∀ (s : State) (w : Walk), s.walks.find? (fun q => q.tenant == s.arg.a && q.va / 65536 == s.arg.b) = some w →
    (∀ sub, s.walk w.tenant w.va (farPairs s.arg.words) = .fault sub → (w.hit 65536 = true → Answers .pageWalk s (fun u => u = { s with walks := u.walks } ∧ ({ w with stale := [], asked := false } ∈ u.walks)))
      ∧ (w.hit 65536 = false → Answers .pageWalk s (fun u => u.walks = s.walks.filter (fun (q : Walk) => q ≠ w) ∧ u.mem = s.mem ∧ u.tlbs = s.tlbs
        ∧ (∀ k ∈ w.waiters, (s.ctx k).park = some (.walk w.tenant (w.va / 65536)) → (u.ctx k).xfault = some (w.va / 65536, sub)) ∧ ∀ k, k ∉ w.waiters → u.ctx k = s.ctx k)))
    ∧ (∀ pa size attr, s.walk w.tenant w.va (farPairs s.arg.words) = .leaf pa size attr → (w.hit size = true → Answers .pageWalk s (fun u => u = { s with walks := u.walks } ∧ ({ w with stale := [], asked := false } ∈ u.walks)))
      ∧ (w.hit size = false → s.walks = [w] → Answers .pageWalk s (fun u => u.walks = [] ∧ u.mem = s.mem ∧ u.ctxs = s.ctxs
        ∧ (∀ c, c ∉ w.tlbs → u.tlb c = s.tlb c) ∧ ∀ c ∈ w.tlbs, ∃ e ∈ u.tlb c, e.tenant = w.tenant ∧ e.page = w.va / size * size ∧ e.size = size ∧ e.pa = pa / size * size ∧ e.attr = attr)))))
  ∧ (∀ (s : State) (a : Reg) (t : Bool) (w : Nat) (gone : TlbEntry → Bool), s.issues ⟨[(a, t)], [], [], []⟩ = true → w = (s.val a).toNat →
    gone = (fun e => e.tenant == s.self.tenant && (decide (2 ^ 63 ≤ w) || (decide (e.page ≤ w) && decide (w < e.page + e.size)))) →
    ((w / 2 ^ 56 % 128 ≠ 0 ∨ w % 2 ^ 16 ≠ 0 ∨ (2 ^ 63 ≤ w ∧ w % 2 ^ 56 ≠ 0)) → (a.val < 60 ∨ s.self.priv ≠ .user) → exec (.tlbInv a t) s = .next (s.trap 0x01 0x0D (BitVec.ofNat 64 ((encode (.tlbInv a t)).headD 0))))
    ∧ (w / 2 ^ 56 % 128 = 0 → w % 2 ^ 16 = 0 → (2 ^ 63 ≤ w → w % 2 ^ 56 = 0) →
      (s.self.priv = .user → exec (.tlbInv a t) s = .next (s.trap 0x02 0 (BitVec.ofNat 64 ((encode (.tlbInv a t)).headD 0))))
      ∧ (s.self.priv ≠ .user → s.self.memo = [1] → exec (.tlbInv a t) s = .next ((s.popAll [(a, t)]).finish (.tlbInv a t)))
      ∧ (s.self.priv ≠ .user → s.self.memo ≠ [1] → ∃ v : State, (∀ c, v.tlb c = (s.tlb c).filter (fun e => !gone e)) ∧ v.mem = s.mem ∧ v.ctxs = s.ctxs
          ∧ (∀ q ∈ v.walks, q.tenant = s.self.tenant → ∀ z, (2 ^ 63 ≤ w ∨ q.va / z = w / z) → q.hit z = true)
          ∧ (exec (.tlbInv a t) s = .next ((v.popAll [(a, t)]).finish (.tlbInv a t)) ∨ ∃ ids, ids ≠ [] ∧ exec (.tlbInv a t) s = .next (v.waitFor ids)))
      ∧ (s.self.priv ≠ .user → s.self.memo ≠ [1] → s.reqs = [] → s.nt = [] → (∀ k, (s.tile k).lines = []) → ∃ v : State, v = { s with tlbs := v.tlbs, walks := v.walks }
          ∧ (∀ c, v.tlb c = (s.tlb c).filter (fun e => !gone e)) ∧ exec (.tlbInv a t) s = .next ((v.popAll [(a, t)]).finish (.tlbInv a t)))))

/-- R177, R178, R189 to R194, R196, R198: the values of the vector instructions that write a vector register, element by element: w is the element width, and an element reads as the integer of its type. -/
def Obligations.VectorElements : Prop :=
  ∀ (b : VBank) (v a c : VReg) (y : VTy) (p : PReg) (ss : List Word) (m w : Nat) (e g : Nat → Nat), w = vwidth y → e = b.lane a w → g = b.lane c w →
  (∀ r ∈ ([
    (.vaddInt v a c y p, fun i => vint y (e i) + vint y (g i)), (.vsubInt v a c y p, fun i => vint y (e i) - vint y (g i)), (.vmulInt v a c y p, fun i => vint y (e i) * vint y (g i)),
    (.vminInt v a c y p, fun i => if vint y (e i) ≤ vint y (g i) then vint y (e i) else vint y (g i)), (.vmaxInt v a c y p, fun i => if vint y (e i) ≤ vint y (g i) then vint y (g i) else vint y (e i)),
    (.vabsInt v a y p, fun i => if vint y (e i) < 0 then -vint y (e i) else vint y (e i)), (.vnegInt v a y p, fun i => -vint y (e i)),
    (.vand v a c y p, fun i => ((e i &&& g i : Nat) : Int)), (.vor v a c y p, fun i => ((e i ||| g i : Nat) : Int)), (.vxor v a c y p, fun i => ((e i ^^^ g i : Nat) : Int)),
    (.vandn v a c y p, fun i => ((e i &&& (2 ^ w - 1 - g i) : Nat) : Int)), (.vshl v a c y p, fun i => ((e i * 2 ^ (g i % w) : Nat) : Int)), (.vshr v a c y p, fun i => ((e i / 2 ^ (g i % w) : Nat) : Int)),
    (.vsra v a c y p, fun i => sextInt (e i) w / 2 ^ (g i % w)),
    (.vperm v a c y p, fun i => ((e (g i % vlanes y) : Nat) : Int)),
    (.vslide v a c y p, fun i => if 0 ≤ (i : Int) + sextInt (g 0) w ∧ (i : Int) + sextInt (g 0) w < vlanes y then ((e ((i : Int) + sextInt (g 0) w).toNat : Nat) : Int) else 0),
    (.vzip v a c y p, fun i => if i % 2 = 0 then ((e (i / 2) : Nat) : Int) else ((g (i / 2) : Nat) : Int)),
    (.vunzip v a c y p, fun i => if 2 * i < vlanes y then ((e (2 * i) : Nat) : Int) else ((g (2 * i - vlanes y) : Nat) : Int))] : List (Instr × (Nat → Int))),
    (vecEval r.1 b ss m).merges b v y p (fun i => ⟨(r.2 i % 2 ^ w).toNat, 0⟩))
  ∧ (∀ r ∈ ([
    (.vaddFp v a c y p, fun i => fpAdd (vfmt y) m (e i) (g i)), (.vsubFp v a c y p, fun i => fpSub (vfmt y) m (e i) (g i)), (.vmulFp v a c y p, fun i => fpMul (vfmt y) m (e i) (g i)),
    (.vfma v a c y p, fun i => fpFma (vfmt y) m (e i) (g i) (b.lane v w i)), (.vfms v a c y p, fun i => fpFms (vfmt y) m (e i) (g i) (b.lane v w i)), (.vfnma v a c y p, fun i => fpFnma (vfmt y) m (e i) (g i) (b.lane v w i)),
    (.vdiv v a c y p, fun i => fpDiv (vfmt y) m (e i) (g i)), (.vsqrt v a y p, fun i => fpSqrt (vfmt y) m (e i)),
    (.vminFp v a c y p, fun i => fpMinMax (vfmt y) false (e i) (g i)), (.vmaxFp v a c y p, fun i => fpMinMax (vfmt y) true (e i) (g i)),
    (.vabsFp v a y p, fun i => fpAbs (vfmt y) (e i)), (.vnegFp v a y p, fun i => fpNeg (vfmt y) (e i)), (.vclass v a y p, fun i => ⟨fpClass (vfmt y) (e i), 0⟩)] : List (Instr × (Nat → FRes))),
    (vecEval r.1 b ss m).merges b v y p r.2)
  ∧ (vecEval (.vdot v a c p) b ss m).merges b v .i32 p (fun i => ⟨(((b.lane v 32 i : Int) + vint .i8 (b.lane a 8 (4 * i)) * vint .i8 (b.lane c 8 (4 * i)) + vint .i8 (b.lane a 8 (4 * i + 1)) * vint .i8 (b.lane c 8 (4 * i + 1))
      + vint .i8 (b.lane a 8 (4 * i + 2)) * vint .i8 (b.lane c 8 (4 * i + 2)) + vint .i8 (b.lane a 8 (4 * i + 3)) * vint .i8 (b.lane c 8 (4 * i + 3))) % 2 ^ 32).toNat, 0⟩)
  ∧ (∀ i, i < vlanes y → (vecEval (.vsel v a c y p) b ss m).lane w i = if bitAt (b.pred p) i then e i else g i)
  ∧ (∀ x : SReg, (vecEval (.vbcast v x y p) b ss m).merges b v y p (fun _ => ⟨(ss.getD 0 0).toNat, 0⟩))
  ∧ (∀ (x k : SReg) (i : Nat), i < vlanes y → (vecEval (.vins v x k y p) b ss m).lane w i
      = if i = (ss.getD 1 0).toNat % vlanes y ∧ bitAt (b.pred p) i = true then (ss.getD 0 0).toNat % 2 ^ w else b.lane v w i)
  ∧ (∀ (st : VTy) (i : Nat) (u : Nat), u = b.lane a (vwidth st) i → i < vlanes y → (vecEval (.vcvt v a y p st) b ss m).lane w i =
      if vlanes st ≤ i then 0 else if bitAt (b.pred p) i = false then b.lane v w i
      else if st.isFp ∧ y.isFp then (cvtF (vfmt st) (vfmt y) m u).bits % 2 ^ w
      else if st.isFp then ((cvtI (vfmt st) m (if y = .ui8 then 0 else -2 ^ (w - 1)) (if y = .ui8 then 255 else 2 ^ (w - 1) - 1) u).1 % 2 ^ w).toNat
      else if y.isFp then (cvtIntF (vfmt y) m (vint st u)).bits % 2 ^ w
      else ((if y = .ui8 then satu8 (vint st u) else sat (vint st u) w) % 2 ^ w).toNat)

/-- R193, R195, R197, R198: the instructions that write a predicate or a scalar register: comparisons, predicate logic, counts, the fixed reduction tree, and one element taken. -/
def Obligations.VectorPredicatesAndReductions : Prop :=
  ∀ (b : VBank) (q r u : PReg) (a c : VReg) (d : SReg) (y : VTy) (p : PReg) (ss : List Word) (m w : Nat) (e g : Nat → Nat), w = vwidth y → e = b.lane a w → g = b.lane c w →
  (∀ t ∈ ([
    (.vcmpEq q a c y p, fun x z => decide (x = z), fun x z => fpCmp (vfmt y) .eq x z, false), (.vcmpNe q a c y p, fun x z => decide (x ≠ z), fun x z => fpCmp (vfmt y) .eq x z, true),
    (.vcmpLt q a c y p, fun x z => decide (x < z), fun x z => fpCmp (vfmt y) .lt x z, false), (.vcmpLe q a c y p, fun x z => decide (x ≤ z), fun x z => fpCmp (vfmt y) .le x z, false),
    (.vcmpGt q a c y p, fun x z => decide (z < x), fun x z => fpCmp (vfmt y) .lt z x, false), (.vcmpGe q a c y p, fun x z => decide (z ≤ x), fun x z => fpCmp (vfmt y) .le z x, false)] :
      List (Instr × (Int → Int → Bool) × (Nat → Nat → FRes) × Bool)),
    (vecEval t.1 b ss m).mergesP b q y p (fun i => if y.isInt then (t.2.1 (vint y (e i)) (vint y (g i)), 0) else (((t.2.2.1 (e i) (g i)).bits == 1) != t.2.2.2, (t.2.2.1 (e i) (g i)).flags)))
  ∧ (∀ t ∈ ([(.pand q r u y p, fun i => bitAt (b.pred r) i && bitAt (b.pred u) i), (.por q r u y p, fun i => bitAt (b.pred r) i || bitAt (b.pred u) i), (.pxor q r u y p, fun i => bitAt (b.pred r) i != bitAt (b.pred u) i),
      (.pnot q r y p, fun i => !bitAt (b.pred r) i), (.pset q y p, fun _ => true)] : List (Instr × (Nat → Bool))), (vecEval t.1 b ss m).mergesP b q y p (fun i => (t.2 i, 0)))
  ∧ (∀ (n : Nat), (∀ i, bitAt (b.pred p) i = true → bitAt (b.pred r) i = true → i < vlanes y → n ≤ i) → n < vlanes y → bitAt (b.pred p) n = true → bitAt (b.pred r) n = true →
      vecEval (.pfirst d r y p) b ss m = { VOut.none with s := some (d.val, BitVec.ofNat 64 n) })
  ∧ ((∀ i, i < vlanes y → bitAt (b.pred p) i = true → bitAt (b.pred r) i = false) → vecEval (.pfirst d r y p) b ss m = { VOut.none with s := some (d.val, BitVec.allOnes 64) })
  ∧ vecEval (.pcnt d r y p) b ss m = { VOut.none with s := some (d.val, BitVec.ofNat 64 ((List.range (vlanes y)).filter (fun i => bitAt (b.pred p) i && bitAt (b.pred r) i)).length) }
  ∧ (∀ k : SReg, vecEval (.vext d a k y) b ss m = { VOut.none with s := some (d.val, BitVec.ofInt 64
      (if y = .i32 ∨ y = .i16 ∨ y = .i8 then sextInt (e ((ss.getD 0 0).toNat % vlanes y)) w else ((e ((ss.getD 0 0).toNat % vlanes y) : Nat) : Int))) })
  ∧ (y.isInt = true → vecEval (.vredsum d a y p) b ss m = { VOut.none with s := some (d.val, BitVec.ofInt 64 (((List.range (vlanes y)).map (fun i => if bitAt (b.pred p) i then vint y (e i) else 0)).sum)) }
    ∧ (∀ x : Int, (∃ i, i < vlanes y ∧ bitAt (b.pred p) i = true ∧ x = vint y (e i)) →
      ((∀ i, i < vlanes y → bitAt (b.pred p) i = true → vint y (e i) ≤ x) → vecEval (.vredmax d a y p) b ss m = { VOut.none with s := some (d.val, BitVec.ofInt 64 x) })
      ∧ ((∀ i, i < vlanes y → bitAt (b.pred p) i = true → x ≤ vint y (e i)) → vecEval (.vredmin d a y p) b ss m = { VOut.none with s := some (d.val, BitVec.ofInt 64 x) })))
  ∧ (∀ t ∈ ([(.vredsum d a .f32 p, 0x80000000, fpAdd .f32 m), (.vredmax d a .f32 p, 0xFF800000, fpMinMax .f32 true), (.vredmin d a .f32 p, 0x7F800000, fpMinMax .f32 false)] : List (Instr × Nat × (Nat → Nat → FRes))),
    ∀ n : Nat → Nat → Nat, (∀ i, n 0 i = if bitAt (b.pred p) i then b.lane a 32 i else t.2.1) → (∀ l i, n (l + 1) i = (t.2.2 (n l (2 * i)) (n l (2 * i + 1))).bits) →
      ∃ fl, vecEval t.1 b ss m = { VOut.none with s := some (d.val, BitVec.ofNat 64 (n 5 0 % 2 ^ 32)), flags := fl }
        ∧ ∀ k, fl.testBit k = true ↔ ∃ l i, l < 5 ∧ i < 2 ^ (4 - l) ∧ (t.2.2 (n l (2 * i)) (n l (2 * i + 1))).flags.testBit k = true)

/-- R181, R185, R186, R199 to R202: dispatch: a vector instruction whose scalar operands can be read takes the next number and a ring entry, goes behind the other vector work of its context, and the scalar stream goes on; without a ring entry or queue place it waits. `rep` captures its body, reserves its numbers and passes over it.
R179, R182, R183, R186, R187, R201 to R203: what the vector unit does: an instruction that starts reads its sources as they stand and keeps its result until it completes; completing writes it, ORs the flags and frees the ring entry. A source that is poisoned, or fails its parity check, makes it fault late: nothing is written and the unstarted work of the context behind it goes. The late fault is taken before the context's next instruction. A pass runs the body word with its fields advanced within their windows.
Completes: vaddInt, vsubInt, vmulInt, vminInt, vmaxInt, vabsInt, vnegInt, vdot, vaddFp, vsubFp, vmulFp, vfma, vfms, vfnma, vdiv, vsqrt, vminFp, vmaxFp, vabsFp, vnegFp, vclass, vand, vor, vxor, vandn, vshl, vshr, vsra, vcmpEq, vcmpNe, vcmpLt, vcmpLe, vcmpGt, vcmpGe, vsel, vperm, vslide, vzip, vunzip, vredsum, vredmax, vredmin, vcvt, pand, por, pxor, pnot, pcnt, pfirst, pset, vbcast, vext, vins, repR, repI, vectorStart, vectorCompletion, repPass, lateFaultDelivery. -/
def Obligations.VectorExecution : Prop :=
  ((∀ (i : Instr) (s : State) (ss : List Reg), (match i with
      | .vaddInt .. | .vsubInt .. | .vmulInt .. | .vminInt .. | .vmaxInt .. | .vabsInt .. | .vnegInt .. | .vdot .. | .vaddFp .. | .vsubFp .. | .vmulFp .. | .vfma .. | .vfms .. | .vfnma .. | .vdiv .. | .vsqrt ..
      | .vminFp .. | .vmaxFp .. | .vabsFp .. | .vnegFp .. | .vclass .. | .vand .. | .vor .. | .vxor .. | .vandn .. | .vshl .. | .vshr .. | .vsra .. | .vcmpEq .. | .vcmpNe .. | .vcmpLt .. | .vcmpLe .. | .vcmpGt ..
      | .vcmpGe .. | .vsel .. | .vperm .. | .vslide .. | .vzip .. | .vunzip .. | .vredsum .. | .vredmax .. | .vredmin .. | .vcvt .. | .pand .. | .por .. | .pxor .. | .pnot .. | .pcnt .. | .pfirst .. | .pset ..
      | .vbcast .. | .vext .. | .vins .. => True
      | _ => False) → ss = (vecScalars i).map (fun r => Fin.ofNat 64 r.val) → s.issues ⟨[], ss.map (fun r => (r, false)), [], (scalarDest i).toList.map (fun d => Fin.ofNat 64 d)⟩ = true → (s.vbank s.me).tag = none →
    ((64 ≤ (s.core s.cur.1).ring.length ∨ 16 ≤ ((s.vwork s.me).filter (fun o => !o.isPass && o.out.isNone)).length) → exec i s = .next (s.parkMe .vector))
    ∧ ((s.core s.cur.1).ring.length < 64 → ((s.vwork s.me).filter (fun o => !o.isPass && o.out.isNone)).length < 16 → ∃ (u : State) (o : VOp) (e : RingEntry), exec i s = .next (u.finish i)
      ∧ u = { s with ctxs := u.ctxs, cores := u.cores, vops := s.vops ++ [o], nid := s.nid + 1 } ∧ u.self = { s.self with dseq := (s.self.dseq + 1) % 65536 } ∧ (∀ k, k ≠ s.me → u.ctx k = s.ctx k)
      ∧ o.instr = i ∧ o.core = s.cur.1 ∧ o.ctx = s.cur.2 ∧ o.seq = s.self.dseq ∧ o.pc = s.self.pc ∧ o.scalars = ss.map s.val ∧ o.out = none ∧ o.isPass = false
      ∧ e ∈ (u.core s.cur.1).ring ∧ e.seq = s.self.dseq ∧ e.pc = s.self.pc ∧ e.kind = 4 ∧ e.fault = none))
  ∧ (∀ (s : State) (i : Instr) (n l st m w : Nat), ((∃ (c : Reg) (len x : Fin 16) (g : Fin 8) (v : Fin 4) (t : Bool), i = .repR c len x g v t ∧ n = (s.val c).toNat ∧ l = len.val ∧ st = x.val ∧ m = g.val ∧ w = v.val ∧ s.issues ⟨[], [(c, t)], [], []⟩ = true)
      ∨ ∃ (k : Fin 64) (len x : Fin 16) (g : Fin 8) (v : Fin 4), i = .repI k len x g v ∧ n = k.val ∧ l = len.val ∧ st = x.val ∧ m = g.val ∧ w = v.val ∧ k ≠ 0) →
    (65535 < n → exec i s = .next (s.trap 0x0E 2 s.self.pc))
    ∧ (n ≤ 65535 → (s.vbank s.me).tag = none → (∀ r ∈ s.reps, r.key ≠ s.me) → ∀ body u r, s.capture (s.self.pc.toNat + 4) (l + 1) [] = (body, none, u) →
      r = { key := s.me, word := (encode i).headD 0, pc := s.self.pc, n := n, body := body, stride := st, fields := m, window := 4 * 2 ^ w, pass := 0, pos := 0, seq0 := u.self.dseq, id := u.nid, rm := u.rm, user := decide (u.self.priv = .user) } →
      (∀ j sub, r.firstFault = some (j, sub) → exec i s = .next (u.trap 0x0E sub (s.self.pc + BitVec.ofNat 64 (4 + 4 * j))))
      ∧ (r.firstFault = none → Answers i s (fun v => (n = 0 → v.reps = u.reps ∧ v.self.dseq = u.self.dseq) ∧ (n ≠ 0 → v.reps = u.reps ++ [r] ∧ v.self.dseq = (u.self.dseq + n * (l + 1)) % 65536) ∧ v.mem = u.mem ∧ v.vops = u.vops
        ∧ (u.self.loops = [] → v.self.pc = u.self.pc + BitVec.ofNat 64 (4 + 4 * (l + 1)))))))
  ∧ (∀ (s : State) (l : Fin 16) (x : Fin 16) (m : Fin 8) (w : Fin 4), exec (.repI 0 l x m w) s = .next (s.trap 0x0E 1 s.self.pc))
  ∧ (∀ (r : Rep) (k w j f : Nat), (∃ q ∈ bodyScalars w, f = r.field k q.1 q.2.1 ∧ 60 ≤ f) → k < min r.n 32 → r.body.getD j 0 = w → j < r.body.length → r.firstFault ≠ none))
  ∧ ((∀ (s : State) (o : VOp), s.vops.find? (fun q => q.id == s.arg.a) = some o →
    (s.vopFault o = none → (s.ctx (ctxKey o.core o.ctx)).fmode.toNat % 4 = o.rm → scalarEval (fun r => ((s.ctx (ctxKey o.core o.ctx)).cell r.val).val) o.instr = none → o.isPass = false →
      exec .vectorStart s = .next { s.vectorTurn o with vops := s.vops.map (fun (q : VOp) => if q.id = o.id then { q with out := some (vecEval o.instr (s.vbank (ctxKey o.core o.ctx)) o.scalars o.rm) } else q) })
    ∧ (∀ d v, s.vopFault o = none → (s.ctx (ctxKey o.core o.ctx)).fmode.toNat % 4 = o.rm → scalarEval (fun r => ((s.ctx (ctxKey o.core o.ctx)).cell r.val).val) o.instr = some (d, v) →
      exec .vectorStart s = .next { s.vectorTurn o with vops := s.vops.map (fun (q : VOp) => if q.id = o.id then { q with out := some { VOut.none with s := some (d.val, v) } } else q) })
    ∧ (s.vopPoisoned o = true → s.vopParity o = false → s.vopFault o = some 1) ∧ (s.vopParity o = true → s.vopFault o = some 2)
    ∧ (∀ sub, s.vopFault o = some sub → Answers .vectorStart s (fun u => u.ctxs = s.ctxs ∧ u.vbanks = s.vbanks ∧ u.mem = s.mem
      ∧ u.vops = s.vops.filter (fun (q : VOp) => !(ctxKey q.core q.ctx == ctxKey o.core o.ctx && q.out.isNone))
      ∧ (∀ e ∈ (s.core o.core).ring, e.agent = o.agent → e.seq = o.seq → e.fault = none → { e with fault := some ⟨0x10, sub, o.pc⟩ } ∈ (u.core o.core).ring))))
  ∧ (∀ (s : State) (o : VOp) (w : VOut) (k : Nat), s.vops.find? (fun q => q.id == s.arg.a) = some o → o.out = some w → k = ctxKey o.core o.ctx → Answers .vectorCompletion s (fun u =>
      u.vops = s.vops.filter (fun (q : VOp) => q.id ≠ o.id) ∧ u.mem = s.mem ∧ (∀ j, j ≠ k → u.ctx j = s.ctx j ∧ u.vbank j = s.vbank j)
      ∧ (∀ e ∈ (u.core o.core).ring, e.agent = o.agent → e.seq = o.seq → e.fault ≠ none)
      ∧ (u.ctx k).fflags = (s.ctx k).fflags ||| BitVec.ofNat 64 w.flags ∧ (u.ctx k).pc = (s.ctx k).pc
      ∧ (∀ v x, w.v = some (v, x) → (u.vbank k).cell v = ⟨x, false⟩) ∧ (∀ v, (∀ x, w.v ≠ some (v, x)) → (u.vbank k).cell v = (s.vbank k).cell v)
      ∧ (∀ p x, w.p = some (p, x) → p ≠ 0 → smGet (0 : BitVec 128) (u.vbank k).p p = x) ∧ (∀ p, (∀ x, w.p ≠ some (p, x)) → smGet (0 : BitVec 128) (u.vbank k).p p = smGet (0 : BitVec 128) (s.vbank k).p p)
      ∧ (∀ d x, w.s = some (d, x) → d ≠ 0 → (u.ctx k).cell d = ⟨x, .full, false⟩) ∧ (∀ d, (∀ x, w.s ≠ some (d, x)) → (u.ctx k).cell d = (s.ctx k).cell d)))
  ∧ (∀ (s : State) (e : RingEntry) (l : Late), s.lateFault s.arg.a s.arg.b = some e → e.fault = some l → ∃ u : State, u = s.setCore s.arg.a { s.core s.arg.a with ring := (s.core s.arg.a).ring.filter (fun (q : RingEntry) => q ≠ e) }
      ∧ exec .lateFaultDelivery s = .next (takeTrapAt (u.leaveSems (ctxKey s.arg.a s.arg.b)) s.arg.a s.arg.b l.cause l.sub l.val (s.ctx (ctxKey s.arg.a s.arg.b)).pc e.seq true))
  ∧ (∀ (s : State) (r : Rep) (i : Instr), s.reps.find? (fun q => q.key == s.arg.a && q.running) = some r → r.passInstr r.pass (r.body.getD r.pos 0) = some i → Answers .repPass s (fun u =>
      u.ctxs = s.ctxs ∧ u.mem = s.mem ∧ (∃ o ∈ u.vops, o.instr = i ∧ o.isPass = true ∧ o.seq = (r.seq0 + r.pass * r.body.length + r.pos) % 65536 ∧ ctxKey o.core o.ctx = r.key ∧ o.out = none)
      ∧ u.reps = s.reps.map (fun (q : Rep) => if q = r then (if r.pos + 1 < r.body.length then { r with pos := r.pos + 1 } else { r with pos := 0, pass := r.pass + 1 }) else q)))
  ∧ (∀ (r : Rep) (k m f : Nat), (r.fields / m % 2 = 0 → r.field k m f = f)
      ∧ (r.fields / m % 2 = 1 → r.field k m f = f / r.window * r.window + (f + k * r.stride) % r.window)))

/-- R230, R231, R232: `vldp`, `vstp` and `vstp.nt` move the 128 bytes at ea between local memory and the register of the partner's context; the load's value arrives later, the store reads a register that no work is still to write. A misaligned address traps ALIGN, a store of a register that is poisoned, or fails its parity check, POISON.
R230, R232: `vldpx` and `vstpx` move lane i of an element size e to or from the base plus the unsigned index element times e, skipping all-ones indices; a higher lane's store remains. The base must be a multiple of e, and an index or data register that is poisoned, or fails its parity check, traps POISON before any lane is looked at.
Completes: vldp, vstp, vstpNt, vldpx, vstpx. -/
def Obligations.VectorTransfers : Prop :=
  (∀ (s : State) (v : VReg) (a : Reg) (t : Bool) (off : BitVec 10) (ea key : Nat), s.issues ⟨[], [(a, t)], [], []⟩ = true →
    s.bankTagged s.partnerKey = false → (s.ctx s.partnerKey).occ = true → ea = (s.val a + BitVec.ofInt 64 (128 * off.toInt)).toNat → key = localKey s.cur.1 (ea - localBase) →
    ((s.localFree ea 128 false → (∀ r ∈ s.reqs, r.id < s.nid) → ∃ (u : State) (q : Req), exec (.vldp v a t off) s = .next (u.finish (.vldp v a t off))
        ∧ u = { s with reqs := s.reqs ++ [q], nid := s.nid + 1 } ∧ q.dest = .vec (partner s.cur.1) s.cur.2 v.val 0 ∧ q.sampled = true ∧ q.agent = s.agent
        ∧ q.data = Memory.read s.mem key 128 ∧ (q.poison = true ↔ ∃ i, i < 8 ∧ smGet false s.bad (key / 16 + i) = true))
    ∧ (s.vwriters s.partnerKey v.val = [] → (s.vbank s.partnerKey).marked v.val = false → s.localFree ea 128 true →
        s.self.planeLeft = none → ∀ i ∈ [Instr.vstp v a t off, Instr.vstpNt v a t off], ∃ u : State, exec i s = .next (u.finish i) ∧ u = { s with mem := u.mem, bad := u.bad }
          ∧ (∀ k, k < 128 → Memory.byte u.mem (key + k) = (s.partnerCell v.val).val.extractLsb' (8 * k) 8) ∧ MemBut key 128 s u)
    ∧ (s.vwriters s.partnerKey v.val = [] → (s.vbank s.partnerKey).marked v.val = true →
        s.self.planeLeft = none → ∀ i ∈ [Instr.vstp v a t off, Instr.vstpNt v a t off], exec i s = .next (s.trap 0x09 3 (BitVec.ofNat 64 ea)))
    ∧ ((∀ r ∈ s.reqs, r.agent = s.agent → r.acq = 0) → s.self.home = none → ea % 128 ≠ 0 →
        exec (.vldp v a t off) s = .next (s.trap 0x04 0 (BitVec.ofNat 64 ea))
        ∧ (s.vwriters s.partnerKey v.val = [] → (s.vbank s.partnerKey).marked v.val = false →
          s.self.planeLeft = none → ∀ i ∈ [Instr.vstp v a t off, Instr.vstpNt v a t off], exec i s = .next (s.trap 0x04 0 (BitVec.ofNat 64 ea))))))
  ∧ (∀ (s : State) (v x : VReg) (a : Reg) (t : Bool) (c : Fin 4) (e n : Nat) (ix : Nat → Nat) (ad : Nat → Nat), c ≠ 3 → s.issues ⟨[], [(a, t)], [], []⟩ = true →
    s.bankTagged s.partnerKey = false → (s.ctx s.partnerKey).occ = true → (∀ r, s.vwriters s.partnerKey r = []) → e = (if c = 0 then 4 else if c = 1 then 2 else 1) → n = 128 / e →
    (∀ i, ix i = (s.partnerCell x.val).val.toNat / 2 ^ (8 * e * i) % 2 ^ (8 * e)) → (∀ i, ad i = (s.val a + BitVec.ofNat 64 (ix i * e)).toNat) →
    (((s.vbank s.partnerKey).marked x.val = true → exec (.vldpx v a t x c) s = .next (s.trap 0x09 3 (s.val a)))
    ∧ (((s.vbank s.partnerKey).marked x.val = true ∨ (s.vbank s.partnerKey).marked v.val = true) → exec (.vstpx v a t x c) s = .next (s.trap 0x09 3 (s.val a)))
    ∧ ((s.vbank s.partnerKey).marked x.val = false → (s.val a).toNat % e ≠ 0 → exec (.vldpx v a t x c) s = .next (s.trap 0x04 0 (s.val a)))
    ∧ ((s.vbank s.partnerKey).marked x.val = false → (s.val a).toNat % e = 0 → (∀ i, i < n → ix i ≠ 2 ^ (8 * e) - 1 → s.localFree (ad i) e false) → (∀ r ∈ s.reqs, r.id < s.nid) →
      ∃ u : State, exec (.vldpx v a t x c) s = .next (u.finish (.vldpx v a t x c)) ∧ u = { s with reqs := u.reqs, nid := u.nid }
        ∧ (∀ i, i < n → ix i ≠ 2 ^ (8 * e) - 1 → ∃ q ∈ u.reqs, q.dest = .vec (partner s.cur.1) s.cur.2 v.val (e * i) ∧ q.sampled = true ∧ q.grp = s.nid ∧ q.data = Memory.read s.mem (localKey s.cur.1 (ad i - localBase)) e)
        ∧ (∀ q ∈ u.reqs, q ∈ s.reqs ∨ ∃ i, i < n ∧ ix i ≠ 2 ^ (8 * e) - 1 ∧ q.dest = .vec (partner s.cur.1) s.cur.2 v.val (e * i)))
    ∧ ((s.vbank s.partnerKey).marked x.val = false → (s.vbank s.partnerKey).marked v.val = false → (s.val a).toNat % e = 0 → (∀ i, i < n → ix i ≠ 2 ^ (8 * e) - 1 → s.localFree (ad i) e true) → (∀ r ∈ s.reqs, r.id < s.nid) →
      ∃ u : State, exec (.vstpx v a t x c) s = .next (u.finish (.vstpx v a t x c)) ∧ u = { s with mem := u.mem, bad := u.bad }
        ∧ (∀ i, i < n → ix i ≠ 2 ^ (8 * e) - 1 → (∀ j, i < j → j < n → ix j ≠ 2 ^ (8 * e) - 1 → ad j ≠ ad i) →
          ∀ k, k < e → Memory.byte u.mem (localKey s.cur.1 (ad i - localBase) + k) = (s.partnerCell v.val).val.extractLsb' (8 * (e * i + k)) 8)
        ∧ ∀ b, (∀ i, i < n → ix i ≠ 2 ^ (8 * e) - 1 → b < localKey s.cur.1 (ad i - localBase) ∨ localKey s.cur.1 (ad i - localBase) + e ≤ b) → Memory.byte u.mem b = Memory.byte s.mem b)))

/-- R57, R58, R60, R186, R267, R268, R293, R323: a command word whose flagged registers can be read takes the next number of its timeline, the next dispatch number, a ring entry and the last place of its engine's queue, with the registers in its slots, and the pc goes 32 bytes on; without a ring entry or a place in the queue it waits. Matrix and health commands of a thread that does not own the array trap ILLEGAL.
R186, R268, R269, R290, R316: how a command ends. It leaves its engine and counts as completed on its timeline, whose done-value runs on to the next number that is missing; without a fault its ring entry is freed, with one the entry keeps the late fault for a thread that takes faults, and the queued commands behind it that the rules discard go as well.
Completes: cpPush, cpPushAdd, cpFill, cpX24, cpC24, mma, mmb, mzero, mld, mst, colRed, colRs, colMc, mtest, mremap. -/
def Obligations.Commands : Prop :=
  (∀ r ∈ ([(.cpPush, .push, 0, 32), (.cpPushAdd, .push, 0, 32), (.cpFill, .push, 1, 32), (.cpX24, .push, 2, 32), (.cpC24, .push, 3, 32), (.mma, .matrix, 0, 16), (.mmb, .matrix, 1, 16), (.mzero, .matrix, 2, 16),
      (.mld, .matrix, 3, 16), (.mst, .matrix, 4, 16), (.colRed, .collective, 0, 16), (.colRs, .collective, 1, 16), (.colMc, .collective, 2, 16), (.mtest, .health, 0, 2), (.mremap, .health, 1, 2)] :
      List ((CmdWord → Instr) × EngClass × Nat × Nat)),
  ∀ (s : State) (c : CmdWord) (owned : Bool) (queued : List Cmd) (v : ∀ {n : Nat}, Slot n → Word), s.issues ⟨[], (cmdRegs c).map (fun q => (q, false)), [], []⟩ = true →
    owned = ((kindOf s.cur.1 == .e) && (s.array (tileOf s.cur.1)).owner.any (fun o => o.1 == s.agent)) →
    queued = s.cmds.filter (fun q => q.unit == unitOf s.cur.1 && q.cls == r.2.1 && q.st == .queued) →
    (∀ n (x : BitVec n), v (.lit x) = BitVec.ofNat 64 x.toNat) → (∀ n q, v (Slot.reg q : Slot n) = s.val q) →
    (((r.2.1 = .matrix ∨ r.2.1 = .health) → owned = false → exec (r.1 c) s = .next (s.trap 0x01 2 (BitVec.ofNat 64 ((encode (r.1 c)).headD 0))))
    ∧ ((r.2.1 = .push ∨ r.2.1 = .collective ∨ owned = true) →
      ((r.2.2.2 ≤ queued.length ∨ 64 ≤ (s.core s.cur.1).ring.length) → exec (r.1 c) s = .next (s.parkMe (.engine r.2.1)))
      ∧ (queued.length < r.2.2.2 → (s.core s.cur.1).ring.length < 64 → ∃ (u : State) (q : Cmd) (e : RingEntry), exec (r.1 c) s = .next u
        ∧ u = { s with ctxs := u.ctxs, cores := u.cores, cmds := s.cmds ++ [q], nid := s.nid + 1 } ∧ (∀ k, k ≠ s.me → u.ctx k = s.ctx k) ∧ (∀ k, u.self.cell k = s.self.cell k)
        ∧ q.cls = r.2.1 ∧ q.opc = r.2.2.1 ∧ q.unit = unitOf s.cur.1 ∧ q.agent = s.agent ∧ q.tl = c.tl.val ∧ q.num = (s.self.timeline c.tl.val).issued + 1 ∧ q.seq = s.self.dseq
        ∧ q.flags = c.flags.toNat ∧ q.slots = [v c.s0, v c.s1, v c.s2, v c.s3, v c.s4 &&& 0xFFFFFFFF] ∧ q.st = .queued
        ∧ e ∈ (u.core s.cur.1).ring ∧ e.agent = s.agent ∧ e.seq = s.self.dseq ∧ e.pc = s.self.pc ∧ e.fault = none
        ∧ (u.self.timeline c.tl.val).issued = (s.self.timeline c.tl.val).issued + 1 ∧ (u.self.timeline c.tl.val).done = (s.self.timeline c.tl.val).done
        ∧ (∀ k, k ≠ c.tl.val → u.self.timeline k = s.self.timeline k) ∧ u.self.dseq = (s.self.dseq + 1) % 65536 ∧ (s.self.loops = [] → u.self.pc = s.self.pc + 32)))))
  ∧ ((∀ (s : State) (c : Cmd), c.tl ≠ 4 → CmdGone s (s.endCmd c) c ∧ ((s.ctxOfAgent c.agent ≠ none ∨ s.storedOf c.agent = none) → (s.endCmd c).mem = s.mem) ∧ (∀ d ∈ s.cmds, d.id ≠ c.id → ∃ w, { d with waited := w } ∈ (s.endCmd c).cmds)
      ∧ ∀ e ∈ ((s.endCmd c).core (s.ringCore c.core c.agent c.seq)).ring, e.agent = c.agent → e.seq = c.seq → e.fault ≠ none)
  ∧ (∀ (s : State) (c : Cmd) (l : Late) (k : Nat), c.tl ≠ 4 → (s.cmds.map (·.id)).Nodup → s.ctxOfAgent c.agent = some k → (s.ctx k).ending = false → (∀ d, d ∈ (s.failCmd c l).cmds → d.id ≠ c.id) ∧ (s.failCmd c l).mem = s.mem
      ∧ (∀ e ∈ (s.core (s.ringCore c.core c.agent c.seq)).ring, e.agent = c.agent → e.seq = c.seq → e.fault = none → { e with fault := some l } ∈ ((s.failCmd c l).core (s.ringCore c.core c.agent c.seq)).ring)
      ∧ (∀ d ∈ s.cmds, d.id ≠ c.id → (d.agent ≠ c.agent ∨ d.id < c.id ∨ d.cls ≠ c.cls ∨ d.st ≠ .queued) → ∃ w, { d with waited := w } ∈ (s.failCmd c l).cmds)
      ∧ (∀ d ∈ s.cmds, d.agent = c.agent → c.id < d.id → d.st = .queued → d.cls = c.cls → d.tl = c.tl →
          (c.cls = .push → d.flags % 2 = 1 → ∀ q ∈ (s.failCmd c l).cmds, q.id ≠ d.id) ∧ ((c.cls = .matrix ∨ c.cls = .health) → ∀ q ∈ (s.failCmd c l).cmds, q.id ≠ d.id)))
  ∧ (∀ (t : Timeline) (n : Nat), t.done ≤ (t.complete n).done ∧ (t.complete n).issued = t.issued ∧ (∀ j, t.done < j → j ≤ (t.complete n).done → j = n ∨ j ∈ t.ahead)
      ∧ (t.complete n).done + 1 ≠ n ∧ (t.complete n).done + 1 ∉ t.ahead))

/-- R293 to R296, R319: `mown` takes a free array and clears the sticky bits, completes for its owner, and waits in order otherwise; `mfree` gives the array to the longest waiter once the thread's matrix commands are done; `mshape` and `mmap.rd` read the shape word, the maps, the summary and the defects of the tile's array.
R318: a map of a dimension lists the lowest good physical indices, in order, as many as the largest size of 64, 60, 56, 48, 32 and 0 that they fill; of an array with a dimension of size 0 both read 0.
Completes: mown, mfree, mshape, mmapRd. -/
def Obligations.ThreadArrays : Prop :=
  ((∀ (s : State) (k : Nat) (a : ArraySt), k = tileOf s.cur.1 → a = s.array k → s.issues ⟨[], [], [], []⟩ = true →
    (a.owner = none → exec .mown s = .next ((s.setArray k { a with owner := some (s.agent, s.cur.2), sticky := 0 }).finish .mown))
    ∧ (∀ c, a.owner = some (s.agent, c) → exec .mown s = .next (s.finish .mown))
    ∧ (∀ u c, a.owner = some (u, c) → u ≠ s.agent → s.agent ∉ a.waiting → exec .mown s = .next ((s.setArray k { a with waiting := a.waiting ++ [s.agent] }).parkMe .array))
    ∧ ((∀ c, a.owner ≠ some (s.agent, c)) → exec .mfree s = .next (s.finish .mfree))
    ∧ (∀ c, kindOf s.cur.1 = .e → a.owner = some (s.agent, c) → (∃ q ∈ s.cmds, q.cls = .matrix ∧ q.unit = unitOf s.cur.1 ∧ q.agent = s.agent) → exec .mfree s = .next (s.parkMe .commands))
    ∧ (∀ c, kindOf s.cur.1 = .e → a.owner = some (s.agent, c) → (∀ q ∈ s.cmds, q.cls = .matrix → q.unit = unitOf s.cur.1 → q.agent ≠ s.agent) →
      ∃ b : ArraySt, exec .mfree s = .next ((s.setArray k b).finish .mfree) ∧ (a.waiting = [] → b = { a with owner := none })
        ∧ ∀ w l, a.waiting = w :: l → b.waiting = l ∧ b.sticky = 0 ∧ b.acc = a.acc ∧ ∃ c, b.owner = some (w, c)))
  ∧ (∀ (s : State) (d : Reg) (a : ArraySt), a = s.array (tileOf s.cur.1) → s.issues ⟨[], [], [d], []⟩ = true →
    exec (.mshape d) s = .next (s.retire (.mshape d) ⟨[], [], [d], []⟩ d (BitVec.ofNat 64 (a.rows + a.cols * 2 ^ 8 + a.sticky % 16 * 2 ^ 20 + (a.owner.map (fun o => o.2 % 16 * 2 ^ 24 + 2 ^ 28)).getD 0))))
  ∧ (∀ (s : State) (d b : Reg) (t : Bool) (a : ArraySt) (x i set kind : Nat), a = s.array (tileOf s.cur.1) → s.issues ⟨[(b, t)], [], [d], []⟩ = true →
    x = (s.val b).toNat → i = x % 128 → kind = x / 2 ^ 12 % 4 → set = x / 2 ^ 14 % 4 →
    ((2 ^ 16 ≤ x ∨ 2 ≤ set ∨ x / 2 ^ 7 % 32 ≠ 0 ∨ (kind = 2 ∧ i ≠ 0) ∨ (kind ≠ 2 ∧ 64 ≤ i)) → exec (.mmapRd d b t) s = .next (s.trap 0x01 0x0D (BitVec.ofNat 64 ((encode (.mmapRd d b t)).headD 0))))
    ∧ (x < 2 ^ 16 → set < 2 → x / 2 ^ 7 % 32 = 0 → (if kind = 2 then i = 0 else i < 64) → ∃ v, exec (.mmapRd d b t) s = .next (s.retire (.mmapRd d b t) ⟨[(b, t)], [], [d], []⟩ d (BitVec.ofNat 64 v))
      ∧ (kind = 0 → set = 0 → (∀ p, (dimMap a.retRows)[i]? = some p → v = 128 + p) ∧ ((dimMap a.retRows)[i]? = none → v = 0x7F))
      ∧ (kind = 1 → set = 0 → (∀ p, (dimMap a.retCols)[i]? = some p → v = 128 + p) ∧ ((dimMap a.retCols)[i]? = none → v = 0x7F))
      ∧ (kind = 0 → set = 1 → ∀ rs cs, a.cand = some (rs, cs) → (∀ p, (dimMap rs)[i]? = some p → v = 128 + p) ∧ ((dimMap rs)[i]? = none → v = 0x7F))
      ∧ (kind = 2 → ∀ rs cs, (if set = 0 then some (a.retRows, a.retCols) else a.cand) = some (rs, cs) → v = (dimMap rs).length + (dimMap cs).length * 2 ^ 8 + rs.length * 2 ^ 16 + cs.length * 2 ^ 24
        + min rs.length 2 * 2 ^ 32 + min cs.length 2 * 2 ^ 34 + min a.count 255 * 2 ^ 40 + a.cand.isSome.toNat * 2 ^ 48 + a.running.toNat * 2 ^ 49)
      ∧ (kind = 3 → (∀ q, a.defects[i]? = some q → v = q.1 + q.2.1 * 2 ^ 8 + q.2.2 * 2 ^ 16 + 2 ^ 24) ∧ (a.defects[i]? = none → v = 0)))))
  ∧ ((∀ retired : List Nat, ∃ n ∈ [64, 60, 56, 48, 32, 0], (dimMap retired).length = n ∧ (dimMap retired) <+: (List.range 66).filter (fun i => !retired.contains i)
    ∧ ∀ m ∈ [64, 60, 56, 48, 32, 0], n < m → ((List.range 66).filter (fun i => !retired.contains i)).length < m)
  ∧ ∀ a : ArraySt, ((dimMap a.retRows).length ≠ 0 → (dimMap a.retCols).length ≠ 0 → a.rows = (dimMap a.retRows).length ∧ a.cols = (dimMap a.retCols).length)
    ∧ (((dimMap a.retRows).length = 0 ∨ (dimMap a.retCols).length = 0) → a.rows = 0 ∧ a.cols = 0))

/-- R336 to R338, R350, R353: `cist` copies its argument block, makes d wait and takes the last place of the vault's queue; a broken selector traps ILLEGAL, a misaligned block ALIGN and one outside local memory ADDR. `cerr.rd` reads a bank's error register, and clears it with the clear bit; `cist.ld` writes the control store or the entry table for firmware alone, once no invocation of the vault runs.
R341, R343, R344, R405: a cistern invocation that fails a check ends with the failure form 0xFFFF_FFFF_0000_0700 + tsub for d and a late fault; else it runs, sector by sector and column by column; entry 0 multiplies and adds each lane with one rounding, and at the end d receives the sum, of one cistern the reduction tree's over its lanes; a reset sequencer ends the invocations that use it WATCHDOG.
Completes: cist, cerrRd, cistLd, cisternInvocationStart, cisternInvocationCompletion, seqReset, vaultReset, meshRequestResend. -/
def Obligations.Cisterns : Prop :=
  ((∀ (s : State) (d a b : Reg) (t v : Bool) (x y : Nat) (bad : Prop), s.issues ⟨[], [(a, t), (b, v)], [], [d]⟩ = true → d ≠ 0 → x = (s.val a).toNat → y = (s.val b).toNat →
    (bad ↔ (2 ^ 56 ≤ x ∨ x / 2 ^ 48 % 16 ≠ 0 ∨ x % 2 ^ 48 = 0)) →
    (bad → exec (.cist d a b t v) s = .next (s.trap 0x01 0x0D (BitVec.ofNat 64 ((encode (.cist d a b t v)).headD 0))))
    ∧ (¬ bad → y % 16 ≠ 0 → exec (.cist d a b t v) s = .next (s.trap 0x04 0 (s.val b)))
    ∧ (¬ bad → y % 16 = 0 → (y < localBase ∨ localBase + 0xD000 < y + 64) → exec (.cist d a b t v) s = .next (s.trap 0x05 0 (s.val b)))
    ∧ (¬ bad → y % 16 = 0 → localBase ≤ y → y + 64 ≤ localBase + 0xD000 →
      ((16 ≤ (s.invs.filter (fun i => i.core == s.cur.1 && i.st == .queued)).length ∨ 64 ≤ (s.core s.cur.1).ring.length) → exec (.cist d a b t v) s = .next (s.parkMe .cisternRoom))
      ∧ ((s.invs.filter (fun i => i.core == s.cur.1 && i.st == .queued)).length < 16 → (s.core s.cur.1).ring.length < 64 → ∃ (u : State) (n : Inv) (e : RingEntry),
        exec (.cist d a b t v) s = .next (u.finish (.cist d a b t v)) ∧ u = { s with ctxs := u.ctxs, cores := u.cores, reqs := u.reqs, invs := s.invs ++ [n], nid := s.nid + 2 }
        ∧ u.self = ({ s.self with dseq := (s.self.dseq + 1) % 65536 } : Ctx).pend d.val ∧ (∀ k, k ≠ s.me → u.ctx k = s.ctx k)
        ∧ n.core = s.cur.1 ∧ n.agent = s.agent ∧ n.seq = s.self.dseq ∧ n.entry = x / 2 ^ 52 ∧ n.set = x % 2 ^ 48 ∧ n.st = .queued
        ∧ n.args.length = 8 ∧ (∀ k, k < 8 → n.args.getD k 0 = ofBytes (Memory.read s.mem (localKey s.cur.1 (y - localBase) + 8 * k) 8))
        ∧ (∃ q ∈ u.reqs, q.id = n.req ∧ q.dest = s.longDest d ⟨8, false⟩) ∧ e ∈ (u.core s.cur.1).ring ∧ e.seq = s.self.dseq ∧ e.kind = 5 ∧ e.fault = none)))
  ∧ (∀ (s : State) (d a : Reg) (t : Bool) (x k : Nat), s.issues ⟨[(a, t)], [], [d], []⟩ = true → x = (s.val a).toNat → k = (s.cur.1 - 256) * 192 + x % 256 →
    ((2 ^ 9 ≤ x ∨ 192 ≤ x % 256) → exec (.cerrRd d a t) s = .next (s.trap 0x01 0x0D (BitVec.ofNat 64 ((encode (.cerrRd d a t)).headD 0))))
    ∧ (x < 192 → exec (.cerrRd d a t) s = .next (s.retire (.cerrRd d a t) ⟨[(a, t)], [], [d], []⟩ d (BitVec.ofNat 64 (smGet 0 s.berr k))))
    ∧ (256 ≤ x → x < 256 + 192 → s.self.priv = .user → exec (.cerrRd d a t) s = .next (s.trap 0x02 0 (BitVec.ofNat 64 ((encode (.cerrRd d a t)).headD 0))))
    ∧ (256 ≤ x → x < 256 + 192 → s.self.priv ≠ .user →
      exec (.cerrRd d a t) s = .next (({ s with berr := smPut 0 s.berr k 0 } : State).retire (.cerrRd d a t) ⟨[(a, t)], [], [d], []⟩ d (BitVec.ofNat 64 (smGet 0 s.berr k)))))
  ∧ (∀ (s : State) (a b : Reg) (t v : Bool) (x y n f vt : Nat), s.issues ⟨[], [(a, t), (b, v)], [], []⟩ = true → x = (s.val a).toNat → y = (s.val b).toNat → n = x / 2 ^ 8 % 2 ^ 9 → f = x % 256 → vt = s.cur.1 - 256 →
    ((2 ^ 18 ≤ x ∨ n = 0 ∨ 256 < n ∨ (if x / 2 ^ 17 % 2 = 1 then 16 else 256) < f + n) → exec (.cistLd a b t v) s = .next (s.trap 0x01 0x0D (BitVec.ofNat 64 ((encode (.cistLd a b t v)).headD 0))))
    ∧ (x < 2 ^ 18 → n ≠ 0 → n ≤ 256 → f + n ≤ (if x / 2 ^ 17 % 2 = 1 then 16 else 256) →
      (s.self.priv ≠ .firmware → exec (.cistLd a b t v) s = .next (s.trap 0x02 0 (BitVec.ofNat 64 ((encode (.cistLd a b t v)).headD 0))))
      ∧ (s.self.priv = .firmware → y % 16 ≠ 0 → exec (.cistLd a b t v) s = .next (s.trap 0x04 0 (s.val b)))
      ∧ (s.self.priv = .firmware → y % 16 = 0 → (y < localBase ∨ localBase + 65536 < y + 16 * n) → exec (.cistLd a b t v) s = .next (s.trap 0x05 0 (s.val b)))
      ∧ (s.self.priv = .firmware → y % 16 = 0 → localBase ≤ y → y + 16 * n ≤ localBase + 65536 →
        ((∃ i ∈ s.invs, i.core = 256 + vt ∧ (i.st = .running ∨ i.asked = true)) → exec (.cistLd a b t v) s = .next (s.parkMe .cisterns))
        ∧ ((∀ i ∈ s.invs, i.core = 256 + vt → i.st ≠ .running ∧ i.asked = false) → ∃ u : State, exec (.cistLd a b t v) s = .next (u.finish (.cistLd a b t v)) ∧ u = { s with micro := u.micro, entries := u.entries }
          ∧ (x / 2 ^ 17 % 2 = 1 → u.micro = s.micro ∧ (∀ i, i < n → smGet 0 u.entries (16 * vt + f + i) = ofBytes (Memory.read s.mem (localKey s.cur.1 (y - localBase + 16 * i)) 16) % 2 ^ 9 + 1)
            ∧ ∀ j, (∀ i, i < n → j ≠ 16 * vt + f + i) → smGet 0 u.entries j = smGet 0 s.entries j)
          ∧ (x / 2 ^ 17 % 2 = 0 → u.entries = s.entries
            ∧ (∀ i, i < n → ∃ w, smGet 0 u.micro (256 * vt + f + i) = w + 1 ∧ w / 2 = ofBytes (Memory.read s.mem (localKey s.cur.1 (y - localBase + 16 * i)) 16) / 2 ∧ popCount w 128 % 2 = 0)
            ∧ ∀ j, (∀ i, i < n → j ≠ 256 * vt + f + i) → smGet 0 u.micro j = smGet 0 s.micro j))))))
  ∧ ((∀ (s : State) (n : Inv), s.invs.find? (fun i => i.id == s.arg.a && i.st == .queued) = some n →
    (∀ sub va, s.invCheck n = .fault sub va → exec .cisternInvocationStart s = .next ((s.invLearn n).invFail n sub va))
    ∧ (∀ pages, s.invCheck n = .ok pages → Answers .cisternInvocationStart s (fun u => u = { s with invs := u.invs, tlbs := u.tlbs, free := u.free } ∧ ∃ m ∈ u.invs, m.id = n.id ∧ m.st = .running ∧ m.pages = pages ∧ m.pos = n.pos ∧ m.ca = n.ca))
    ∧ (s.entryValid n = false → s.invCheck n = .fault 3 0) ∧ (s.entryValid n = true → s.invFormat n = true → s.invCheck n = .fault 2 0)
    ∧ (s.entryValid n = true → s.invFormat n = false → n.offAlign = true → s.invCheck n = .fault 7 0))
  ∧ (∀ (s : State) (n : Inv), s.invs.find? (fun i => i.id == s.arg.a) = some n → s.flippedUse n = false →
    (∀ v, s.invTurn n s.arg.c = .ok v → exec .cisternInvocationCompletion s = .next v)
    ∧ (∀ v d, s.invTurn n s.arg.c = .done v d → exec .cisternInvocationCompletion s = .next (v.invDone n d))
    ∧ (∀ sub va, s.invTurn n s.arg.c = .fail sub va → exec .cisternInvocationCompletion s = .next (s.invFail n sub va))
    ∧ (∀ h va, s.arg.b = 1 → s.invTurn n s.arg.c = .blocked h va → exec .cisternInvocationCompletion s = .next (s.invFail n 0x0B va))
    ∧ (∀ va, n.outs = [] → (s.invReads n).find? (fun w => !(n.unread w).isEmpty) = some va → exec .cisternInvocationCompletion s = .next (s.invSector n ((n.unread va).getD (s.arg.c % (n.unread va).length) va)))
    ∧ (∀ x y live g, n.outs = [] → n.seqs = [] → n.entry = 0 → n.pos < (2 * n.n + 31) / 32 → n.fmt = 0 → n.unread (n.arg 0 + 32 * n.pos) = [] → n.unread (n.arg 1 + 32 * n.pos) = [] →
      x = n.column (n.arg 0 + 32 * n.pos) → y = n.column (n.arg 1 + 32 * n.pos) → live = min 16 (n.n - 16 * n.pos) → g = (s.placeOf n.pages (n.arg 0 + 32 * n.pos)).cistern →
      Answers .cisternInvocationCompletion s (fun u => ∃ m ∈ u.invs, m.id = n.id ∧ m.pos = n.pos + 1
        ∧ (∀ l, l < 16 → (m.acc g).getD l 0 = (fpFmaV .f32 0 (elemOf n live x l) (elemOf n live y l) (Fmt.val .f32 ((n.acc g).getD l 0))).bits)
        ∧ ∀ j, j ≠ g → smGet [] m.ca j = smGet [] n.ca j))
    ∧ (n.outs = [] → n.seqs = [] → n.entry = 0 → n.n ≠ 0 → (2 * n.n + 31) / 32 ≤ n.pos → n.fmt = 0 → exec .cisternInvocationCompletion s = .next (s.invDone n n.fold))
    ∧ (∀ g l, n.entry = 0 → n.ca = [(g, l)] → n.fold = treeFp l))
  ∧ (∀ (s : State) (n : Inv) (sub va k : Nat), sub < 256 → s.ctxOfAgent n.agent = some k → (s.ctx k).ending = false → (s.invFail n sub va).mem = s.mem ∧ (∀ i ∈ (s.invFail n sub va).invs, i.id ≠ n.id)
      ∧ (∀ q ∈ s.reqs, q.id = n.req → { q with sampled := true, data := toBytes (0xFFFFFFFF00000700 + sub) 8 } ∈ (s.invFail n sub va).reqs)
      ∧ (∀ e ∈ (s.core (s.ringCore n.core n.agent n.seq)).ring, e.agent = n.agent → e.seq = n.seq → e.fault = none → { e with fault := some ⟨0x13, sub, BitVec.ofNat 64 va⟩ } ∈ ((s.invFail n sub va).core (s.ringCore n.core n.agent n.seq)).ring))
  ∧ (∀ (s : State) (n : Inv) (d : Nat), n.bad = none → (∀ i ∈ (s.invDone n d).invs, i.id ≠ n.id) ∧ (∀ q ∈ s.reqs, q.id = n.req → { q with sampled := true, data := toBytes (d % 2 ^ 64) 8 } ∈ (s.invDone n d).reqs)
      ∧ ∀ e ∈ ((s.invDone n d).core (s.ringCore n.core n.agent n.seq)).ring, e.agent = n.agent → e.seq = n.seq → e.fault ≠ none)
  ∧ (∀ s : State, Answers .seqReset s (fun u => u.mem = s.mem ∧ (∀ i ∈ s.invs, i.core = 256 + s.arg.a → i.st = .running → i.set / 2 ^ s.arg.b % 2 = 1 → ∀ j ∈ u.invs, j.id ≠ i.id)
      ∧ ∀ i ∈ s.invs, (∀ j ∈ s.invs, j.id = i.id → j.core ≠ 256 + s.arg.a ∨ j.st ≠ .running ∨ j.set / 2 ^ s.arg.b % 2 = 0) → i ∈ u.invs))
  ∧ (∀ s : State, Answers .vaultReset s (fun u => u.mem = s.mem ∧ u.journal = s.journal ∧ u.berr = s.berr ∧ u.free = s.free + 1 ∧ ∀ i ∈ s.invs, i.core = 256 + s.arg.a → i.st = .running → ∀ j ∈ u.invs, j.id ≠ i.id))
  ∧ (∀ s : State, exec .meshRequestResend s = .next s))

/-- R279 to R290, R488: push commands. One without anything to move completes; one that fails a check faults; else it starts. A fill writes its pattern by the address, a copy the source's bytes, a combining copy the FP32 sums of its elements, row by row, one destination sector at a time and nothing else; the command ends once every write has been performed, with its signal. Of four elements compaction keeps the two largest, the lower index first and on ties.
Completes: pushStart, pushCompletion. -/
def Obligations.PushCommands : Prop :=
  (∀ (s : State) (c : Cmd), s.cmd s.arg.a = some c → c.fault = none →
    (c.total = (if c.opc < 2 then (c.slot 3 / 2 ^ 32 % 2 ^ 16 + 1) * (c.slot 3 % 2 ^ 32) else c.slot 4 % 2 ^ 32))
    ∧ (c.total = 0 → exec .pushStart s = .next (s.finishPush c))
    ∧ (∀ x, c.total ≠ 0 → s.sourceWants c = none → (if 2 ≤ c.opc then s.groupFaults c else s.pushFaults c) = [x] → exec .pushStart s = .next (s.failCmd c ⟨0x12, x, 0⟩))
    ∧ (c.total ≠ 0 → s.sourceWants c = none → (s.arg.d = 1 ∨ (s.arg.d = 0 ∧ s.askShape c = none)) → (if 2 ≤ c.opc then s.groupFaults c else s.pushFaults c) = [] → Answers .pushStart s (fun u => u.mem = s.mem ∧ ∃ d ∈ u.cmds, d.id = c.id ∧ d.st = .started ∧ d.pos = c.pos))
    ∧ (s.finishPush c = if c.slot 2 / 2 ^ 11 % 2 = 1 ∧ c.unit < 128 then (s.endCmd c).addSem (16 * c.unit + c.slot 2 / 2 ^ 7 % 16) 1 else s.endCmd c)
    ∧ (c.total ≤ c.pos → c.secs = [] → (∀ r ∈ s.reqs, r.agent ≠ c.agentId) → (∀ a, s.destAt c (c.slot 1) ≠ some (.host a)) → exec .pushCompletion s = .next (s.finishPush c)))
  ∧ (∀ (s : State) (c : Cmd) (o sh ds ss row j n x : Nat), s.cmd s.arg.a = some c → c.fault = none → c.secs = [] → c.user = false → c.slot 2 = 0 → c.slot 1 = localBase + o → o < 65536 → c.pos < c.total →
    sh = c.slot 3 % 2 ^ 32 → ds = (if c.slot 4 % 2 ^ 16 = 0 then sh else 16 * (c.slot 4 % 2 ^ 16)) → ss = (if c.slot 4 / 2 ^ 16 % 2 ^ 16 = 0 then sh else 16 * (c.slot 4 / 2 ^ 16 % 2 ^ 16)) →
    row = c.pos / sh → j = c.pos % sh → x = localKey c.core (o + row * ds + j) → n = min (sh - j) (16 - (o + row * ds + j) % 16) →
    (c.opc = 1 → Answers .pushCompletion s (fun u => u = { s with mem := u.mem, bad := u.bad, cmds := u.cmds } ∧ MemBut x n s u
      ∧ (∀ i, i < n → Memory.byte u.mem (x + i) = BitVec.ofNat 8 (c.slot 0 / 2 ^ (8 * ((o + row * ds + j + i) % 8)))) ∧ ∃ d ∈ u.cmds, d.id = c.id ∧ d.pos = c.pos + n))
    ∧ (∀ p y, c.opc = 0 → c.slot 0 = localBase + p → p < 65536 → y = localKey c.core (p + row * ss + j) →
      (c.flags / 2 % 2 = 0 → Answers .pushCompletion s (fun u => u = { s with mem := u.mem, bad := u.bad, cmds := u.cmds } ∧ MemBut x n s u
        ∧ (∀ i, i < n → Memory.byte u.mem (x + i) = Memory.byte s.mem (y + i)) ∧ ∃ d ∈ u.cmds, d.id = c.id ∧ d.pos = c.pos + n))
      ∧ (c.flags / 2 % 2 = 1 → s.bad = [] → o % 4 = 0 → sh % 4 = 0 → ds % 4 = 0 → j % 4 = 0 → Answers .pushCompletion s (fun u => u = { s with mem := u.mem, bad := u.bad, cmds := u.cmds } ∧ MemBut x n s u
        ∧ (∀ i, 4 * i < n → ofBytes (Memory.read u.mem (x + 4 * i) 4) = (fpAdd .f32 0 (ofBytes (Memory.read s.mem (x + 4 * i) 4)) (ofBytes (Memory.read s.mem (y + 4 * i) 4))).bits % 2 ^ 32)
        ∧ ∃ d ∈ u.cmds, d.id = c.id ∧ d.pos = c.pos + n))))
  ∧ (∀ (ty b : Nat) (x : List Byte) (marks : List Bool) (m : Nat → Nat), (∀ i, m i = magnitude ty (ofBytes ((x.drop (i * b)).take b))) → ∃ i j, i < j ∧ j < 4
    ∧ (compactGroup ty b x marks).1.1 = (x.drop (i * b)).take b ++ (x.drop (j * b)).take b ∧ (compactGroup ty b x marks).2 = i + 4 * j
    ∧ ∀ k, k < 4 → k ≠ i → k ≠ j → (m k ≤ m i ∧ (k < i → m k < m i)) ∧ (m k ≤ m j ∧ (k < j → m k < m j)))

/-- R297 to R317, R331: matrix commands. A flipped word faults PARITY, a wait field joins the semaphore's order, a failing check faults; else the command starts and works step by step, `mma` sector by sector, completing with its signal. `mzero` clears its bank; a block of `mma` adds every partial to its element: in floating point with one rounding, in integers with saturation, poison and NaN records giving their marks, and every other element stays.
R322 to R326, R331: the health queue. `mtest` drops the candidate and the list at its start, and at its end lists the defects that retirement does not cover, in order and once, with a candidate that covers them all; `mremap` needs a candidate, moves every accumulator to its position's new cell, and makes the candidate the map.
Completes: matrixCommandStart, matrixCommandCompletion, healthCommandStart, mtestCompletion, mremapCompletion. -/
def Obligations.MatrixAndHealth : Prop :=
  ((∀ (s : State) (c : Cmd), s.cmd s.arg.a = some c →
    (c.flip ≠ 0 → c.waited = 0 → exec .matrixCommandStart s = .next (s.failCmd c ⟨0x11, 5, 0⟩))
    ∧ (c.flip = 0 → ∀ n k, n = c.slot 4 / 2 ^ 7 % 4 → k = 16 * c.unit + c.slot 4 / 2 ^ 9 % 16 → n ≠ 0 → c.waited = 0 → (s.sem k).order = [] → Answers .matrixCommandStart s (fun u => u.mem = s.mem ∧ u.arrays = s.arrays
      ∧ (if n ≤ (s.sem k).val then (u.sem k).val = (s.sem k).val - n ∧ (u.sem k).order = [] ∧ (∃ d ∈ u.cmds, d.id = c.id ∧ d.waited = 2)
         else (u.sem k).val = (s.sem k).val ∧ (u.sem k).order = [⟨true, c.id, n⟩] ∧ (∃ d ∈ u.cmds, d.id = c.id ∧ d.waited = 1))))
    ∧ ((c.flip = 0 ∧ c.slot 4 / 2 ^ 7 % 4 = 0) ∨ c.waited ≠ 0 → s.matrixFree c = true →
      (∀ sub o, s.matrixFault c = some (sub, o) → exec .matrixCommandStart s = .next (s.failCmd c ⟨0x11, sub, BitVec.ofNat 64 o⟩))
      ∧ (s.matrixFault c = none → Answers .matrixCommandStart s (fun u => u = { s with cmds := u.cmds } ∧ ∃ d ∈ u.cmds, d.id = c.id ∧ d.st = .started ∧ d.ranges = c.reads)))
    ∧ (c.matrixSteps ≤ c.pos → c.fault = none → exec .matrixCommandCompletion s = .next ((s.endCmd c).addSem (16 * c.unit + c.slot 4 / 2 ^ 3 % 16) (c.slot 4 / 2 % 4)))
    ∧ (∀ l, c.matrixSteps ≤ c.pos → c.fault = some l → exec .matrixCommandCompletion s = .next ((s.failCmd c l).addSem (16 * c.unit + c.slot 4 / 2 ^ 3 % 16) (c.slot 4 / 2 % 4)))
    ∧ (c.pos < c.matrixSteps → Answers .matrixCommandCompletion s (fun u => u.ctxs = s.ctxs ∧ (c.opc < 4 → u.mem = s.mem) ∧ (c.opc = 4 → u.arrays = s.arrays) ∧ (∀ t, t ≠ c.unit → u.array t = s.array t)
      ∧ ((c.opc = 1 ∨ c.opc = 2 ∨ c.opc = 3 ∨ (c.opc = 4 ∧ c.win ≠ 6)) → ∃ d ∈ u.cmds, d.id = c.id ∧ d.pos = c.pos + 1)
      ∧ (c.opc = 4 → c.win = 6 → ∃ d ∈ u.cmds, d.id = c.id ∧ (d.pos = c.pos + 1 ∨ (d.pos = c.pos ∧ c.work.length < d.work.length)))
      ∧ (c.opc = 0 → ∃ d ∈ u.cmds, d.id = c.id ∧ (d.pos = c.pos + 1 ∨ (d.pos = c.pos ∧ c.secs.length < d.secs.length)))))
    ∧ (c.opc = 2 → c.pos = 0 → Answers .matrixCommandCompletion s (fun u => ∀ r q, r ∈ dimMap (s.array c.unit).retRows → q ∈ dimMap (s.array c.unit).retCols →
        smGet 0 (u.array c.unit).acc ((c.slot 4 / 2 ^ 21 % 2) * 4356 + r * 66 + q) = 0))
    ∧ (∀ o, c.opc = 0 → c.slot 4 / 2 ^ 24 % 16 < 8 → c.pos < c.matrixSteps → (c.passSectors c.pos 0).drop c.secs.length = [o] → Answers .matrixCommandCompletion s (fun u =>
        u.array c.unit = (s.array c.unit).mmaBlock c (c.mmaPass 0 (c.secs ++ [(o, s.scratchRead c.unit o 16)])).1 ∧ ∃ d ∈ u.cmds, d.id = c.id ∧ d.pos = c.pos + 1)))
  ∧ (∀ (a : ArraySt) (c : Cmd) (b : BlockScratch) (i j k fl : Nat) (p : Int) (x : Nat) (bad : Bool), i < c.m → j < c.n → c.m ≤ (dimMap a.retRows).length → c.n ≤ (dimMap a.retCols).length →
    k = c.bank * 4356 + (dimMap a.retRows).getD i 0 * 66 + (dimMap a.retCols).getD j 0 → fl = pairFlags (b.fa.getD i 0) (b.fb.getD j 0) → p = b.ps.getD (i * c.n + j) 0 → x = smGet 0 a.acc k → bad = smGet false a.accBad k →
    (c.mode = 1 → fl = 0 → smGet 0 (a.mmaBlock c b).acc k = wrapN (min (max (sextInt (if bad then 0x80000000 else x) 32 + p) (-2147483648)) 2147483647) 32)
    ∧ (c.mode = 1 → fl ≠ 0 → smGet 0 (a.mmaBlock c b).acc k = 0x80000000)
    ∧ (c.mode = 0 → fl = 2 → smGet 0 (a.mmaBlock c b).acc k = 0x7FC00BAD)
    ∧ (c.mode = 0 → fl = 1 → smGet 0 (a.mmaBlock c b).acc k = if bad ∨ x = 0x7FC00BAD then 0x7FC00BAD else 0x7FC00000)
    ∧ (c.mode = 0 → fl = 0 → p = 0 → smGet 0 (a.mmaBlock c b).acc k = x ∧ smGet false (a.mmaBlock c b).accBad k = bad)
    ∧ (c.mode = 0 → fl = 0 → p ≠ 0 → smGet 0 (a.mmaBlock c b).acc k
        = if bad then 0x7FC00BAD else (fpAddV .f32 0 (Fmt.val .f32 x) (.num ⟨decide (p < 0), p.natAbs, (b.ea.getD i 0 : Int) + (b.eb.getD j 0 : Int) - 254⟩)).bits))
  ∧ (∀ (a : ArraySt) (c : Cmd) (b : BlockScratch) (k : Nat), (∀ i j, i < c.m → j < c.n → k ≠ c.bank * 4356 + (dimMap a.retRows).getD i 0 * 66 + (dimMap a.retCols).getD j 0) → smGet 0 (a.mmaBlock c b).acc k = smGet 0 a.acc k))
  ∧ ((∀ (s : State) (c : Cmd) (a : ArraySt), s.cmd s.arg.a = some c → a = s.array c.unit →
    (c.flip ≠ 0 → exec .healthCommandStart s = .next (s.failCmd c ⟨0x11, 5, 0⟩))
    ∧ (c.flip = 0 → (c.slot 0 ≠ 0 ∨ c.slot 1 ≠ 0 ∨ c.slot 2 ≠ 0 ∨ c.slot 3 ≠ 0) → exec .healthCommandStart s = .next (s.failCmd c ⟨0x11, 1, 0⟩))
    ∧ (c.flip = 0 → c.badHealth = false → c.opc = 0 → Answers .healthCommandStart s (fun u => u.array c.unit = { a with running := true, cand := none, defects := [], count := 0 }
      ∧ u = { s with arrays := u.arrays, cmds := u.cmds } ∧ ∃ d ∈ u.cmds, d.id = c.id ∧ d.st = .started))
    ∧ (c.flip = 0 → c.badHealth = false → c.opc = 1 → a.cand = none → exec .healthCommandStart s = .next (s.failCmd c ⟨0x11, 9, 0⟩))
    ∧ (c.flip = 0 → c.badHealth = false → c.opc = 1 → a.cand ≠ none → Answers .healthCommandStart s (fun u => u = { s with cmds := u.cmds } ∧ ∃ d ∈ u.cmds, d.id = c.id ∧ d.st = .started))
    ∧ (c.tl ≠ 4 → Answers .mtestCompletion s (fun u => CmdGone s u c ∧ ((s.ctxOfAgent c.agent ≠ none ∨ s.storedOf c.agent = none) → u.mem = s.mem) ∧ ∃ b, u.array c.unit = b ∧ b.running = false ∧ b.acc = a.acc ∧ b.retRows = a.retRows ∧ b.retCols = a.retCols
      ∧ ∃ rs cs, b.cand = some (rs, cs) ∧ (∀ r, r < 66 → r ∈ a.retRows → r ∈ rs) ∧ (∀ q, q < 66 → q ∈ a.retCols → q ∈ cs)
        ∧ (∀ d ∈ b.defects, (d.2.2 = 0 → d.1 ∉ a.retRows ∧ d.2.1 ∉ a.retCols) ∧ (d.2.2 = 1 → d.1 ∉ a.retRows ∧ d.1 ∈ rs) ∧ (d.2.2 = 2 → d.2.1 ∉ a.retCols) ∧ (d.2.2 ≠ 1 → d.2.1 ∈ cs))
        ∧ b.defects.length ≤ 64 ∧ b.defects.length ≤ b.count ∧ b.count ≤ 255 ∧ b.defects.Pairwise (fun d e => d.1 < e.1 ∨ d.1 = e.1 ∧ (d.2.1 < e.2.1 ∨ d.2.1 = e.2.1 ∧ d.2.2 < e.2.2)))))
  ∧ (∀ (s : State) (c : Cmd) (a b : ArraySt) (rs cs : List Nat), s.cmd s.arg.a = some c → a = s.array c.unit → a.cand = some (rs, cs) → b = a.remapped rs cs →
    Answers .mremapCompletion s (fun u => u.array c.unit = b ∧ ((s.ctxOfAgent c.agent ≠ none ∨ s.storedOf c.agent = none) → (b.shapeWord = a.shapeWord ∨ (s.tile c.unit).owner = none) → u.mem = s.mem)) ∧ b.retRows = rs ∧ b.retCols = cs ∧ b.cand = none ∧ b.sticky = a.sticky ∧ b.owner = a.owner
    ∧ ∀ bank i j, bank < 2 → i < b.rows → j < b.cols → smGet 0 b.acc (bank * 4356 + (dimMap rs).getD i 0 * 66 + (dimMap cs).getD j 0) = smGet 0 a.acc (bank * 4356 + (dimMap a.retRows).getD i 0 * 66 + (dimMap a.retCols).getD j 0)))

/-- R433, R435 to R443: collectives. A command without elements completes at once; a failing check faults; else the member joins its instance with its contribution. A node takes in the packets of a value, and passes on the combination of its children's values and its own: up to its parent, at the root down. A member that takes delivery writes the result, the others end when their parent has taken theirs; an instance that is not complete within 10 ms faults.
Completes: collectiveNode, collectiveCompletion, collectiveTimeout, collectiveCommandStart. -/
def Obligations.Collectives : Prop :=
  (∀ (s : State) (c : Cmd), s.cmd s.arg.a = some c →
    (c.slot 3 % 2 ^ 20 = 0 → exec .collectiveCommandStart s = .next ((s.collRecord c 0).endCmd c))
    ∧ (∀ pa, c.slot 3 % 2 ^ 20 ≠ 0 → s.collWants c = some pa → exec .collectiveCommandStart s = .next (s.ask pa 8))
    ∧ (∀ x, c.slot 3 % 2 ^ 20 ≠ 0 → s.collWants c = none → s.collFaults c = [x] → exec .collectiveCommandStart s = .next ((s.collRecord c x).failCmd c ⟨0x12, x, 0⟩))
    ∧ (∀ g, c.slot 3 % 2 ^ 20 ≠ 0 → s.collWants c = none → s.collFaults c = [] → s.group c.tenant c.handle = some g → c.opc = 2 → g.rank ≠ c.rootRank → s.coll c.tenant c.handle c.tag = none →
      Answers .collectiveCommandStart s (fun u => u.mem = s.mem ∧ (∃ d ∈ u.cmds, d.id = c.id ∧ d.st = .started)
        ∧ u.colls = s.colls ++ [{ Coll.open c.tenant c.handle c.tag with params := c.shared, cmd := some c.id }] ∧ u.outbox = s.outbox))
    ∧ (c.cls = .collective → c.st = .started → c.work.getD 2 0 + 10000000 ≤ s.time → exec .collectiveTimeout s = .next (s.failColl c 0x12 0))
    ∧ (s.time < c.work.getD 2 0 + 10000000 → exec .collectiveTimeout s = .next s)
    ∧ (∀ k g, s.collOf c = some k → s.group c.tenant c.handle = some g →
      (∀ sub, k.fault = some sub → exec .collectiveCompletion s = .next (s.failColl c sub 0))
      ∧ (k.fault = none → receives k.params g.rank = false → k.taken = true → c.fault = none → exec .collectiveCompletion s = .next (((s.collRecord c 0).leaveColl c).endCmd c))
      ∧ (k.fault = none → receives k.params g.rank = true → k.result ≠ none → (k.bytes g.rank).length ≤ c.pos → (∀ r ∈ s.reqs, r.agent ≠ c.agentId) → c.fault = none →
          exec .collectiveCompletion s = .next (((s.collRecord c 0).leaveColl c).endCmd c))
      ∧ (∀ d n, k.fault = none → receives k.params g.rank = true → k.result ≠ none → c.pos < (k.bytes g.rank).length → c.collSide (c.slot 1) = some d → n = chunkLen (d.plus c.pos) ((k.bytes g.rank).length - c.pos) →
          ∀ v m, s.writeSide c (d.plus c.pos) (((k.bytes g.rank).drop c.pos).take n) [] false = .ok v m → Answers .collectiveCompletion s (fun u => u.mem = v.mem ∧ (∀ q ∈ v.cmds, q.id = c.id → ∃ e ∈ u.cmds, e.id = c.id ∧ e.pos = q.pos + n)))))
  ∧ (∀ (s : State) (g : Group) (k : Coll), s.anyGroup s.arg.w.toNat s.arg.b = some g → g.multi = true → s.coll s.arg.w.toNat s.arg.b s.arg.d = some k → k.fault = none → k.sent = false →
    (∀ v, s.arg.a = 0 → k.value g.rank g.cubes.length = some v → g.rank ≠ 0 → exec .collectiveNode s = .next ((s.putColl { k with sent := true }).collData g k (parentRank g.rank) 1 k.params v))
    ∧ (∀ v, s.arg.a = 0 → k.value g.rank g.cubes.length = some v → g.rank = 0 → exec .collectiveNode s = .next ((s.putColl { k with sent := true, taken := true, result := some v }).collDown g k k.params v))
    ∧ (∀ p j, s.arg.a = 1 → p = (s.arg.words.map (·.toNat)).take 8 → (k.params = [] ∨ k.params = p) →
      (∀ v, k.gather (2 ^ 13 + s.arg.e) s.arg.c (collTotal p g.cubes.length) ((s.arg.words.map (·.toNat)).drop 8) = (some v, j) → exec .collectiveNode s = .next ((s.collSend g j s.arg.e 4 0 []).putColl { j with params := p, vals := j.vals ++ [(s.arg.e, v)] }))
      ∧ (k.gather (2 ^ 13 + s.arg.e) s.arg.c (collTotal p g.cubes.length) ((s.arg.words.map (·.toNat)).drop 8) = (none, j) → exec .collectiveNode s = .next (s.putColl { j with params := p })))
    ∧ (s.arg.a = 4 → exec .collectiveNode s = .next (s.putColl { k with taken := true })))
  ∧ (∀ (k : Coll) (key first n : Nat) (v : List Nat), (∀ q ∈ k.parts, q.1 ≠ key) → (n ≤ v.length → k.gather key first n v = (some v, k)) ∧ (v.length < n → k.gather key first n v = (none, { k with parts := k.parts ++ [(key, first, v)] })))
  ∧ (∀ (p : List Nat) (a b : List Nat) (i : Nat), i < a.length → i < b.length → p.getD 5 0 = 0 → (collNode p a b).getD i 0 = (match p.getD 2 0 with
      | 0 => (fpAdd .f32 0 (a.getD i 0) (b.getD i 0)).bits
      | 1 => (fpMinMax .f32 true (a.getD i 0) (b.getD i 0)).bits
      | _ => (fpMinMax .f32 false (a.getD i 0) (b.getD i 0)).bits))
  ∧ (∀ rank n, 0 < rank → rank < n → n ≤ 8192 → parentRank rank < rank ∧ rank ∈ childRanks (parentRank rank) n ∧ ∀ r, rank ∈ childRanks r n → r = parentRank rank)

/-- R118, R361, R368 to R370: an idle steward takes the head of its core's event queue: a tenant event enters the tenant's handler at tvec + 0x80 in supervisor mode with the cause, value and payload in its registers, cleared when the tenant changes; a firmware command waits for its handler; an event of a tenant without a handler is dropped and counted. TIMER and WATCHDOG set the tenant's compare and limit on the core; the compare raises its event once and then reads 0, a user context that has not issued for the limit raises its event once.
R379: `ctx.kill` answers 0 and marks the thread of the name, found resident or stored, as dying; 2 for none or one that is ending, 6 for a steward or another tenant's thread; its own name and bits [63:32] trap ILLEGAL, user mode PRIV.
Completes: ctxKill, stewardEvent, timer, timerExpiry, watchdog, watchdogExpiry, message. -/
def Obligations.StewardEvents : Prop :=
  ((∀ (s : State) (e : StewEvent) (l : List StewEvent) (k : Nat), (s.core s.arg.a).queue = e :: l → k = s.arg.a * 16 + 8 →
    (e.fw = true → ∀ i ∈ [Instr.stewardEvent, .message], Answers i s (fun u => u = { s with cores := u.cores } ∧ (u.core s.arg.a).event = some e ∧ (u.core s.arg.a).queue = l ++ (s.core s.arg.a).waiting.take 1
      ∧ (u.core s.arg.a).waiting = (s.core s.arg.a).waiting.drop 1 ∧ ∀ j, j ≠ s.arg.a → u.core j = s.core j))
    ∧ (e.fw = false → (s.tenant e.tenant).tvec ≠ 0 → ∀ i ∈ [Instr.stewardEvent, .message], Answers i s (fun u => u = { s with cores := u.cores, ctxs := u.ctxs } ∧ (u.core s.arg.a).queue = l ++ (s.core s.arg.a).waiting.take 1
      ∧ (∀ j, j ≠ k → u.ctx j = s.ctx j) ∧ ∀ x, x = u.ctx k → x.occ = true ∧ x.tenant = e.tenant ∧ x.priv = .supervisor ∧ x.pc = (s.tenant e.tenant).tvec + 0x80 ∧ x.tval = e.val ∧ x.tsub = BitVec.ofNat 64 e.sub ∧ x.park = none
        ∧ x.tcause = BitVec.ofNat 64 (e.cause + (if 0x10 ≤ e.cause ∧ e.cause ≤ 0x13 then 2 ^ 8 else 0) + (if e.orphan = true then 2 ^ 9 else 0))
        ∧ (e.words ≠ [] → (∀ j, j < 6 → x.cell (3 + j) = ⟨e.words.getD (j + 1) 0, .full, false⟩) ∧ x.cell 9 = ⟨e.words.getD 0 0, .full, false⟩)
        ∧ ((s.core s.arg.a).prevTen = some e.tenant → ∀ r, (r < 3 ∨ 9 < r ∨ e.words = []) → x.cell r = (s.ctx k).cell r)
        ∧ ((s.core s.arg.a).prevTen ≠ some e.tenant → ∀ r, (r < 3 ∨ 9 < r ∨ e.words = []) → x.cell r = ⟨0, .full, false⟩)))
    ∧ (e.fw = false → (s.tenant e.tenant).tvec = 0 → ∀ i ∈ [Instr.stewardEvent, .message], Answers i s (fun u => (∀ j, j ≠ k → u.ctx j = s.ctx j) ∧ u.mem = s.mem ∧ u.fwTraps = s.fwTraps + 1 ∧ (u.core s.arg.a).event = none)))
  ∧ (∀ (s : State) (e : StewEvent), (s.core s.arg.a).event = some e → e.fw = true →
    (e.cmd = 3 → exec .timer s = .next ((s.setCore s.arg.a { s.core s.arg.a with compare := smPut 0 (s.core s.arg.a).compare e.tenant (e.words.getD 1 0).toNat }).fwEnd s.arg.a))
    ∧ (e.cmd = 4 → exec .watchdog s = .next ((s.setCore s.arg.a { s.core s.arg.a with limit := smPut 0 (s.core s.arg.a).limit e.tenant (e.words.getD 1 0).toNat }).fwEnd s.arg.a)))
  ∧ (∀ (s : State) (v : Nat) (c : CoreSt), c = s.core s.arg.a → v = smGet 0 c.compare s.arg.b → (v = 0 ∨ s.time < v → exec .timerExpiry s = .next s)
    ∧ (v ≠ 0 → v ≤ s.time → exec .timerExpiry s = .next ((s.setCore s.arg.a { c with compare := smPut 0 c.compare s.arg.b 0 }).raise s.arg.a (StewEvent.of s.arg.b 0x21 0 v))))
  ∧ (∀ (s : State) (x : Ctx) (n : Nat), x = s.ctx s.arg.a → n = smGet 0 (s.core (s.arg.a / 16)).limit x.tenant →
    (x.occ = true → s.arg.a % 16 ≠ 8 → x.barked = false → n ≠ 0 → x.park ≠ some .away → 6 * n ≤ 5 * (s.cycle - x.issued) →
      exec .watchdogExpiry s = .next ((s.setCtx s.arg.a { x with barked := true }).raise (s.arg.a / 16) (StewEvent.of x.tenant 0x22 0 x.name)))
    ∧ ((x.barked = true ∨ n = 0 ∨ 5 * (s.cycle - x.issued) < 6 * n) → exec .watchdogExpiry s = .next s)))
  ∧ (∀ (s : State) (d a : Reg) (t : Bool) (n : Nat) (w : State), s.issues ⟨[(a, t)], [], [d], []⟩ = true → s.cur.1 < 320 → n = (s.val a).toNat → w = s.popAll [(a, t)] →
    ((2 ^ 32 ≤ n ∨ n = s.myName) → (a.val < 60 ∨ s.self.priv ≠ .user) → exec (.ctxKill d a t) s = .next (s.trap 0x01 0x0D (BitVec.ofNat 64 ((encode (.ctxKill d a t)).headD 0))))
    ∧ (n < 2 ^ 32 → n ≠ s.myName →
      (s.self.priv = .user → exec (.ctxKill d a t) s = .next (s.trap 0x02 0 (BitVec.ofNat 64 ((encode (.ctxKill d a t)).headD 0))))
      ∧ (s.self.priv ≠ .user →
        (isStewardEnd n = true → exec (.ctxKill d a t) s = .next ((w.later d 6).finish (.ctxKill d a t)))
        ∧ (isStewardEnd n = false →
          (∀ k, s.findThread n = some (.ctx k) → ((s.ctx k).tenant ≠ s.self.tenant → exec (.ctxKill d a t) s = .next ((w.later d 6).finish (.ctxKill d a t)))
            ∧ ((s.ctx k).tenant = s.self.tenant → (s.ctx k).ending = true → exec (.ctxKill d a t) s = .next ((w.later d 2).finish (.ctxKill d a t)))
            ∧ ((s.ctx k).tenant = s.self.tenant → (s.ctx k).ending = false → exec (.ctxKill d a t) s = .next (((w.setCtx k { w.ctx k with dying := true }).later d 0).finish (.ctxKill d a t))))
          ∧ (∀ q, s.findThread n = some (.stored q) → q.ctx.tenant = s.self.tenant → q.slot < 24 → exec (.ctxKill d a t) s = .next (((w.killStored q).later d 0).finish (.ctxKill d a t)))
          ∧ (s.findThread n = none → s.peers = [] → exec (.ctxKill d a t) s = .next ((w.later d 2).finish (.ctxKill d a t)))))))

/-- R157, R369, R432: GROUP-CREATE makes a group of this cube at once, refuses a handle that exists with 5 and a tenant's 1,025th group with 6, and holds one over cubes back until it is live; GROUP-DISSOLVE removes a group, with 2 for none; a creation that is not live within 10 ms is discarded with 2.
R433, R434: across cubes, a cube whose local members have all arrived sends its arrival up the tree; the root, once every rank has arrived, releases the generation down the tree; a release closes the generation on the cube, keeps the arrival offsets in the record, and goes on to the children.
Completes: groupCreate, groupDissolve, groupLive, groupCreateTimeout, cubeArrival, cubeRelease. -/
def Obligations.GroupCommands : Prop :=
  ((∀ (s : State) (e : StewEvent) (h : Nat), (s.core s.arg.a).event = some e → e.fw = true → h = (e.words.getD 1 0).toNat % 2 ^ 32 →
    (e.cmd = 5 → (s.anyGroup e.tenant h ≠ none → exec .groupCreate s = .next ((s.groupResult .groupCreate e.src h 5).fwEnd s.arg.a))
      ∧ (s.anyGroup e.tenant h = none → 1024 ≤ s.groupCount e.tenant → exec .groupCreate s = .next ((s.groupResult .groupCreate e.src h 6).fwEnd s.arg.a))
      ∧ (s.anyGroup e.tenant h = none → s.groupCount e.tenant < 1024 → (e.words.getD 4 0).toNat < 2 ^ 63 → Answers .groupCreate s (fun u => u.mem = s.mem ∧ u.ctxs = s.ctxs ∧ (u.core s.arg.a).event = none
        ∧ ∃ g, u.groups = s.groups ++ [g] ∧ g.tenant = e.tenant ∧ g.handle = h ∧ g.members = [] ∧ g.gen = 0 ∧ g.opened = none ∧ g.record = [] ∧ g.live = true ∧ g.cubes = []
          ∧ ((e.words.getD 2 0 ≠ 0 ∨ e.words.getD 3 0 ≠ 0) → g.t = (e.words.getD 2 0).toNat ∧ g.l = (e.words.getD 3 0).toNat % 32 ∧ g.m = (e.words.getD 3 0).toNat / 2 ^ 8 % 32)))
      ∧ (s.anyGroup e.tenant h = none → s.groupCount e.tenant < 1024 → 2 ^ 63 ≤ (e.words.getD 4 0).toNat → (e.words.getD 5 0).toNat < 2 → exec .groupCreate s = .next ((s.groupResult .groupCreate e.src h 6).fwEnd s.arg.a)))
    ∧ (e.cmd = 6 → s.arg.b ≠ 1 → (s.group e.tenant h = none → exec .groupDissolve s = .next ((s.groupResult .groupDissolve e.src h 2).fwEnd s.arg.a))
      ∧ (∀ g, s.group e.tenant h = some g → g.cubes = [] → g.tenant = e.tenant → g.handle = h → exec .groupDissolve s = .next (((s.dissolve e.tenant h).groupResult .groupDissolve e.src h 0).fwEnd s.arg.a))))
  ∧ (∀ (s : State) (t h : Nat), (∀ g ∈ (s.dissolve t h).groups, ¬ (g.tenant = t ∧ g.handle = h)) ∧ (s.dissolve t h).mem = s.mem ∧ (∀ g ∈ s.groups, ¬ (g.tenant = t ∧ g.handle = h) → g ∈ (s.dissolve t h).groups))
  ∧ (∀ s : State, s.anyGroup s.arg.a s.arg.b = none → s.arg.d = 1 → exec .groupLive s = .next { s with births := s.births ++ [⟨s.arg.a, s.arg.b, s.arg.e, s.time, s.arg.words⟩] })
  ∧ (∀ (s : State) (g : Group), s.anyGroup s.arg.a s.arg.b = some g →
    (g.live = true → exec .groupLive s = .next s ∧ exec .groupCreateTimeout s = .next s)
    ∧ (g.live = false → g.cubes ≠ [] → s.arg.d = 1 → s.arg.words ≠ g.digest → exec .groupLive s = .next s)
    ∧ (g.live = false → g.cubes ≠ [] → s.arg.d = 2 → Answers .groupLive s (fun u => u.mem = s.mem ∧ u.ctxs = s.ctxs ∧ ∃ q ∈ u.groups, q.tenant = g.tenant ∧ q.handle = g.handle ∧ q.live = true ∧ q.cubes = g.cubes))
    ∧ (g.live = false → s.time < g.since + 10000000 → exec .groupCreateTimeout s = .next s)
    ∧ (g.live = false → g.since + 10000000 ≤ s.time → Answers .groupCreateTimeout s (fun u => u.mem = s.mem ∧ ∀ q ∈ u.groups, ¬ (q.tenant = g.tenant ∧ q.handle = g.handle)))))
  ∧ ((∀ (s : State) (g : Group), s.group s.arg.a s.arg.b = some g →
    (s.arg.words = [] → g.cubeDue = false → g.nodeFull = false → Answers .cubeArrival s (fun u => u.mem = s.mem ∧ u.ctxs = s.ctxs ∧ u.outbox = s.outbox))
    ∧ (∀ r v, s.arg.words = [r, v] → s.arg.c = 0 → v ≠ 0 → Answers .cubeArrival s (fun u => u.mem = s.mem ∧ u.ctxs = s.ctxs
        ∧ (g.handle = s.arg.b → g.tenant = s.arg.a → ∃ q ∈ u.groups, q.tenant = g.tenant ∧ q.handle = g.handle ∧ q.gen = g.gen ∧ smGet 0 q.cubesIn r.toNat = v.toNat ∧ ∀ j, j ≠ r.toNat → smGet 0 q.cubesIn j = smGet 0 g.cubesIn j)))
    ∧ (s.arg.words = [] → (g.rank ≠ 0 ∨ g.nodeFull = false) → exec .cubeRelease s = .next s)
    ∧ ((s.arg.words ≠ [] ∨ g.rank = 0 ∧ g.nodeFull = true ∧ g.cut = false) → g.tenant = s.arg.a → g.handle = s.arg.b → Answers .cubeRelease s (fun u => u.mem = s.mem ∧ u.ctxs = s.ctxs
        ∧ (∃ q ∈ u.groups, q.tenant = g.tenant ∧ q.handle = g.handle ∧ q.gen = g.gen + 1 ∧ q.opened = none ∧ q.arrived = [] ∧ q.cubesIn = [] ∧ q.members = g.members)
        ∧ ∀ q ∈ s.groups, ¬ (q.tenant = g.tenant ∧ q.handle = g.handle) → q ∈ u.groups)))
  ∧ (∀ (g : Group) (r : Nat), g.nodeFull = true → g.rank ≤ r → r < nodeEnd g.rank g.cubes.length → smGet 0 g.cubesIn r ≠ 0))

/-- R369, R371 to R377: PREEMPT refuses a steward's name and another tenant's thread with 6, an unknown one with 2 and a held one with 5; a spilled thread is held where it is; a resident one stops at an instruction boundary, drains, and goes with its registers into a frame of two free slots, its context freed. Without free slots for 100 µs it issues again with 1. RESUME makes a held thread ready. A frame gives back what it holds.
R462 to R466: the events of stealing: a victim answers a request of a cancelled job with 4, of a group or a cube that may not steal with 6, and else lends at most half of its eligible parcels, with a lend number one higher and an expiry later than every earlier one. The thief places what it gets, frees the slots it had kept and writes the status. A report that matches the current lend ends it, another is counted; an expiry makes a LENT parcel QUEUED, and drops a borrowed one.
Completes: preempt, preemptGiveUp, resume, stealRequest, stealAnswer, doneReport, returnReport, leaseExpiry, borrowedExpiry. -/
def Obligations.PreemptionAndSteals : Prop :=
  ((∀ (s : State) (e : StewEvent) (n : Nat), (s.core s.arg.a).event = some e → e.fw = true → e.cmd = 1 → n = (e.words.getD 1 0).toNat % 2 ^ 32 →
    (isStewardEnd n = true → exec .preempt s = .next (s.fwReply s.arg.a e 2 6))
    ∧ (isStewardEnd n = false → s.residentNamed s.arg.a n = none → s.spilledNamed s.arg.a n = none → exec .preempt s = .next (s.fwReply s.arg.a e 2 2))
    ∧ (∀ t, isStewardEnd n = false → s.residentNamed s.arg.a n = none → s.spilledNamed s.arg.a n = some t →
      (t.ctx.tenant ≠ e.tenant → exec .preempt s = .next (s.fwReply s.arg.a e 2 6)) ∧ (t.ctx.tenant = e.tenant → t.held = true → exec .preempt s = .next (s.fwReply s.arg.a e 2 5))
      ∧ (t.ctx.tenant = e.tenant → t.held = false → exec .preempt s = .next ((s.mapStored t.ctx.uid (fun (q : Stored) => { q with held := true })).fwReply s.arg.a e 2 0)))
    ∧ (∀ k, isStewardEnd n = false → s.residentNamed s.arg.a n = some k →
      (((s.ctx k).tenant ≠ e.tenant ∨ (s.ctx k).home ≠ none) → exec .preempt s = .next (s.fwReply s.arg.a e 2 6))
      ∧ (s.victim s.arg.a e.tenant n = .ctx k → (s.ctx k).stopped = none → s.mayStop k = true → exec .preempt s = .next (s.setCtx k { s.ctx k with stopped := some s.cycle }))
      ∧ (s.victim s.arg.a e.tenant n = .ctx k → (s.ctx k).stopped ≠ none → s.semTaken k = true → exec .preempt s = .next (s.setCtx k { s.ctx k with stopped := none }))
      ∧ (∀ v, s.victim s.arg.a e.tenant n = .ctx k → (s.ctx k).stopped ≠ none → s.semTaken k = false → s.preemptDrained k = true → v = (s.suspendInvs (s.ctx k).uid).leaveSems k →
        (v.freePair s.arg.a = none → e.seq = 0 → exec .preempt s = .next (v.fwNote s.arg.a (v.cycle + 1)))
        ∧ (∀ slot, v.freePair s.arg.a = some slot → k / 16 = s.arg.a → v.pinQ k = [] → v.ntOf (s.ctx k).uid = [] → Answers .preempt s (fun u => u.ctx k = (v.ctx k).freed ∧ (∀ j, j ≠ k → j ≠ s.arg.a * 16 + 8 → u.ctx j = v.ctx j)
          ∧ u.mem = Memory.write v.mem (localKey s.arg.a (0xD000 + 512 * slot)) ((v.ctx k).frameBytes s.arg.a (v.ctx k).parkedOn) ∧ (u.core s.arg.a).event = none
          ∧ ∃ t : Stored, t ∈ u.stored ∧ t.core = s.arg.a ∧ t.slot = slot ∧ t.frame = true ∧ t.held = true ∧ t.ready = false ∧ t.ctx.name = (s.ctx k).name ∧ t.ctx.uid = (s.ctx k).uid))))
    ∧ (∀ k, s.victim s.arg.a e.tenant n = .ctx k → ((e.seq = 0 ∨ 5 * (s.cycle - (e.seq - 1)) < 600000 ∨ s.freePair s.arg.a ≠ none) → exec .preemptGiveUp s = .next s)
      ∧ (e.seq ≠ 0 → 600000 ≤ 5 * (s.cycle - (e.seq - 1)) → s.freePair s.arg.a = none →
        exec .preemptGiveUp s = .next (((s.setCtx k { s.ctx k with stopped := none }).resumeInvs (s.ctx k).uid).fwReply s.arg.a e 2 1))))
  ∧ (∀ (s : State) (e : StewEvent) (n : Nat), (s.core s.arg.a).event = some e → e.fw = true → e.cmd = 2 → n = (e.words.getD 1 0).toNat % 2 ^ 32 →
    (s.spilledNamed s.arg.a n = none → s.heldNamed s.arg.a n = none → exec .resume s = .next (s.fwReply s.arg.a e 3 2))
    ∧ (∀ t, s.spilledNamed s.arg.a n = some t → (t.ctx.tenant ≠ e.tenant → exec .resume s = .next (s.fwReply s.arg.a e 3 6))
      ∧ (t.ctx.tenant = e.tenant → (e.words.getD 2 0) = BitVec.allOnes 64 → s.arg.a < 320 → (t.held = false → exec .resume s = .next (s.fwReply s.arg.a e 3 5))
        ∧ (t.held = true → exec .resume s = .next ((s.mapStored t.ctx.uid (fun (q : Stored) => { q with held := false, ready := true })).fwReply s.arg.a e 3 0)))))
  ∧ (∀ (x y : Ctx) (core reg : Nat), x.pc.toNat % 4 = 0 → x.loops.length ≤ 4 → x.shadow.length ≤ 4 → x.prio < 4 → reg < 60 → x.live.toNat < 2 ^ 60 → y = ({ x with regs := [] } : Ctx).fromFrame core (x.frameBytes core reg) →
    (x.frameBytes core reg).length = 1024 ∧ y.pc = x.pc ∧ y.live = x.live ∧ y.loops = x.loops ∧ y.shadow = x.shadow ∧ y.prio = x.prio ∧ y.sig = x.sig ∧ y.priv = x.priv
    ∧ y.tcause = x.tcause ∧ y.tpc = x.tpc ∧ y.tval = x.tval ∧ y.tseq = x.tseq ∧ y.tsub = x.tsub ∧ y.sigctl = x.sigctl
    ∧ (x.fmode.toNat < 4 → y.fmode = x.fmode) ∧ (x.fflags.toNat < 64 → y.fflags = x.fflags)
    ∧ (∀ r, r ≠ 0 → r < 60 → x.live.getLsbD r = true → y.cell r = x.cell r) ∧ ∀ r, (r = 0 ∨ 60 ≤ r ∨ x.live.getLsbD r = false) → y.cell r = ⟨0, .full, false⟩))
  ∧ ((∀ s : State,
    (s.cancelled (s.arg.words.getD 0 0).toNat (s.arg.words.getD 1 0).toNat = true → exec .stealRequest s = .next (s.sendTo s.arg.a 3 .stealAnswer { EvArg.zero with a := s.arg.b, b := s.cube, c := 4 }))
    ∧ (s.cancelled (s.arg.words.getD 0 0).toNat (s.arg.words.getD 1 0).toNat = false →
      (s.group (s.arg.words.getD 0 0).toNat s.arg.e = none → exec .stealRequest s = .next (s.sendTo s.arg.a 3 .stealAnswer { EvArg.zero with a := s.arg.b, b := s.cube, c := 6 }))
      ∧ (∀ g, s.group (s.arg.words.getD 0 0).toNat s.arg.e = some g →
        ((g.cubes = [] ∨ s.arg.a = s.cube ∨ s.arg.a ∉ g.cubes ∨ ((s.stealRule g.tenant g.handle).1 ≠ 1 ∧ s.arg.a ∉ s.neighbours)) → exec .stealRequest s = .next (s.sendTo s.arg.a 3 .stealAnswer { EvArg.zero with a := s.arg.b, b := s.cube, c := 6 }))
        ∧ (g.multi = true → g.flagged 0 g.rank = true → s.inStealSet g s.arg.a = true → s.arg.c ≠ 0 → ∀ t x p, s.tiles = [(t, x)] → x.parcels = [p] → p.slot < 256 → s.eligible (s.arg.words.getD 0 0).toNat (s.arg.words.getD 1 0).toNat (s.arg.words.getD 2 0).toNat (s.arg.words.getD 3 0).toNat p = true →
          Answers .stealRequest s (fun u => ∃ n due, n = (smGet 0 s.lends (256 * t + p.slot) + 1) % 256 ∧ due = max (s.time + (s.stealRule (s.arg.words.getD 0 0).toNat s.arg.e).2) (s.expiry + 1) ∧ u.expiry = due
            ∧ u.tiles = [(t, { x with parcels := [{ p with st := .lent s.arg.a s.arg.d n due }] })] ∧ smGet 0 u.lends (256 * t + p.slot) = n ∧ u.mem = s.mem ∧ u.ctxs = s.ctxs)))))
  ∧ (∀ s : State, (∀ e ∈ s.tiles, ∀ p ∈ e.2.parcels, p.st ≠ .held s.arg.a) → exec .stealAnswer s = .next (s.answer s.arg.a (BitVec.ofNat 64 s.arg.c)))
  ∧ (∀ (s : State) (t : Nat) (x : TileSt) (q : Parcel), s.tiles = [(t, x)] → x.parcels = [q] → q.st = .held s.arg.a → (∃ r ∈ s.reqs, r.id = s.arg.a) →
    (s.arg.d = 0 → Answers .stealAnswer s (fun u => ∃ v : State, u = v.answer s.arg.a (BitVec.ofNat 64 s.arg.c) ∧ (v.tile t).parcels = [] ∧ v = { s with tiles := v.tiles }))
    ∧ (s.arg.d = 1 → Answers .stealAnswer s (fun u => ∃ (v : State) (p : Parcel), u = v.answer s.arg.a (BitVec.ofNat 64 (s.arg.c + 256)) ∧ (v.tile t).parcels = [p] ∧ p.slot = q.slot ∧ p.st = .queued ∧ p.e = s.arg.words.getD 0 0 ∧ p.p = s.arg.words.getD 1 0 ∧ p.owner = s.arg.b ∧ p.launch = q.launch ∧ p.borrowed.isSome = true)))
  ∧ (∀ (s : State), ((s.cancelled (s.arg.words.getD 0 0).toNat (s.arg.words.getD 1 0).toNat = true ∨ s.lentMatch s.arg.b s.arg.c s.arg.d s.arg.e (s.arg.words.getD 0 0).toNat = none) →
      exec .doneReport s = .next { s with fwTraps := s.fwTraps + 1 } ∧ exec .returnReport s = .next { s with fwTraps := s.fwTraps + 1 })
    ∧ (∀ p, s.cancelled (s.arg.words.getD 0 0).toNat (s.arg.words.getD 1 0).toNat = false → s.lentMatch s.arg.b s.arg.c s.arg.d s.arg.e (s.arg.words.getD 0 0).toNat = some p →
      exec .doneReport s = .next ((s.dropParcel (s.arg.b / 256) (s.arg.b % 256)).mapLaunch p.launch (fun l => { l with done := l.done + 1 }))
      ∧ exec .returnReport s = .next (s.reclaim s.arg.b)))
  ∧ (∀ (s : State) (p : Parcel), (s.tile s.arg.a).parcels.find? (fun p => p.slot == s.arg.b) = some p →
    (∀ q t n due, p.st = .lent q t n due → (due ≤ s.time → exec .leaseExpiry s = .next (s.reclaim (256 * s.arg.a + s.arg.b))) ∧ (s.time < due → exec .leaseExpiry s = .next s))
    ∧ (∀ l, p.st = .queued → p.borrowed = some l → (l.due ≤ s.time → exec .borrowedExpiry s = .next (s.dropParcel s.arg.a s.arg.b)) ∧ (s.time < l.due → exec .borrowedExpiry s = .next s)))
  ∧ (∀ (s : State) (t i : Nat) (p : Parcel), i < 256 → (s.tile t).parcels = [p] → p.slot = i → ((s.reclaim (256 * t + i)).tile t).parcels = [{ p with st := .queued, since := s.cycle }]
    ∧ smGet 0 (s.reclaim (256 * t + i)).lends (256 * t + i) = (smGet 0 s.lends (256 * t + i) + 1) % 256))

/-- R397, R398: `ckpt` checks its descriptor, waits for the context's coprocessor work, and arrives in a cut generation of its group, whose result d waits for; it goes on once the generation is released. The cut of a single-cube group needs every member, drains that are over and no region that moves; it takes the next checkpoint number, and every vault drains the interval that it has recorded, in full when it had none.
R400, R401, R403, R404: a drain writes its lines' chrysalis values in ascending order, a chunk of up to 481 lines at a step, then ends the interval's recording of the old cut and drops its records; a vault that does not drain does nothing; behind the last vault the manifest is written. A line's chrysalis value is its checkpoint record's, else the confirmed one, else what memory holds. A restore ends FAILED when no manifest back to a full checkpoint is good.
Completes: ckpt, checkpointCut, checkpointDrain, restore. -/
def Obligations.Checkpoints : Prop :=
  ((∀ (s : State) (d a : Reg) (y : Nat), y = (s.val a).toNat →
    (∀ g h q, s.self.memo = [5, g, h] → s.group s.self.tenant h = some q → (g < q.gen → exec (.ckpt d a) s = .next ((s.acquire q.scope).finish (.ckpt d a)))
      ∧ (q.gen ≤ g → exec (.ckpt d a) s = .next (s.parkMe (.gen s.self.tenant h g))))
    ∧ (s.self.memo = [6] → exec (.ckpt d a) s = .next (s.finish (.ckpt d a)))
    ∧ (s.issues ⟨[], [(a, false)], [d], []⟩ = true → s.self.memo = [] →
      (y % 32 ≠ 0 → exec (.ckpt d a) s = .next (s.trap 0x04 0 (s.val a)))
      ∧ (y % 32 = 0 → (y < localBase ∨ localBase + 0xD000 < y + 32) → exec (.ckpt d a) s = .next (s.trap 0x05 0 (s.val a)))
      ∧ (∀ w : Nat → Nat, y % 32 = 0 → localBase ≤ y → y + 32 ≤ localBase + 0xD000 → (∀ j, w j = ofBytes (Memory.read s.mem (localKey s.cur.1 (y - localBase) + 8 * j) 8)) →
        (s.memberOf (BitVec.ofNat 64 (w 0)) = none → exec (.ckpt d a) s = .next (s.trap 0x01 0x0D (BitVec.ofNat 64 ((encode (.ckpt d a)).headD 0))))
        ∧ (∀ g m, s.memberOf (BitVec.ofNat 64 (w 0)) = some (g, m) → g.opened = none →
          ((2 ^ 32 ≤ w 0 ∨ w 1 / 2 ^ 56 ≠ 0 ∨ w 1 % 2 ^ 16 ≠ 0 ∨ 50 < w 2 ∨ w 3 ≠ 0) → exec (.ckpt d a) s = .next (s.trap 0x01 0x0D (BitVec.ofNat 64 ((encode (.ckpt d a)).headD 0))))
          ∧ (w 0 < 2 ^ 32 → w 1 / 2 ^ 56 = 0 → w 1 % 2 ^ 16 = 0 → w 2 ≤ 50 → w 3 = 0 →
            (s.copWork s.cur.1 s.me s.agent = true → exec (.ckpt d a) s = .next (s.parkMe .cpsync))
            ∧ (s.copWork s.cur.1 s.me s.agent = false → g.gen ≥ m.since → smGet 0 g.arrived m.rank = 0 → g.scope = 1 → g.tenant = s.self.tenant → g.handle = w 0 → kindOf s.cur.1 ≠ .a → s.ntOf s.agent = [] → s.relReqs s.agent s.cur.1 1 = [] →
              ∃ u : State, exec (.ckpt d a) s = .next u ∧ u.mem = s.mem ∧ u.self.park = some (.gen g.tenant g.handle g.gen) ∧ u.self.memo = [5, g.gen, g.handle] ∧ (∀ k, k ≠ s.me → u.ctx k = s.ctx k)
                ∧ ∃ q ∈ u.groups, q.tenant = g.tenant ∧ q.handle = g.handle ∧ q.gen = g.gen ∧ q.cut = true ∧ q.opened = some s.time ∧ smGet 0 q.arrived m.rank ≠ 0 ∧ q.cutBase = w 1 ∧ q.cutShare = w 2 ∧ s.nid ∈ q.cutReqs))))))
  ∧ (∀ (s : State) (g : Group), s.group s.arg.a s.arg.b = some g → g.cubes = [] → s.arg.d = 0 →
    (g.cut = false → exec .checkpointCut s = .next s)
    ∧ (g.cut = true → (g.complete = false ∨ s.cutFree g.tenant = false) → exec .checkpointCut s = .next s)
    ∧ (g.cut = true → g.complete = true → s.cutFree g.tenant = true → s.cutCancelled g = true → exec .checkpointCut s = .next (s.endCut g (smGet 0 s.ckpts g.tenant + 1) 4))
    ∧ (g.cut = true → g.complete = true → s.cutFree g.tenant = true → s.cutCancelled g = false → s.mapsFull g.tenant = true → exec .checkpointCut s = .next (s.endCut g (smGet 0 s.ckpts g.tenant + 1) 6))
    ∧ (g.cut = true → g.complete = true → s.cutFree g.tenant = true → s.cutCancelled g = false → s.mapsFull g.tenant = false → Answers .checkpointCut s (fun u =>
      u.mem = s.mem ∧ u.ctxs = s.ctxs ∧ smGet 0 u.ckpts g.tenant = smGet 0 s.ckpts g.tenant + 1 ∧ (∃ q ∈ u.groups, q.tenant = g.tenant ∧ q.handle = g.handle ∧ q.gen = g.gen + 1 ∧ q.opened = none ∧ q.cut = false)
      ∧ (∀ v i, v < 64 → i = s.ival (ivalKey g.tenant v) → (u.ival (ivalKey g.tenant v)).st = .draining ∧ (u.ival (ivalKey g.tenant v)).k = smGet 0 s.ckpts g.tenant + 1 ∧ (u.ival (ivalKey g.tenant v)).base = g.cutBase
        ∧ (u.ival (ivalKey g.tenant v)).cur = [] ∧ (u.ival (ivalKey g.tenant v)).share = (if g.cutShare = 0 then 5 else g.cutShare)
        ∧ (i.st = .recording → i.stale = false → (u.ival (ivalKey g.tenant v)).prev = i.cur ∧ (u.ival (ivalKey g.tenant v)).full = false)
        ∧ (i.st ≠ .recording → (u.ival (ivalKey g.tenant v)).prev = [] ∧ (u.ival (ivalKey g.tenant v)).full = true))
      ∧ ∀ k, (∀ v, v < 64 → k ≠ ivalKey g.tenant v) → u.ival k = s.ival k))))
  ∧ ((∀ (s : State) (i : Ival), i = s.ival (ivalKey s.arg.a s.arg.b) →
    (s.arg.b = 64 → s.closing s.arg.a = true → exec .checkpointDrain s = .next (s.closeDrain s.arg.a))
    ∧ (s.arg.b ≠ 64 → i.st ≠ .draining → exec .checkpointDrain s = .next s)
    ∧ (s.arg.b ≠ 64 → i.st = .draining → i.full = false → i.left (sortNats (distinct i.prev)) = [] → exec .checkpointDrain s = .next (s.drained_ s.arg.a s.arg.b))
    ∧ (∀ n, s.arg.b ≠ 64 → i.st = .draining → i.full = false → n = (i.left (sortNats (distinct i.prev))).take 481 → n ≠ [] →
      (∀ x y v, s.writeChunk s.arg.a s.arg.b n = .ok x y v → exec .checkpointDrain s = .next v
        ∧ ∃ e, (v.ival (ivalKey s.arg.a s.arg.b)).chunks = i.chunks ++ [e] ∧ e.2.2.1 = n.headD 0 * 128 ∧ e.2.2.2 = n.getLastD 0 * 128)
      ∧ (∀ v, s.writeChunk s.arg.a s.arg.b n = .wait v → exec .checkpointDrain s = .next v)
      ∧ (s.writeChunk s.arg.a s.arg.b n = .fault → exec .checkpointDrain s = .next (s.abortDrain s.arg.a))))
  ∧ (∀ (s : State) (t v : Nat), ((s.drained_ t v).ival (ivalKey t v)).st = .recording ∧ ((s.drained_ t v).ival (ivalKey t v)).prev = [] ∧ ((s.drained_ t v).ival (ivalKey t v)).cur = (s.ival (ivalKey t v)).cur ∧ (s.drained_ t v).mem = s.mem
      ∧ ∀ r ∈ (s.drained_ t v).journal, r ∈ s.journal ∧ (r.guard = true ∨ r.tenant ≠ t ∨ r.vault ≠ v))
  ∧ (∀ (s : State) (t k line : Nat), (∀ r, s.journal.find? (fun r => !r.guard && r.tenant == t && r.num == k && r.line == line) = some r → s.chrysalis t k line = (upTo r.old.length).map (fun i => (r.old.getD i 0, bitAt r.bad (i / 16))))
    ∧ (∀ r, s.journal.find? (fun r => !r.guard && r.tenant == t && r.num == k && r.line == line) = none → s.heldRec line = some r → s.chrysalis t k line = (upTo r.old.length).map (fun i => (r.old.getD i 0, bitAt r.bad (i / 16))))
    ∧ (s.journal.find? (fun r => !r.guard && r.tenant == t && r.num == k && r.line == line) = none → s.heldRec line = none → (∀ i, i < 8 → smGet 0 s.ecc (s.localAddr (line * 128) / 16 + i) = 0) → s.localAddr (line * 128) % 128 = 0 →
        (s.chrysalis t k line).map (·.1) = Memory.read s.mem (s.localAddr (line * 128)) 128))
  ∧ (∀ l : List Nat, (sortNats (distinct l)).Pairwise (· < ·) ∧ ∀ x, x ∈ sortNats (distinct l) ↔ x ∈ l)
  ∧ (∀ (k cube v : Nat) (full : Bool) (es : List (Nat × List (Byte × Bool))), es.length ≤ 481 → (∀ e ∈ es, e.2.length = 128) → (chunkBytes k cube v full es).length = 65536
      ∧ ∀ i e, es[i]? = some e → ((chunkBytes k cube v full es).drop (64 + 136 * i)).take 136 = (toBytes (e.1 * 128) 8).map (fun b => (b, false)) ++ e.2)
  ∧ (∀ s : State, ((s.page s.arg.a).rst ≠ .running → exec .restore s = .next s)
    ∧ (∀ l f ms b v, (s.page s.arg.a).rst = .running → s.leaves 5 (s.tenant s.arg.a).xroot.toNat 0 s.arg.far = .ok l f → s.manifests s.arg.a (s.page s.arg.a).rstbase.toNat s.arg.bytes 16 (s.page s.arg.a).rstk.toNat = .ok ms b v →
      (∀ m ∈ ms, m.full = false) → Answers .restore s (fun u => (u.page s.arg.a).rst = .failed ∧ u.mem = v.mem))))

/-- R388 to R391: the first consumption is contained: one in no launch ends its thread alone; one in a launch ends every thread of its rectangle, empties its tile caches, fences its tiles for a scrub, and completes an unguarded launch with status 6; it waits for an `mremap` of the rectangle.
R381, R390: a scrub that is due writes the dirty sectors of the tile's cache back and leaves a tile with no cache, every byte of its store and of its two local memories zero, its accumulators and sticky bits clear, no cached translation, no cached instruction and no ring entry; it ends the fence and touches nothing else.
Completes: containment, tileScrub. -/
def Obligations.ContainmentAndScrubs : Prop :=
  ((∀ s : State, s.contain = [] → exec .containment s = .next s)
  ∧ (∀ (s : State) (core ctx cause : Nat) (l : List (Nat × Nat × Nat)), s.contain = (core, ctx, cause) :: l → (s.consumedIn core ctx).bind s.launch = none → exec .containment s = .next (({ s with contain := l } : State).killCtx (ctxKey core ctx)))
  ∧ (∀ (s : State) (core ctx cause : Nat) (t : List (Nat × Nat × Nat)) (l : Launch), s.contain = (core, ctx, cause) :: t → (s.consumedIn core ctx).bind s.launch = some l →
    ((∃ c ∈ s.cmds, c.unit ∈ s.cluster l.id ∧ c.cls = .health ∧ c.opc = 1 ∧ c.st = .started) → exec .containment s = .next s)
    ∧ ((∀ c ∈ s.cmds, c.unit ∉ s.cluster l.id) → l.guard = .none → Answers .containment s (fun u =>
      (∀ m ∈ u.launches, m.id = l.id → m.st = .completing ∧ m.status = 6 ∧ m.consumed = l.consumed + 1 ∧ m.moved = [])
      ∧ (∀ k ∈ s.cluster l.id, (u.tile k).fence = true ∧ (u.tile k).scrubbing = true ∧ (u.tile k).lines = [])
      ∧ ∀ k ∈ (s.doomed (s.rectCores l.id) l.id).1, (u.ctx k).occ = false))))
  ∧ (∀ (s : State) (t : Nat), t = s.arg.a →
    (s.scrubDue t = false → exec .tileScrub s = .next s)
    ∧ (s.scrubDue t = true → s.memOk = true → t < 128 → Answers .tileScrub s (fun u => u.ctxs = s.ctxs ∧ ((∀ c ∈ (s.tile t).lines, c.dirty = 0) → u.reqs = s.reqs)
      ∧ (u.tile t).n = 0 ∧ (u.tile t).lines = [] ∧ (u.tile t).scrubbed = true ∧ (u.tile t).fence = false ∧ (u.tile t).scrubbing = false ∧ (u.tile t).last = none ∧ (∀ k, k ≠ t → u.tile k = s.tile k)
      ∧ (∀ w o, w < 12 → o < 131072 → Memory.byte u.mem (wayKey t w o) = 0) ∧ (∀ c o, c / 2 = t → o < 65536 → Memory.byte u.mem (localKey c o) = 0)
      ∧ (∀ a, (∀ w o, w < 12 → o < 131072 → a ≠ wayKey t w o) → (∀ c o, c / 2 = t → o < 65536 → a ≠ localKey c o) → Memory.byte u.mem a = Memory.byte s.mem a)
      ∧ (u.array t).acc = [] ∧ (u.array t).sticky = 0 ∧ (u.array t).retRows = (s.array t).retRows ∧ (u.array t).retCols = (s.array t).retCols
      ∧ (∀ e ∈ u.tlbs, e.1 ≠ t) ∧ (u.core (2 * t)).icache = [] ∧ (u.core (2 * t)).ring = [] ∧ (u.core (2 * t + 1)).icache = [] ∧ (u.core (2 * t + 1)).ring = [])))

/-- R248, R417 to R419: an unacknowledged packet is sent again and its timer doubles, up to 1 ms; an acknowledgement removes it; a trimmed packet is answered with a negative acknowledgement, on which its sender sends it again at once with the same timer, and a packet of class C is never trimmed; a duplicate is discarded; a packet of the mode that is not implemented is counted. A context without unacknowledged packets is freed after 1 ms; the first waiting packet takes a context when there is room.
R423, R458: when a peer is lost, every read and atomic to it is answered poisoned, every status with 2, every store discarded and its tenant told, its contexts and waiting packets go, the groups over it are dissolved, and a cancellation does not wait for it. A cube that declares its peer unreachable tells every other live cube.
Completes: retransmission, trimmedPacket, peerUnreachable, peerLost, pdcFree, uudPacket. -/
def Obligations.DeliveryAndLostPeers : Prop :=
  ((∀ (s : State) (p : Pdc) (x : Sent) (e : Ev), s.pdcs = [p] → p.peer = s.arg.a → p.mode = s.arg.c → p.sent = [x] → x.num = s.arg.d →
    e = ⟨x.ev.op, { x.ev.arg with seq := x.ev.arg.seq.map (fun q => (q.1, q.2.1, s.time)) }⟩ →
    (s.arg.b = 0 → exec .retransmission s = .next { s with outbox := e :: s.outbox, pdcs := [{ p with sent := [{ x with next := s.time + min (2 * x.timer) 1000000, timer := min (2 * x.timer) 1000000 }], used := s.time }] })
    ∧ (s.arg.b = 1 → s.arg.c ≠ 3 → exec .trimmedPacket s = .next { s with outbox := e :: s.outbox, pdcs := [{ p with sent := [{ x with next := s.time + x.timer }], used := s.time }] })
    ∧ (s.arg.b = 2 → s.arg.c ≠ 3 → exec .trimmedPacket s = .next { s with outbox := ⟨.trimmedPacket, { EvArg.zero with a := s.cube, c := s.arg.c, d := s.arg.d, peer := some s.arg.a }⟩ :: s.outbox })
    ∧ (s.arg.b = 1 → exec .retransmission s = .next { s with pdcs := [{ p with sent := [], since := s.time, used := s.time }] }))
  ∧ (∀ s : State, (s.arg.b = 1 → Answers .retransmission s (fun u => u = { s with pdcs := u.pdcs } ∧ ∀ p ∈ u.pdcs, p.peer = s.arg.a → p.mode = s.arg.c → ∀ x ∈ p.sent, x.num ≠ s.arg.d))
    ∧ (s.arg.b = 2 → exec .retransmission s = .next s)
    ∧ (s.arg.c = 3 → exec .trimmedPacket s = .next s)
    ∧ (s.arg.b ≠ 1 → s.arg.b ≠ 2 → s.arg.c ≠ 3 → exec .trimmedPacket s = .next { s with outbox := ⟨.trimmedPacket, { EvArg.zero with a := s.cube, b := 1, c := s.arg.c, d := s.arg.d, peer := some s.arg.a }⟩ :: s.outbox })
    ∧ exec .uudPacket s = .next { s with uud := s.uud + 1 }
    ∧ (s.arg.b = 1 → (s.pdcWait = [] → exec .pdcFree s = .next s)
      ∧ (∀ m e r p, s.pdcWait = (m, e) :: r → e.arg.peer = some p →
        (s.pdcs.length < 65536 → Answers .pdcFree s (fun u => u = { s with pdcs := u.pdcs, sendNo := u.sendNo, outbox := u.outbox, pdcWait := r }
          ∧ u.outbox = ⟨e.op, { e.arg with peer := some p, seq := some (m, smGet 0 s.sendNo (pdcKey p m), s.time) }⟩ :: s.outbox))
        ∧ ((∀ x ∈ s.pdcs, x.sent ≠ [] ∧ (x.peer ≠ p ∨ x.mode ≠ m)) → 65536 ≤ s.pdcs.length → exec .pdcFree s = .next s)))
    ∧ (s.arg.b ≠ 1 → Answers .pdcFree s (fun u => u = { s with pdcs := u.pdcs } ∧ ∀ p, p ∈ u.pdcs ↔ p ∈ s.pdcs ∧ ¬ (p.peer = s.arg.a ∧ p.mode = s.arg.c ∧ p.sent = [] ∧ p.used + 1000000 ≤ s.time)))))
  ∧ ((∀ (s : State) (q : Nat), q = s.arg.a → s.lost.contains q = false → s.reqs = [] → s.ctxs = [] → s.groups = [] → s.mapJob = none →
    (s.arg.b ≠ 1 → Answers .peerLost s (fun u => u.lost = q :: s.lost ∧ u.peers = s.peers.filter (· ≠ q) ∧ u.mem = s.mem ∧ u.outbox = s.outbox ∧ u.ctxs = s.ctxs
      ∧ (∀ p ∈ u.pdcs, p.peer ≠ q) ∧ (∀ e ∈ u.pdcWait, e.2.arg.peer ≠ some q) ∧ (∀ g ∈ u.arrivals, g.peer ≠ some q) ∧ (∀ p, q ∉ (u.page p).pending)))
    ∧ (s.arg.b ≠ 1 → s.peers = [q] → exec .peerUnreachable s = exec .peerLost s)
    ∧ (∀ p, s.peers = [q, p] → q ≠ p → s.pdcs = [] → s.pdcWait = [] → Answers .peerUnreachable s (fun u => u.lost = q :: s.lost ∧ u.outbox = ⟨.peerLost, { EvArg.zero with a := q, peer := some p, seq := some (3, smGet 0 s.sendNo (pdcKey p 3), s.time) }⟩ :: s.outbox)))
  ∧ (∀ (s : State) (q : Nat) (r : Req), r ∈ s.reqs → r.agent < 2 ^ 50 →
    (r.kind = .load ∨ (∃ op, r.kind = .amo op) → ∀ d w k, r.dest = .reg d w → s.ctxOfAgent r.agent = some k → r.acq = 0 →
      ∃ v, s.loseReq q r = ({ s with reqs := s.reqs.filter (fun (p : Req) => p.id ≠ r.id) } : State).setCtx k ((s.ctx k).setCell d.val ⟨v, .full, true⟩))
    ∧ (r.kind = .store → s.told.contains (q, r.tenant) = true → s.loseReq q r = s.dropReq r.id)))

/-- R407, R415, R416: links: one in training whose peer has not completed it within 100 ms stays down; a frame that fails is replayed, each failed replay is counted, and a success ends the row; a switch-facing link without replay drops the frame; a dead link is down; firmware trains a link anew, which is not up until training completes and records a torus port's far end; training that firmware has not begun brings nothing up. A mesh link that fails 8 resends in a row is retired.
R431: domain time: the master ignores time packets; another cube's clock never goes back, takes the master's time at its first packet if that is later, and is slewed by the rest; every trained port sends this cube's time.
Completes: linkTrainingTimeout, linkDown, timeExchange, linkRetrain, linkLevelRetry, meshLinkRetirement. -/
def Obligations.LinksAndTime : Prop :=
  ((∀ (s : State) (x : Port), x = s.port s.arg.a →
    ((x.training = false ∨ s.time < x.since + 100000000) → exec .linkTrainingTimeout s = .next s)
    ∧ (x.training = true → x.since + 100000000 ≤ s.time → exec .linkTrainingTimeout s = .next (s.setPort s.arg.a { x with training := false, down := true }))
    ∧ (s.arg.b = 1 → exec .linkLevelRetry s = .next (s.setPort s.arg.a { x with replaying := false, replays := 0 }))
    ∧ (s.arg.b ≠ 1 → (6 ≤ s.arg.a → s.arg.c = 1 → exec .linkLevelRetry s = .next s)
      ∧ ((s.arg.a < 6 ∨ s.arg.c ≠ 1) → (x.replaying = false → exec .linkLevelRetry s = .next (s.setPort s.arg.a { x with replaying := true }))
        ∧ (x.replaying = true → exec .linkLevelRetry s = .next (s.setPort s.arg.a { x with replays := x.replays + 1 }))))
    ∧ exec .linkDown s = .next (s.setPort s.arg.a { x with up := false, down := true, replaying := false, replays := 0 })
    ∧ (s.arg.b ≠ 1 → ((x.split = true ∨ 36 ≤ s.arg.a) → exec .linkRetrain s = .next s)
      ∧ (x.split = false → s.arg.a < 36 → exec .linkRetrain s = .next (s.setPort s.arg.a { x with up := false, down := false, training := true, replaying := false, replays := 0, since := s.time })))
    ∧ (s.arg.b = 1 → (x.training = false → exec .linkRetrain s = .next s)
      ∧ (x.training = true → Answers .linkRetrain s (fun u => u = { s with ports := u.ports } ∧ (u.port s.arg.a).up = true ∧ (u.port s.arg.a).training = false ∧ (u.port s.arg.a).split = x.split
        ∧ (s.arg.a < 6 → (u.port s.arg.a).peer = some s.arg.c) ∧ (6 ≤ s.arg.a → (u.port s.arg.a).peer = none) ∧ ∀ p, p ≠ s.arg.a → u.port p = s.port p)))
    ∧ ∀ p y, (s.setPort p y).port p = y ∧ ∀ q, q ≠ p → (s.setPort p y).port q = s.port q)
  ∧ (∀ (s : State) (n : Nat), n = smGet 0 s.mesh s.arg.a →
    (s.arg.b = 1 → exec .meshLinkRetirement s = .next { s with mesh := smPut 0 s.mesh s.arg.a (n + 1) })
    ∧ (s.arg.b = 2 → exec .meshLinkRetirement s = .next { s with mesh := smPut 0 s.mesh s.arg.a 0 })
    ∧ (s.arg.b = 0 → (8 ≤ n → Answers .meshLinkRetirement s (fun u => u = { s with meshOut := u.meshOut } ∧ smGet false u.meshOut s.arg.a = true)) ∧ (n < 8 → exec .meshLinkRetirement s = .next s))))
  ∧ (∀ s : State,
    (s.arg.b = 1 → s.isMaster = true → exec .timeExchange s = .next s)
    ∧ (s.arg.b = 1 → s.isMaster = false → Answers .timeExchange s (fun u => u.joined = true ∧ s.time ≤ u.time ∧ u.slew = (s.arg.w.toNat : Int) - u.time ∧ u.ctxs = s.ctxs ∧ u.mem = s.mem
      ∧ (s.joined = true → u.time = s.time) ∧ (s.joined = false → s.time ≤ s.arg.w.toNat → u.time = s.arg.w.toNat ∧ u.slew = 0)))
    ∧ (s.arg.b = 0 → Answers .timeExchange s (fun u => u.timeSent = s.time ∧ u.time = s.time ∧ u.outbox.length = s.outbox.length + (s.ports.filter (fun e => e.2.up)).length ∧ (s.isMaster = true → u.joined = true)))
    ∧ (s.isMaster = true ↔ ∀ p ∈ s.peers, s.cube < p))

/-- R425, R428 to R430: a change of the stripe map: firmware refuses an unsound descriptor, and begins with a region on every cube; a cube installs the next descriptor and says so; when all have, the region moves from cursor 0 on every cube.
R428 to R430: the home of the stripe at the cursor freezes it, copies it when its accepted requests are placed, and passes the cursor on every cube; a stripe that stays where it is is passed at once. When every stripe has switched and 100 µs have passed since the last commit, the next descriptor becomes current, the generation advances by one modulo 16, and every vault's next cut is full. A draining cube that no region names leaves the routing.
Completes: mapWrite, mapPrepared, stripeSwitch, mapCommit, cubeRemoval. -/
def Obligations.MapAndStripes : Prop :=
  ((∀ s : State, s.arg.peer = none → (s.fw.st ≠ .ready → exec .mapWrite s = .next s)
    ∧ (s.fw.st = .ready → s.arg.b = 0 →
      ((∀ d, stripesOf (s.arg.words.getD 0 0).toNat (s.arg.words.getD 1 0).toNat (s.arg.words.getD 2 0).toNat ≠ some d) → exec .mapWrite s = .next (s.sendOut .mapWrite { EvArg.zero with a := s.arg.a, b := 4 }))
      ∧ (∀ d, stripesOf (s.arg.words.getD 0 0).toNat (s.arg.words.getD 1 0).toNat (s.arg.words.getD 2 0).toNat = some d →
        (s.mapBusy = true → exec .mapWrite s = .next { s with mapQueue := s.mapQueue ++ [s.arg] })
        ∧ (s.mapBusy = false → (256 ≤ s.arg.a ∨ 18 < d.k ∨ d.base % 2 ^ (12 + d.k) ≠ 0 ∨ d.n = 0 ∨ 8192 < d.n ∨ 16384 < d.setbase + d.n ∨ d.size = 0 ∨ d.lb % 2 ^ (12 + d.k) ≠ 0) →
          exec .mapWrite s = .next (s.sendOut .mapWrite { EvArg.zero with a := s.arg.a, b := 4 }))
        ∧ (s.mapBusy = false → s.mapRefuses s.arg.a d = false → s.peers = [] → Answers .mapWrite s (fun u => u.mapJob = some s.arg.a ∧ u.mapWait = [] ∧ (u.region s.arg.a).next = some d ∧ (u.region s.arg.a).cur = (s.region s.arg.a).cur ∧ u.outbox = s.outbox ∧ u.mem = s.mem)))))
  ∧ (∀ (s : State) (p : Nat), s.arg.peer = some p →
    (s.arg.b = 1 → ∀ d, stripesOf (s.arg.words.getD 0 0).toNat (s.arg.words.getD 1 0).toNat (s.arg.words.getD 2 0).toNat = some d →
      exec .mapWrite s = .next ((s.setRegion s.arg.a { s.region s.arg.a with next := some d }).sendTo p 3 .mapPrepared { EvArg.zero with a := s.arg.a, b := 1 }))
    ∧ (s.arg.b = 3 → Answers .mapWrite s (fun u => u = { s with draining := u.draining } ∧ ∀ c, c ∈ u.draining ↔ c = s.arg.a ∨ c ∈ s.draining))
    ∧ (s.arg.b = 1 → exec .mapPrepared s = .next { s with mapWait := s.mapWait.filter (· ≠ p) })
    ∧ (s.arg.b = 2 → exec .mapPrepared s = .next (s.setRegion s.arg.a { s.region s.arg.a with moving := true, cursor := 0, frozen := false, copied := 0 })))
  ∧ (∀ (s : State), s.arg.b = 0 → ((s.mapJob ≠ some s.arg.a ∨ s.mapWait ≠ []) → exec .mapPrepared s = .next s)
    ∧ (s.mapJob = some s.arg.a → s.mapWait = [] → (s.region s.arg.a).moving = false → (s.region s.arg.a).next.isSome = true → Answers .mapPrepared s (fun u => (u.region s.arg.a).moving = true ∧ (u.region s.arg.a).cursor = 0 ∧ ∀ r, r ≠ s.arg.a → u.region r = s.region r)))
  ∧ (∀ (d : Stripes) (d0 d1 d2 : Nat), stripesOf d0 d1 d2 = some d → d.valid = d0.testBit 63 ∧ d.perm = d0.testBit 62 ∧ d.base = d0 % 2 ^ 52 ∧ d.k = d0 / 2 ^ 57 % 32 ∧ d.lb = d2 ∧ d.size = d1 % 2 ^ 28 ∧ d.setbase = d1 / 2 ^ 28 % 2 ^ 14 ∧ d.n = d1 / 2 ^ 42 % 2 ^ 14))
  ∧ ((∀ (s : State) (r : Region), r = s.region s.arg.a → s.arg.b ≠ 1 → ∀ c la c' la', s.cursorHomes r = some ((c, la), (c', la')) →
    (c ≠ s.cube → exec .stripeSwitch s = .next s)
    ∧ (c = s.cube → c' = c → la' = la → exec .stripeSwitch s = .next ((s.setRegion s.arg.a { r with cursor := r.cursor + 1, frozen := false, copied := 0 }).toAll .stripeSwitch { EvArg.zero with a := s.arg.a, b := 1, c := r.cursor + 1 }))
    ∧ (c = s.cube → (c' ≠ c ∨ la' ≠ la) →
      (r.frozen = false → exec .stripeSwitch s = .next (s.setRegion s.arg.a { r with frozen := true, copied := 0 }))
      ∧ (r.frozen = true → r.copied = 0 → (∃ q ∈ s.reqs, q.remote = false ∧ q.sampled = false ∧ q.kind ≠ .status ∧ r.cur.stripe q.pa = some r.cursor) → exec .stripeSwitch s = .next s)
      ∧ (r.frozen = true → r.copied < 2 ^ (12 + r.cur.k) → (r.copied ≠ 0 ∨ s.stripeQuiet r = true) → c' = s.cube → la' % 4096 = 0 → r.copied % 4096 = 0 → Answers .stripeSwitch s (fun u =>
        (u.region s.arg.a).copied = r.copied + 4096 ∧ (u.region s.arg.a).cursor = r.cursor ∧ u.ctxs = s.ctxs ∧ MemBut (la' + r.copied) 4096 s u))
      ∧ (r.frozen = true → r.copied = 2 ^ (12 + r.cur.k) → (∀ q ∈ s.reqs, q.agent ≠ 2 ^ 52) → exec .stripeSwitch s = .next ((s.setRegion s.arg.a { r with cursor := r.cursor + 1, frozen := false, copied := 0 }).toAll .stripeSwitch { EvArg.zero with a := s.arg.a, b := 1, c := r.cursor + 1 }))))
  ∧ (∀ (s : State) (r : Region), r = s.region s.arg.a → s.arg.b = 1 → (r.moving = true → r.cursor < s.arg.c → exec .stripeSwitch s = .next (s.setRegion s.arg.a { r with cursor := s.arg.c, frozen := false, copied := 0 }))
    ∧ ((r.moving = false ∨ s.arg.c ≤ r.cursor) → exec .stripeSwitch s = .next s))
  ∧ (∀ (s : State) (r : Region) (d : Stripes), r = s.region s.arg.a → r.next = some d →
    (s.arg.b = 0 → s.mapJob = some s.arg.a → r.moving = true → d.size ≤ r.cursor → s.mapLast + 100000 ≤ s.time → s.peers = [] → Answers .mapCommit s (fun u => (u.region s.arg.a).cur = d ∧ (u.region s.arg.a).next = none ∧ (u.region s.arg.a).moving = false
      ∧ u.mapgen = (s.mapgen + 1) % 16 ∧ (u.region s.arg.a).gen = (s.mapgen + 1) % 16 ∧ u.mapLast = s.time ∧ (∀ q, q ≠ s.arg.a → u.region q = s.region q) ∧ (∀ e ∈ u.ivals, e.2.stale = true) ∧ u.mem = s.mem ∧ u.mapWait = []))
    ∧ (s.arg.b = 0 → (r.moving = false ∨ r.cursor < d.size ∨ (s.mapLast ≠ 0 ∧ s.time < s.mapLast + 100000)) → exec .mapCommit s = .next s)
    ∧ (∀ p, s.arg.b = 1 → s.arg.peer = some p → ∃ u : State, exec .mapCommit s = .next (u.sendTo p 3 .mapCommit { EvArg.zero with a := s.arg.a, b := 2 }) ∧ (u.region s.arg.a).cur = d ∧ (u.region s.arg.a).next = none ∧ u.mapgen = (s.mapgen + 1) % 16 ∧ u.mem = s.mem))
  ∧ (∀ s : State, (∀ p, s.arg.b = 2 → s.arg.peer = some p → exec .mapCommit s = .next { s with mapWait := s.mapWait.filter (· ≠ p) })
    ∧ (s.arg.b = 0 → s.mapJob = some s.arg.a → (s.region s.arg.a).next = none → s.mapWait = [] → exec .mapCommit s = .next { s with mapJob := none })
    ∧ ((s.arg.a ∉ s.draining ∨ s.time < s.mapLast + 100000 ∨ ∃ e ∈ s.regions, e.2.cur.valid = true ∧ s.arg.a ∈ s.setOf e.2.cur) → exec .cubeRemoval s = .next s)
    ∧ (s.arg.a ∈ s.draining → s.mapLast + 100000 ≤ s.time → (∀ e ∈ s.regions, (e.2.cur.valid = true → s.arg.a ∉ s.setOf e.2.cur) ∧ ∀ d, e.2.next = some d → s.arg.a ∉ s.setOf d) →
      exec .cubeRemoval s = .next { s with draining := s.draining.filter (· ≠ s.arg.a), peers := s.peers.filter (· ≠ s.arg.a), pdcs := s.pdcs.filter (fun (p : Pdc) => p.peer ≠ s.arg.a) })))

/-- R446, R447, R452: a host access to a device whose tenant does not exist is not accepted; a read outside the aperture, or one that does not translate, gives 64 bytes with the poison indication and counts in HERR, and a write is discarded and counted; a line of the control page reads as its eight registers; an aperture line is read or written at its home.
R370, R458 to R460: cancelling a job: its entry is set, its threads end and no thread of another job changes, a running launch ends CANCELLED; a cube acknowledges when the job's threads are gone, and at no pending cube the coordinator sets CANSTAT and EVCAUSE and tells every cube. An entry goes 100 µs after it was set and 60 µs after the notice when nothing of the job is left, and a waiting CANCEL takes its place.
Completes: apertureRead, apertureWrite, unbackedAccess, cancelPacket, cancelAck, cancelDone, filterEntryExpiry. -/
def Obligations.HostAndCancellation : Prop :=
  ((∀ s : State, (s.tenant s.arg.a).live = false → exec .apertureRead s = .next s ∧ (s.arg.b ≠ 1 → exec .apertureWrite s = .next s) ∧ exec .unbackedAccess s = .next s ∧ exec .launchWindowWrite s = .next s)
  ∧ (∀ s : State, (s.tenant s.arg.a).live = true →
    (s.arg.b = 1 → exec .unbackedAccess s = .next ((s.herr s.arg.a).hostDone s.arg 1))
    ∧ (s.arg.b ≠ 1 → exec .unbackedAccess s = .next ((s.herr s.arg.a).hostData s.arg (List.replicate 64 0) true))
    ∧ (0x1000 ≤ s.arg.w.toNat → s.arg.w.toNat < 0x2000 → exec .apertureRead s = .next (s.hostData s.arg ((List.range 8).flatMap (fun i => toBytes ((s.page s.arg.a).read (s.arg.w.toNat - 0x1000 + 8 * i)) 8)) false))
    ∧ (0x2000 ≤ s.arg.w.toNat → s.arg.w.toNat < 2 ^ 48 → exec .apertureRead s = .next ((s.herr s.arg.a).hostData s.arg (List.replicate 64 0) true))
    ∧ (2 ^ 48 ≤ s.arg.w.toNat → (∀ sub pa, s.xlate s.arg.a (s.arg.w.toNat - 2 ^ 48) false false = .fault sub pa → exec .apertureRead s = .next ((s.herr s.arg.a).hostData s.arg (List.replicate 64 0) true))
      ∧ (∀ pa attr b bad t, s.xlate s.arg.a (s.arg.w.toNat - 2 ^ 48) false false = .ok pa attr → s.isRemote pa = false → s.unitRead 0 pa 64 = some ((b, bad), t) → exec .apertureRead s = .next (t.hostData s.arg b bad))
      ∧ (s.arg.b ≠ 1 → (∀ sub pa, s.xlate s.arg.a (s.arg.w.toNat - 2 ^ 48) false true = .fault sub pa → exec .apertureWrite s = .next ((s.herr s.arg.a).hostDone s.arg 1))
        ∧ (∀ pa attr t, s.xlate s.arg.a (s.arg.w.toNat - 2 ^ 48) false true = .ok pa attr → s.isRemote pa = false → s.placeHost (hostSectors s.arg pa) = some t → exec .apertureWrite s = .next (t.hostDone s.arg 0)))))
  ∧ (∀ (s : State) (t : Nat), ((s.herr t).page t).herr = ((s.page t).herr + 1) % 2 ^ 64 ∧ s.herr t = { s with pages := (s.herr t).pages } ∧ ∀ u, u ≠ t → (s.herr t).page u = s.page u)
  ∧ (∀ (s : State) (g : EvArg) (b : List Byte) (bad : Bool) (st : Nat),
    s.hostData g b bad = { s with outbox := ⟨.apertureRead, { EvArg.zero with a := g.a, b := 1, c := bad.toNat, d := g.d, w := g.w, bytes := b }⟩ :: s.outbox }
    ∧ s.hostDone g st = { s with outbox := ⟨.apertureWrite, { EvArg.zero with a := g.a, b := 1, c := st, d := g.d, w := g.w }⟩ :: s.outbox })
  ∧ (∀ (g : EvArg) (pa i o : Nat), i < 4 → o < 16 → ((∃ q ∈ hostSectors g pa, q.1 = pa + 16 * i ∧ ∃ x ∈ q.2, x.1 = o) ↔ g.e.testBit (16 * i + o) = true) ∧ (∀ q ∈ hostSectors g pa, ∀ x ∈ q.2, q.1 = pa + 16 * i → x.1 = o → x.2 = g.bytes.getD (16 * i + o) 0)))
  ∧ ((∀ (s : State) (t j c : Nat), s.arg.a = t → s.arg.b = j → s.arg.c = c →
    (s.cancelled t j = true → exec .cancelPacket s = .next (s.ackCancel t j c s.cube))
    ∧ (s.cancelled t j = false → 64 ≤ s.filters.length → exec .cancelPacket s = .next { s with cancels := s.cancels ++ [(t, j, c)] })
    ∧ (s.cancelled t j = false → s.filters.length < 64 → s.cmds = [] → s.invs = [] → s.launches = [] → s.stored = [] → (∀ k, (s.ctx k).home = none) → (s.ctxs.map (·.1)).Nodup → Answers .cancelPacket s (fun u => u.cancelled t j = true ∧ u.filters.length = s.filters.length + 1
      ∧ (∀ k, k % 16 ≠ 8 → (s.ctx k).occ = true → (s.ctx k).tenant = t → (s.ctx k).job = j → (s.ctx k).park ≠ some .away → (u.ctx k).occ = false)
      ∧ ∀ k, (s.ctx k).tenant ≠ t ∨ (s.ctx k).job ≠ j → u.ctx k = s.ctx k)))
  ∧ (∀ (s : State) (x : Filter), s.filters = [x] → x.tenant = s.arg.a → x.job = s.arg.c → s.arg.b = 0 →
    ((x.acked = true ∨ s.jobRuns s.arg.a s.arg.c = true) → exec .cancelAck s = .next s)
    ∧ (x.acked = false → s.jobRuns s.arg.a s.arg.c = false → x.coord ≠ s.cube → ((s.page s.arg.a).busy = false) → exec .cancelAck s = .next ({ s with filters := [{ x with acked := true }] }.sendTo x.coord 3 .cancelAck { EvArg.zero with a := s.arg.a, b := 1, c := s.arg.c }))
    ∧ (x.acked = false → s.jobRuns s.arg.a s.arg.c = false → x.coord = s.cube → (s.page s.arg.a).busy = true → (s.page s.arg.a).job = s.arg.c → (s.page s.arg.a).pending = [s.cube] → s.peers = [] → Answers .cancelAck s (fun u =>
      (u.page s.arg.a).busy = false ∧ (u.page s.arg.a).pending = [] ∧ (u.page s.arg.a).evcause.testBit 0 = true ∧ u.filters = [{ x with acked := true, done := some s.time }] ∧ u.mem = s.mem ∧ u.ctxs = s.ctxs)))
  ∧ (∀ (s : State) (x : Filter), s.filters = [x] → x.tenant = s.arg.a → x.job = s.arg.b →
    exec .cancelDone s = .next { s with filters := [{ x with done := some s.time }] }
    ∧ ((s.time < x.since + 100000 ∨ x.done = none ∨ s.jobHere x.tenant x.job = true) → exec .filterEntryExpiry s = .next s)
    ∧ (∀ d, x.since + 100000 ≤ s.time → x.done = some d → s.time < d + 60000 → exec .filterEntryExpiry s = .next s)
    ∧ (∀ d, x.since + 100000 ≤ s.time → x.done = some d → d + 60000 ≤ s.time → s.jobHere x.tenant x.job = false →
      (s.cancels = [] → exec .filterEntryExpiry s = .next { s with filters := [] })
      ∧ ∀ t j k l, s.cancels = (t, j, k) :: l → exec .filterEntryExpiry s = .next (({ s with filters := [], cancels := l } : State).applyCancel t j k))))

/-- R450 to R452: a write to a launch window that does not cover its line counts in HERR; one that finds the buffer full sets its slot's bit in WREFMAP, counts in WREF, and is a cause when the map was clear; another counts in WACC and is a received launch.
R452, R453, R462: host writes of the control registers: one that does not cover exactly its register counts in HERR; writing 1s clears WREFMAP and EVCAUSE bits; RSTCTL starts a restore unless one runs; the restore registers and STEALCFG are written whole, a STEALCFG value that breaks its rules counts; the counters and CANSTAT ignore writes.
R357, R380 to R382, R456: creating a tenant sets its registers and clears its control page, or is refused for a tenant that exists or values that break the rules; a reset ends every thread, launch, translation, group, collective and steward event of the tenant, sets its counters to their reset values and reports cause 2; destroying it also gives its counters back and leaves nothing of it.
Completes: launchWindowWrite, controlRegisterWrite, wrefmap, evcause, cancel, rstctl, tenantCreate, tenantReset, tenantDestroy. -/
def Obligations.ControlWindows : Prop :=
  (∀ (s : State) (t k : Nat) (p : HostPage), t = s.arg.a → k = s.arg.w.toNat / 64 % 64 → p = s.page t → (s.tenant t).live = true →
    (s.arg.e ≠ 2 ^ 64 - 1 → exec .launchWindowWrite s = .next (s.herr t))
    ∧ (s.arg.e = 2 ^ 64 - 1 → s.bufferFull t = true → Answers .launchWindowWrite s (fun u => u.launches = s.launches ∧ u.mem = s.mem ∧ (u.page t).wref = (p.wref + 1) % 2 ^ 64 ∧ (u.page t).wacc = p.wacc
      ∧ (∀ i, (u.page t).wrefmap.testBit i = (p.wrefmap.testBit i || i == k)) ∧ (p.wrefmap = 0 → (u.page t).evcause.testBit 3 = true)))
    ∧ (s.arg.e = 2 ^ 64 - 1 → s.bufferFull t = false → ∃ u : State, u.page t = { p with wacc := (p.wacc + 1) % 2 ^ 64 } ∧ u = { s with pages := u.pages } ∧ exec .launchWindowWrite s = .next (u.accept t ((List.range 8).map (fun i => fieldAt s.arg.bytes (8 * i) 8)) (some (t, k)))))
  ∧ (∀ (s : State) (t : Nat) (p : HostPage) (v : Word), t = s.arg.a → p = s.page t → v = s.arg.w →
    ((s.tenant t).live = false → exec .controlRegisterWrite s = .next s ∧ exec .wrefmap s = .next s ∧ exec .evcause s = .next s ∧ exec .cancel s = .next s ∧ exec .rstctl s = .next s)
    ∧ ((s.tenant t).live = true → s.arg.b = 1 → exec .controlRegisterWrite s = .next (s.herr t) ∧ exec .wrefmap s = .next (s.herr t) ∧ exec .evcause s = .next (s.herr t) ∧ exec .cancel s = .next (s.herr t) ∧ exec .rstctl s = .next (s.herr t))
    ∧ ((s.tenant t).live = true → s.arg.b ≠ 1 →
      (∃ m, exec .wrefmap s = .next (s.setPage t { p with wrefmap := m }) ∧ ∀ i, i < 64 → m.testBit i = (p.wrefmap.testBit i && !v.toNat.testBit i))
      ∧ (∃ m, exec .evcause s = .next (s.setPage t { p with evcause := m }) ∧ ∀ i, i < 64 → m.testBit i = (p.evcause.testBit i && !v.toNat.testBit i))
      ∧ (p.rst = .running → exec .rstctl s = .next (s.herr t))
      ∧ (p.rst ≠ .running → (v.toNat.testBit 63 = true → exec .rstctl s = .next (s.setPage t { p with rst := .running })) ∧ (v.toNat.testBit 63 = false → exec .rstctl s = .next s))
      ∧ (s.arg.c = 0x010 → exec .controlRegisterWrite s = exec .wrefmap s) ∧ (s.arg.c = 0x020 → exec .controlRegisterWrite s = exec .cancel s) ∧ (s.arg.c = 0x030 → exec .controlRegisterWrite s = exec .evcause s) ∧ (s.arg.c = 0x098 → exec .controlRegisterWrite s = exec .rstctl s)
      ∧ (s.arg.c ∈ [0x000, 0x008, 0x018, 0x028] → exec .controlRegisterWrite s = .next s)
      ∧ (s.arg.c = 0x080 → exec .controlRegisterWrite s = .next (s.setPage t { p with rstk := v })) ∧ (s.arg.c = 0x088 → exec .controlRegisterWrite s = .next (s.setPage t { p with rstbase := v })) ∧ (s.arg.c = 0x090 → exec .controlRegisterWrite s = .next (s.setPage t { p with rstrep := v }))
      ∧ (∀ i, i < 16 → s.arg.c = 0x100 + 8 * i → ((v.toNat / 4 % 2 ^ 14 ≠ 0 ∨ 2 ≤ v.toNat % 4) → exec .controlRegisterWrite s = .next (s.herr t))
        ∧ (v.toNat / 4 % 2 ^ 14 = 0 → v.toNat % 4 < 2 → exec .controlRegisterWrite s = .next (s.setPage t { p with steal := smPut 0 p.steal i v })))
      ∧ ((0x0A0 ≤ s.arg.c ∧ s.arg.c < 0x100 ∨ 0x180 ≤ s.arg.c) → exec .controlRegisterWrite s = .next (s.herr t))
      ∧ ((v.toNat / 2 ^ 24 % 2 ^ 39 ≠ 0 ∨ p.busy = true) → exec .cancel s = .next (s.herr t))
      ∧ (v.toNat / 2 ^ 24 % 2 ^ 39 = 0 → p.busy = false → v.toNat.testBit 63 = false → exec .cancel s = .next s)
      ∧ (v.toNat / 2 ^ 24 % 2 ^ 39 = 0 → p.busy = false → v.toNat.testBit 63 = true →
        exec .cancel s = .next (((s.setPage t { p with busy := true, job := v.toNat % 2 ^ 24, pending := s.cube :: s.peers }).applyCancel t (v.toNat % 2 ^ 24) s.cube).toAll .cancelPacket { EvArg.zero with a := t, b := v.toNat % 2 ^ 24, c := s.cube }))))
  ∧ (∀ (s : State) (t : Nat), t = s.arg.a →
    (∀ x r p m n, s.arg.words = [x, r, p, m, n] →
      ((s.fw.st ≠ .ready ∨ 16 ≤ t ∨ (s.tenant t).live = true ∨ 2 ^ 52 ≤ x.toNat ∨ x.toNat % 4096 ≠ 0 ∨ 2 ^ 56 ≤ r.toNat ∨ r.toNat % 256 ≠ 0 ∨ 2 ^ 56 ≤ p.toNat ∨ p.toNat % 8192 ≠ 0) → exec .tenantCreate s = .next (s.fmAnswer .tenantCreate t 1))
      ∧ (s.fw.st = .ready → t < 16 → (s.tenant t).live = false → x.toNat < 2 ^ 52 → x.toNat % 4096 = 0 → r.toNat < 2 ^ 56 → r.toNat % 256 = 0 → p.toNat < 2 ^ 56 → p.toNat % 8192 = 0 → Answers .tenantCreate s (fun u =>
        u.tenant t = { live := true, tvec := r, xroot := x, spill := p, tiles := m.toNat + n.toNat * 2 ^ 64, dir := [] } ∧ u.page t = HostPage.zero ∧ (∀ q, q ≠ t → u.tenant q = s.tenant q ∧ u.page q = s.page q) ∧ u.mem = s.mem ∧ u.ctxs = s.ctxs
        ∧ u.outbox = ⟨.tenantCreate, { EvArg.zero with a := t, b := 1, c := 0 }⟩ :: s.outbox)))
    ∧ ((s.fw.st ≠ .ready ∨ (s.tenant t).live = false) → exec .tenantReset s = .next (s.fmAnswer .tenantReset t 1) ∧ exec .tenantDestroy s = .next (s.fmAnswer .tenantDestroy t 1))
    ∧ (s.fw.st = .ready → (s.tenant t).live = true → ∃ v : State, exec .tenantReset s = .next ((v.raiseCause t 2).fmAnswer .tenantReset t 0)
      ∧ (∀ q, ∀ e ∈ v.tlb q, e.tenant ≠ t) ∧ (∀ w ∈ v.walks, w.tenant ≠ t) ∧ (∀ g ∈ v.colls, g.tenant ≠ t) ∧ (∀ c x, (c, x) ∈ v.cores → (∀ e ∈ x.queue, e.fw = true ∨ e.tenant ≠ t) ∧ ∀ e ∈ x.waiting, e.fw = true ∨ e.tenant ≠ t))
    ∧ (s.fw.st = .ready → (s.tenant t).live = true → Answers .tenantDestroy s (fun u => u.tenant t = Tenant.zero ∧ u.page t = HostPage.zero ∧ ∀ k x, (k, x) ∈ u.ctrs → x.owner ≠ some t)))

/-- R477, R478, R482, R485: a warm reset, which the sideband may ask for when the cube is READY, keeps DRAM, its check words and BERR, and nothing else of the machine but what outlasts every reset: the boot flash with its records and what is outside; every stripe-map change that still runs or waits ends with an error response. A cold reset and a power-down keep none of the DRAM; ACTIVATE-FW is a warm reset that boots from the transferred image.
R392, R415, R482, R483: the ROM starts the first image that passes its checks in the order of the sources, and else halts in RECOVERY; the firmware then reports READY with the retired sets of the repair record, every tile scrubbed and without cache, every port in training, and BERR clear after a cold reset. An image that passes has the magic number, a length of whole 4 KiB up to 32 MiB, its entry within the body, the digest of its body and a security version not below the fused one.
Completes: activateFw, warmReset, coldReset, powerDown, boot, firmwareBoot. -/
def Obligations.ResetsAndBoot : Prop :=
  ((∀ (s t : State), t = { State.reset with mem := s.mem.filter (fun c => decide (c.1 < 2 ^ 39)), ecc := s.ecc, berr := s.berr, free := s.free, nid := s.nid, inputs := s.inputs, outbox := s.outbox } →
    (s.fw.st ≠ .ready → exec .warmReset s = .next s)
    ∧ (s.fw.st = .ready → exec .warmReset s = .next { t with outbox := ((s.mapJob.toList ++ s.mapQueue.map (fun g => g.a)).map (fun r => (⟨.mapWrite, { EvArg.zero with a := r, b := 4 }⟩ : Ev))).reverse ++ s.outbox, fw := { State.reset.fw with cold := false, bootsel := s.fw.bootsel, activate := false, flash := s.fw.flash, repair := s.fw.repair, board := s.fw.boardNext, boardNext := s.fw.boardNext } })
    ∧ (s.fw.st = .ready ∨ s.fw.st = .recovery → exec .activateFw s = .next { t with fw := { State.reset.fw with cold := false, bootsel := s.fw.bootsel, activate := true, hostImg := s.fw.hostImg, flash := s.fw.flash, repair := s.fw.repair, board := s.fw.boardNext, boardNext := s.fw.boardNext } }))
  ∧ (∀ s : State, Answers .coldReset s (fun u => u.mem = State.reset.mem ∧ u.ecc = State.reset.ecc ∧ u.berr = State.reset.berr ∧ u.ctxs = State.reset.ctxs ∧ u.tenants = State.reset.tenants ∧ u.power = State.reset.power ∧ u.fw.st = .booting ∧ u.fw.cold = true ∧ u.fw.bootsel = (s.arg.b == 1) ∧ u.fw.flash = s.fw.flash ∧ u.fw.board = s.fw.boardNext)
    ∧ Answers .powerDown s (fun u => u.power = false ∧ u.mem = State.reset.mem ∧ u.ctxs = State.reset.ctxs ∧ u.fw.flash = s.fw.flash)))
  ∧ ((∀ s : State, (s.fw.st ≠ .booting → exec .boot s = .next s) ∧ (s.fw.st ≠ .started → exec .firmwareBoot s = .next s)
    ∧ (s.fw.st = .booting → fusesBad = false → ∀ x y, (if s.fw.activate = true ∨ s.fw.bootsel = true then [s.fw.hostImg, s.fw.flash] else [s.fw.flash, s.fw.hostImg]) = [x, y] →
      (∀ b v sec e, bootImage x = some (b, v, sec, e) → exec .boot s = .next { s with fw := { s.fw with st := .started, activate := false, body := b, version := v, security := sec, entry := e } })
      ∧ (∀ b v sec e, bootImage x = none → bootImage y = some (b, v, sec, e) → exec .boot s = .next { s with fw := { s.fw with st := .started, activate := false, body := b, version := v, security := sec, entry := e } })
      ∧ (bootImage x = none → bootImage y = none → exec .boot s = .next { s with fw := { s.fw with st := .recovery, activate := false } }))
    ∧ (s.fw.st = .booting → fusesBad = true → exec .boot s = .next { s with fw := { s.fw with st := .recovery, activate := false } })
    ∧ (s.fw.st = .started → Answers .firmwareBoot s (fun u => u.fw = { s.fw with st := .ready } ∧ u.mem = s.mem ∧ u.ctxs = s.ctxs ∧ (s.fw.cold = true → u.berr = []) ∧ (s.fw.cold = false → u.berr = s.berr) ∧ u.cube ∉ u.peers
      ∧ (∀ t, t < 128 → (u.tile t).scrubbed = true ∧ (u.tile t).n = 0 ∧ (u.tile t).owner = none ∧ (u.array t).retRows = (List.range 66).filter (fun i => (Config.record s.fw.repair (2 * t)).testBit i) ∧ (u.array t).retCols = (List.range 66).filter (fun i => (Config.record s.fw.repair (2 * t + 1)).testBit i))
      ∧ ∀ p, p < 12 → (u.port p).up = false ∧ (u.port p).down = false ∧ (splits s.fw.board p = false → (u.port p).training = true)
        ∧ (splits s.fw.board p = true → ∀ k, k < 4 → (u.port (12 + 4 * (p - 6) + k)).training = true))))
  ∧ (∀ (img b : List Byte) (v sec e : Nat), bootImage img = some (b, v, sec, e) → ofBytes (img.take 8) = 0x4B4346494D470001 ∧ b.length % 4096 = 0 ∧ b.length ≤ 33554432 ∧ e < b.length ∧ b = (img.drop 512).take b.length ∧ fusedSecurity ≤ sec
    ∧ (img.drop 32).take 64 = toBytes (Config.sha512 b) 64))

/-- R479, R480: the power limit is one from 400 W to 900 W, in effect at once unless start cycles are withheld; a measurement withholds one step more when an average is over its limit, in the order matrix arrays, cisterns, push engines, each down to half, and gives one back in the reverse order when both averages are 5 % below.
R482, R484 to R486: the sideband and firmware over the host port: GET-ID answers the four identification registers in every state; GET-STATUS answers 0 in RECOVERY, 2 when READY, else 1; an attestation is the report with its signature, or is refused before READY; a board record is stored for the next reset; parts of an image are kept. None of them changes a thread or memory.
Completes: transferFw, attest, getId, getStatus, setPowerLimit, writeBoardRecord, powerMeasurement. -/
def Obligations.PowerAndSideband : Prop :=
  ((∀ s : State, (s.fw.st ≠ .ready → exec .setPowerLimit s = .next s)
    ∧ (s.fw.st = .ready → ((s.arg.a < 400 ∨ 900 < s.arg.a) → exec .setPowerLimit s = .next (s.sendOut .setPowerLimit { EvArg.zero with a := s.arg.a, c := 1 }))
      ∧ (400 ≤ s.arg.a → s.arg.a ≤ 900 → Answers .setPowerLimit s (fun u => u.fw.pending = s.arg.a ∧ u.outbox = ⟨.setPowerLimit, { EvArg.zero with a := s.arg.a }⟩ :: s.outbox ∧ u.mem = s.mem ∧ u.ctxs = s.ctxs
        ∧ (s.fw.withheld = (0, 0, 0) → u.fw.limit = s.arg.a) ∧ (s.fw.withheld ≠ (0, 0, 0) → u.fw.limit = s.fw.limit)))))
  ∧ (∀ (s : State) (l : List Nat), l = (Config.power s.free :: s.fw.samples).take 10000 → Answers .powerMeasurement s (fun u => u.fw.samples = l ∧ u.fw.power = Config.power s.free ∧ u.fw.limit = s.fw.pending ∧ u.ctxs = s.ctxs ∧ u.mem = s.mem
    ∧ ((l.length * s.fw.pending < l.sum ∨ (l.take 100).length * 1000 < (l.take 100).sum) → u.fw.withheld = withhold s.fw.withheld)
    ∧ (l.sum * 100 ≤ l.length * s.fw.pending * 95 → (l.take 100).sum * 100 ≤ (l.take 100).length * 1000 * 95 → u.fw.withheld = giveBack s.fw.withheld)))
  ∧ (∀ m c p : Nat, (m < 32 → withhold (m, c, p) = (m + 1, c, p)) ∧ (c < 32 → withhold (32, c, p) = (32, c + 1, p)) ∧ (p < 32 → withhold (32, 32, p) = (32, 32, p + 1)) ∧ withhold (32, 32, 32) = (32, 32, 32)
    ∧ giveBack (m, c, p + 1) = (m, c, p) ∧ giveBack (m, c + 1, 0) = (m, c, 0) ∧ giveBack (m + 1, 0, 0) = (m, 0, 0) ∧ giveBack (0, 0, 0) = (0, 0, 0)))
  ∧ (∀ s : State,
    exec .getId s = .next (s.sendOut .getId { EvArg.zero with words := [s.idr 0, s.idr 1, s.idr 2, s.idr 3] })
    ∧ (∃ n, exec .getStatus s = .next (s.sendOut .getStatus { EvArg.zero with a := n, b := s.fw.power, c := s.fw.heat }) ∧ (n = 0 ↔ s.fw.st = .recovery) ∧ (n = 2 ↔ s.fw.st = .ready) ∧ n ≤ 2)
    ∧ (s.fw.st ≠ .ready → exec .attest s = .next (s.sendOut .attest { EvArg.zero with b := s.arg.b, c := 1 }) ∧ exec .writeBoardRecord s = .next s)
    ∧ (s.fw.st = .ready → exec .writeBoardRecord s = .next { s with fw := { s.fw with boardNext := s.arg.bytes } }
      ∧ ∃ r g : List Byte, exec .attest s = .next (s.sendOut .attest { EvArg.zero with b := s.arg.b, bytes := r ++ g }) ∧ r.length = 216 ∧ (s.arg.bytes.length = 64 → r.take 64 = s.arg.bytes) ∧ ofBytes ((r.drop 208).take 8) = s.time % 2 ^ 64 ∧ ofBytes ((r.drop 136).take 8) = (s.idr 1).toNat)
    ∧ ((s.fw.st = .ready ∨ s.fw.st = .recovery) → Answers .transferFw s (fun u => u.fw = { s.fw with hostImg := s.fw.hostImg.take s.arg.d ++ s.arg.bytes } ∧ u.mem = s.mem ∧ u.ctxs = s.ctxs ∧ u.outbox = ⟨.transferFw, { EvArg.zero with a := 0, b := 1, c := 0 }⟩ :: s.outbox))
    ∧ (s.fw.st ≠ .ready → s.fw.st ≠ .recovery → exec .transferFw s = .next s ∧ exec .activateFw s = .next s))

/-- R24, R34, R40, R123: a step runs the decoded instruction. When the only thing that may happen is an issue of core c, which selects context i, and the words at its pc decode to an instruction, the step is that instruction's exec on the state after the selection and the fetch, and then what happens between instructions: a note of a question to another cube, threads that go, and time. An event that is the only thing that may happen is run likewise, and an input comes before everything else: one that the machine does not take, or a packet that it discards, changes nothing but what the receipt itself notes (R248, R419). -/
def Obligations.StepRunsDecoded : Prop :=
  (∀ (s v t : State) (c i : Nat) (b : List Byte) (j : Instr), s.power = true → s.inputs = [] → s.choices = [.core c] → s.selected c (s.candidates c) = some i →
    v = { s.select c i (s.candidates c) with cur := (c, i), arg := EvArg.zero } → v.self.home = none → v.self.entering = false →
    (v.setSelf { v.self with park := none }).fetch v.self.pc.toNat = .line b t → decode (kindOf c) (decide (v.self.pc.toNat % 32 = 0)) (fetchedWords b v.self.pc) = .ok j →
    ∀ u, exec j t = .next u → step s = .next (u.settle j t.arg))
  ∧ (∀ (s : State) (e : Ev), s.power = true → s.inputs = [] → s.choices = [.event e] → ∀ u, exec e.op { s with cur := (320, 0), arg := e.arg, asks := s.asks.filter (fun q => q.key ≠ e.key) } = .next u → step s = .next (u.settle e.op e.arg))
  ∧ (∀ (s v : State) (e : Ev) (r : List Ev), s.inputs = e :: r → v = { s with inputs := r } →
    (v.takes e = false → step s = .next (v.settle .cpsync EvArg.zero))
    ∧ (v.takes e = true → (e.arg.seq = none ∨ e.arg.peer = none → v.receive e = (true, v))
      ∧ (∀ w, v.receive e = (false, w) → step s = .next (w.settle .cpsync EvArg.zero))
      ∧ ∀ w u, v.receive e = (true, w) → exec e.op { w with cur := (320, 0), arg := e.arg, asks := w.asks.filter (fun q => q.key ≠ e.key) } = .next u → step s = .next (u.settle e.op e.arg)))
  ∧ (∀ s : State, s.power = false → s.inputs = [] → step s = .fault .powerOff)

/-- Every instruction and event answers a next state; a step is never refused, and stops only without power.
R24, R40: the instruction that a table word spells is the one that a started thread runs first: on the machine of `withFetchWord` the step is that instruction's exec in a state whose running thread stands at pc 0 on the core that the instruction belongs to, with no register written. -/
def Obligations.StepsAnswer : Prop :=
  ((∀ (i : Instr) (s : State), ∃ t, exec i s = .next t) ∧ ∀ s : State, SafeFrom s)
  ∧ (∀ (n w : Nat) (i : Instr), (n = 32 ∨ n = 256) → decodeTableWord n w = some i →
    ∃ t : State, t.self.pc = 0 ∧ t.self.occ = true ∧ t.self.priv = .supervisor ∧ t.self.park = none ∧ (∀ r, t.self.cell r = State.reset.self.cell r) ∧ t.mem = State.reset.mem ∧ t.reqs = []
      ∧ decode (kindOf t.cur.1) true (wordsOf (w % 2 ^ n) 8) = .ok i ∧ ∀ u, exec i t = .next u → step (State.reset.withFetchWord n w) = .next (u.settle i EvArg.zero))

/-- R35 to R64: decoding and encoding agree: for every well-formed instruction, some core decodes the words of its encoding to it, whatever its operands, and no core decodes them to another instruction. -/
def Obligations.DecodeEncodeAgree : Prop :=
  ∀ i : Instr, i.wf = true → encode i ≠ [] →
    (∃ k, decode k true (encode i) = .ok i) ∧ (∀ k al j, decode k al (encode i) = .ok j → j = i) ∧ ∀ w ∈ encode i, w < 2 ^ 32

/-- R36 to R64: a few words written out from the encoding tables decode to the instructions they stand for.
R40, R41: a word of an unassigned major opcode is illegal with subcode 1, and one of an opcode that the core may not execute with subcode 2. -/
def Obligations.WordsDecode : Prop :=
  (decode .a true [0x05455628] = .ok (.mix 20 21 22 false false) ∧ decode .a true [0x24512345] = .ok (.lui 5 0x12345) ∧ decode .v true [0x44100064] = .ok (.jal 1 100)
  ∧ decode .e true [0x58518700] = .ok (.fadd 5 6 7 false false) ∧ decode .a true [0x34708C02] = .ok (.stD 7 2 false 2) ∧ decode .a true [0xB0000005] = .ok (.sys 5)
  ∧ decode .e true [0x85048002] = .ok (.vmulFp 8 4 16 .f32 0) ∧ decode .v true [0xAD455600] = .ok (.cist 20 21 22 false false) ∧ decode .a true [0xA0320002] = .ok (.vldp 3 8 false 2)
  ∧ decode .a true [0] = .illegal 1 ∧ decode .a true [0x85048002] = .illegal 2)
  ∧ (∀ (k : CoreKind) (al : Bool) (ws : List Nat) (op : Nat), op = ws.headD 0 / 2 ^ 26 % 64 →
    ((op = 0 ∨ (0x2E ≤ op ∧ op ≤ 0x3E)) → decode k al ws = .illegal 1)
    ∧ ((op ∈ [0x0E, 0x0F, 0x28] ∧ k ≠ .a ∨ ((op = 0x15 ∨ 0x20 ≤ op ∧ op ≤ 0x27 ∨ op = 0x29 ∨ op = 0x2A) ∧ k ≠ .e) ∨ (op = 0x1C ∧ k = .v) ∨ (op = 0x1F ∧ k = .e) ∨ (op = 0x2B ∧ k ≠ .v)) → decode k al ws = .illegal 2))

/-- R117, R243, R318, R482, R483: the machine right after a cold reset: the boot ROM is to run, nothing has been fetched or cached, no context holds a thread, no tenant exists, no memory byte differs from what an unlisted byte reads as (the model's choice, log entry 1), every counter is at its reset values, the launch counters of the tile cores at count 1 (R125), and no request, launch or command is there. The values that the spec does not give are the model's (log entry 2). -/
def Obligations.ResetState : Prop :=
  State.reset.fw.st = .booting ∧ State.reset.fw.cold = true ∧ State.reset.power = true ∧ State.reset.mem = [] ∧ State.reset.memOk = true ∧ State.reset.reqs = [] ∧ State.reset.cmds = [] ∧ State.reset.launches = [] ∧ State.reset.inputs = []
  ∧ (∀ k, (State.reset.ctx k).occ = false) ∧ (∀ t, (State.reset.tenant t).live = false) ∧ (∀ c, (State.reset.core c).icache = [] ∧ (State.reset.core c).ring = []) ∧ (∀ k, (State.reset.counter k).owner = none ∧ (State.reset.counter k).count = (if k % 64 = 63 ∧ k / 64 < 256 then 1 else 0))
  ∧ (∀ a, Memory.byte State.reset.mem a = 0) ∧ State.reset.choices = [.event (ev .boot 0 0 0)]

/-- R24, R218: every step keeps the memory in the canonical form that the model gives it (log entry 1): addresses strictly rising, and no listed byte equal to what an unlisted address reads as. -/
def Obligations.StepKeepsMemory : Prop :=
  ∀ s t : State, s.memOk = true → step s = .next t → t.memOk = true
end

