-- ==== Sys2Proof/Laws/Memory.lean ====
section
/-! SUPPORT. Sparse maps and memory: reading after writing, and the canonical form that every memory operation keeps. -/

namespace Sys2Proof.Machine

/-- Every key of a map lies above a bound. -/
def smAbove {α : Type} (b : Nat) (m : SMap α) : Prop := ∀ e ∈ m, b < e.1

/-- The canonical form, said by its parts: entries off the default, keys rising. -/
theorem smWf_cons {α : Type} [DecidableEq α] (d : α) (k : Nat) (v : α) (t : SMap α) :
    smWf d ((k, v) :: t) = true ↔ v ≠ d ∧ smAbove k t ∧ smWf d t = true := by
  induction t generalizing k v with
  | nil => simp [smWf, smAbove]
  | cons e t ih =>
    obtain ⟨k', v'⟩ := e
    have h := ih k' v'
    simp only [smWf, Bool.and_eq_true, decide_eq_true_eq, ne_eq, decide_not, Bool.not_eq_true', decide_eq_false_iff_not]
    constructor
    · rintro ⟨⟨h1, h2⟩, h3⟩
      refine ⟨h1, ?_, h3⟩
      intro e he
      rcases List.mem_cons.1 he with rfl | he
      · exact h2
      · exact Nat.lt_trans h2 ((h.1 h3).2.1 e he)
    · rintro ⟨h1, h2, h3⟩
      exact ⟨⟨h1, h2 _ (List.mem_cons_self ..)⟩, h3⟩

theorem smAbove_smPut {α : Type} [DecidableEq α] (d : α) (b i : Nat) (x : α) (m : SMap α) (hi : b < i) (hm : smAbove b m) :
    smAbove b (smPut d m i x) := by
  induction m with
  | nil => intro e he; simp only [smPut] at he; split at he <;> simp_all
  | cons e t ih =>
    obtain ⟨k, v⟩ := e
    have hk : b < k := hm _ (List.mem_cons_self ..)
    have ht : smAbove b t := fun e he => hm e (List.mem_cons_of_mem _ he)
    intro e he
    simp only [smPut] at he
    split at he
    · split at he
      · exact hm e he
      · rcases List.mem_cons.1 he with rfl | he
        · exact hi
        · exact hm e he
    · split at he
      · split at he
        · exact ht e he
        · rcases List.mem_cons.1 he with rfl | he
          · exact hk
          · exact ht e he
      · rcases List.mem_cons.1 he with rfl | he
        · exact hk
        · exact ih ht e he

theorem smHeadAbove_of {α : Type} (b : Nat) (m : SMap α) (h : smAbove b m) : smHeadAbove b m = true := by
  cases m with
  | nil => rfl
  | cons e t => simpa [smHeadAbove] using h e (List.mem_cons_self ..)

theorem smGet_headAbove {α : Type} (d : α) (m : SMap α) (i j : Nat) (h : smHeadAbove i m = true) (hj : j ≤ i) : smGet d m j = d := by
  cases m with
  | nil => rfl
  | cons e t =>
    obtain ⟨k, v⟩ := e
    simp only [smHeadAbove, decide_eq_true_eq] at h
    simp only [smGet]; rw [if_pos (by omega)]

/-- A change of one key keeps the canonical form. -/
theorem smWf_smPut {α : Type} [DecidableEq α] (d : α) (i : Nat) (x : α) (m : SMap α) (h : smWf d m = true) :
    smWf d (smPut d m i x) = true := by
  induction m with
  | nil => simp only [smPut]; split <;> simp_all [smWf]
  | cons e t ih =>
    obtain ⟨k, v⟩ := e
    obtain ⟨h1, h2, h3⟩ := (smWf_cons d k v t).1 h
    simp only [smPut]
    split
    · split
      · exact h
      · rename_i hik hx
        refine (smWf_cons d i x _).2 ⟨hx, ?_, h⟩
        intro e he
        rcases List.mem_cons.1 he with rfl | he
        · exact hik
        · exact Nat.lt_trans hik (h2 e he)
    · split
      · rename_i hik
        split
        · exact h3
        · rename_i hx
          rw [hik, smHeadAbove_of k t h2] at hx
          exact (smWf_cons d k x t).2 ⟨fun e => hx ⟨e, rfl⟩, h2, h3⟩
      · rename_i h4 h5
        exact (smWf_cons d k v _).2 ⟨h1, smAbove_smPut d k i x t (by omega) h2, ih h3⟩

/-- Reading the key just written gives the value written. -/
@[simp] theorem smGet_smPut_self {α : Type} [DecidableEq α] (d : α) (i : Nat) (x : α) (m : SMap α) :
    smGet d (smPut d m i x) i = x := by
  induction m with
  | nil => simp only [smPut]; split <;> simp_all [smGet]
  | cons e t ih =>
    obtain ⟨k, v⟩ := e
    simp only [smPut]
    split
    · rename_i hik
      split
      · simp only [smGet]; rw [if_pos hik]; simp_all
      · simp [smGet]
    · split
      · rename_i hik
        split
        · rename_i hx; rw [smGet_headAbove d t i i hx.2 (Nat.le_refl _), hx.1]
        · simp [smGet, hik]
      · rename_i h4 h5
        simp only [smGet]; rw [if_neg h4, if_neg h5]; exact ih

/-- Writing one key leaves every other key alone, whatever an absent key reads as. -/
theorem smGet_smPut_other {α : Type} [DecidableEq α] (d d' : α) (i j : Nat) (x : α) (m : SMap α) (hj : j ≠ i) :
    smGet d' (smPut d m i x) j = smGet d' m j := by
  induction m with
  | nil => simp only [smPut]; split <;> simp [smGet] ; omega
  | cons e t ih =>
    obtain ⟨k, v⟩ := e
    simp only [smPut]
    split
    · rename_i hik
      split
      · rfl
      · simp only [smGet]
        by_cases hji : j < i
        · rw [if_pos hji, if_pos (by omega)]
        · rw [if_neg hji, if_neg (by omega)]
    · split
      · rename_i hik
        split
        · rename_i hx
          simp only [smGet]
          by_cases hjk : j < k
          · rw [if_pos hjk]; exact smGet_headAbove d' t i j hx.2 (by omega)
          · rw [if_neg hjk, if_neg (by omega)]
        · simp only [smGet]
          by_cases hjk : j < k
          · rw [if_pos hjk, if_pos hjk]
          · rw [if_neg hjk, if_neg hjk, if_neg (by omega), if_neg (by omega)]
      · simp only [smGet, ih]

theorem smGet_smPut_ne {α : Type} [DecidableEq α] (d : α) (i j : Nat) (x : α) (m : SMap α) (hj : j ≠ i) :
    smGet d (smPut d m i x) j = smGet d m j := smGet_smPut_other d d i j x m hj

/-! ### Memory -/

theorem Memory.wf_put (m : List Host.Cell) (a : Nat) (b : Byte) (h : Memory.wf m = true) : Memory.wf (Memory.put m a b) = true :=
  smWf_smPut emptyByte a b m h

theorem Memory.wf_write (m : List Host.Cell) (a : Nat) (bs : List Byte) (h : Memory.wf m = true) : Memory.wf (Memory.write m a bs) = true := by
  induction bs generalizing m a with
  | nil => exact h
  | cons b bs ih => exact ih _ _ (Memory.wf_put m a b h)

theorem Memory.wf_writeAt (m : List Host.Cell) (a : Nat) (bs : List (Nat × Byte)) (h : Memory.wf m = true) :
    Memory.wf (Memory.writeAt m a bs) = true := by
  induction bs generalizing m with
  | nil => exact h
  | cons b bs ih => exact ih _ (Memory.wf_put m (a + b.1) b.2 h)

theorem wf_scratchPut (m : List Host.Cell) (t o : Nat) (bs : List Byte) (h : Memory.wf m = true) : Memory.wf (scratchPut m t o bs) = true := by
  induction bs generalizing m o with
  | nil => exact h
  | cons b bs ih => exact ih _ _ (Memory.wf_put m (scratchKey t o) b h)

/-- Taking entries away keeps the canonical form. -/
theorem smWf_filter {α : Type} [DecidableEq α] (d : α) (p : Nat × α → Bool) (m : SMap α) (h : smWf d m = true) :
    smWf d (m.filter p) = true := by
  induction m with
  | nil => rfl
  | cons e t ih =>
    obtain ⟨k, v⟩ := e
    obtain ⟨h1, h2, h3⟩ := (smWf_cons d k v t).1 h
    rw [List.filter_cons]
    split
    · exact (smWf_cons d k v _).2 ⟨h1, fun e he => h2 e (List.mem_filter.1 he).1, ih h3⟩
    · exact ih h3

theorem Memory.wf_filter (m : List Host.Cell) (p : Host.Cell → Bool) (h : Memory.wf m = true) : Memory.wf (m.filter p) = true :=
  smWf_filter emptyByte p m h

/-- A byte read after it has been written. -/
@[simp] theorem Memory.byte_put_self (m : List Host.Cell) (a : Nat) (b : Byte) : Memory.byte (Memory.put m a b) a = b :=
  smGet_smPut_self emptyByte a b m

/-- A byte elsewhere after a write. -/
theorem Memory.byte_put_ne (m : List Host.Cell) (a c : Nat) (b : Byte) (hc : c ≠ a) :
    Memory.byte (Memory.put m a b) c = Memory.byte m c :=
  smGet_smPut_ne emptyByte a c b m hc

/-- Bytes written from an address on leave every address outside them alone. -/
theorem Memory.byte_write_outside (m : List Host.Cell) (a c : Nat) (bs : List Byte) (hc : c < a ∨ a + bs.length ≤ c) :
    Memory.byte (Memory.write m a bs) c = Memory.byte m c := by
  induction bs generalizing m a with
  | nil => rfl
  | cons b bs ih =>
    simp only [List.length_cons] at hc
    show Memory.byte (Memory.write (Memory.put m a b) (a + 1) bs) c = _
    rw [ih _ _ (by omega), Memory.byte_put_ne m a c b (by omega)]

/-- Bytes read back after they have been written. -/
theorem Memory.read_write_self (m : List Host.Cell) (a : Nat) (bs : List Byte) :
    Memory.read (Memory.write m a bs) a bs.length = bs := by
  induction bs generalizing m a with
  | nil => rfl
  | cons b bs ih =>
    show Memory.byte (Memory.write (Memory.put m a b) (a + 1) bs) a :: Memory.read (Memory.write (Memory.put m a b) (a + 1) bs) (a + 1) bs.length = _
    rw [ih, Memory.byte_write_outside _ _ _ _ (by omega), Memory.byte_put_self m a b]

/-! ### What the state holds after a named update -/

@[simp] theorem State.ctx_setCtx_self (s : State) (k : Nat) (x : Ctx) : (s.setCtx k x).ctx k = x :=
  smGet_smPut_self Ctx.free k x s.ctxs

theorem State.ctx_setCtx_ne (s : State) (k j : Nat) (x : Ctx) (hj : j ≠ k) : (s.setCtx k x).ctx j = s.ctx j :=
  smGet_smPut_ne Ctx.free k j x s.ctxs hj

@[simp] theorem State.core_setCore_self (s : State) (k : Nat) (x : CoreSt) : (s.setCore k x).core k = x :=
  smGet_smPut_self CoreSt.zero k x s.cores

theorem State.core_setCore_ne (s : State) (k j : Nat) (x : CoreSt) (hj : j ≠ k) : (s.setCore k x).core j = s.core j :=
  smGet_smPut_ne CoreSt.zero k j x s.cores hj

@[simp] theorem State.tile_setTile_self (s : State) (k : Nat) (x : TileSt) : (s.setTile k x).tile k = x :=
  smGet_smPut_self TileSt.zero k x s.tiles

theorem State.tile_setTile_ne (s : State) (k j : Nat) (x : TileSt) (hj : j ≠ k) : (s.setTile k x).tile j = s.tile j :=
  smGet_smPut_ne TileSt.zero k j x s.tiles hj

@[simp] theorem State.tenant_setTenant_self (s : State) (k : Nat) (x : Tenant) : (s.setTenant k x).tenant k = x :=
  smGet_smPut_self Tenant.zero k x s.tenants

/-- A register written reads the value, full and without a mark; s0 stays zero (R8, R9). -/
theorem Ctx.cell_setCell (x : Ctx) (r q : Nat) (c : Cell) :
    (x.setCell r c).cell q = if q = r ∧ r ≠ 0 then c else x.cell q := by
  by_cases hr : r = 0
  · simp [Ctx.setCell, hr]
  · simp only [Ctx.setCell, if_neg hr, Ctx.cell]
    by_cases hq : q = r
    · subst hq; simp [hr, smGet_smPut_self]
    · simp [hq, smGet_smPut_ne _ _ _ _ _ hq]

/-- s0 reads zero and is full, whatever the context holds (R8). -/
@[simp] theorem Ctx.cell_zero (x : Ctx) : x.cell 0 = Cell.zero := rfl

/-- A write to s0 changes nothing (R8). -/
@[simp] theorem Ctx.setCell_zero (x : Ctx) (c : Cell) : x.setCell 0 c = x := rfl

end Sys2Proof.Machine
end

