-- ==== Sys2Proof/Laws/State.lean ====
section
/-! SUPPORT. What each named update of the state leaves in each field; all true by computation. -/

namespace Sys2Proof.Machine

@[simp] theorem State.setCtx_power (s : State) (k : Nat) (x : Ctx) : (s.setCtx k x).power = s.power := rfl
@[simp] theorem State.setCtx_cube (s : State) (k : Nat) (x : Ctx) : (s.setCtx k x).cube = s.cube := rfl
@[simp] theorem State.setCtx_time (s : State) (k : Nat) (x : Ctx) : (s.setCtx k x).time = s.time := rfl
@[simp] theorem State.setCtx_cycle (s : State) (k : Nat) (x : Ctx) : (s.setCtx k x).cycle = s.cycle := rfl
@[simp] theorem State.setCtx_free (s : State) (k : Nat) (x : Ctx) : (s.setCtx k x).free = s.free := rfl
@[simp] theorem State.setCtx_nid (s : State) (k : Nat) (x : Ctx) : (s.setCtx k x).nid = s.nid := rfl
@[simp] theorem State.setCtx_cur (s : State) (k : Nat) (x : Ctx) : (s.setCtx k x).cur = s.cur := rfl
@[simp] theorem State.setCtx_arg (s : State) (k : Nat) (x : Ctx) : (s.setCtx k x).arg = s.arg := rfl
@[simp] theorem State.setCtx_inputs (s : State) (k : Nat) (x : Ctx) : (s.setCtx k x).inputs = s.inputs := rfl
@[simp] theorem State.setCtx_outbox (s : State) (k : Nat) (x : Ctx) : (s.setCtx k x).outbox = s.outbox := rfl
@[simp] theorem State.setCtx_mem (s : State) (k : Nat) (x : Ctx) : (s.setCtx k x).mem = s.mem := rfl
@[simp] theorem State.setCtx_ecc (s : State) (k : Nat) (x : Ctx) : (s.setCtx k x).ecc = s.ecc := rfl
@[simp] theorem State.setCtx_bad (s : State) (k : Nat) (x : Ctx) : (s.setCtx k x).bad = s.bad := rfl
@[simp] theorem State.setCtx_cores (s : State) (k : Nat) (x : Ctx) : (s.setCtx k x).cores = s.cores := rfl
@[simp] theorem State.setCtx_ctrs (s : State) (k : Nat) (x : Ctx) : (s.setCtx k x).ctrs = s.ctrs := rfl
@[simp] theorem State.setCtx_stored (s : State) (k : Nat) (x : Ctx) : (s.setCtx k x).stored = s.stored := rfl
@[simp] theorem State.setCtx_nt (s : State) (k : Nat) (x : Ctx) : (s.setCtx k x).nt = s.nt := rfl
@[simp] theorem State.setCtx_queues (s : State) (k : Nat) (x : Ctx) : (s.setCtx k x).queues = s.queues := rfl
@[simp] theorem State.setCtx_chains (s : State) (k : Nat) (x : Ctx) : (s.setCtx k x).chains = s.chains := rfl
@[simp] theorem State.setCtx_tlbs (s : State) (k : Nat) (x : Ctx) : (s.setCtx k x).tlbs = s.tlbs := rfl
@[simp] theorem State.setCtx_walks (s : State) (k : Nat) (x : Ctx) : (s.setCtx k x).walks = s.walks := rfl
@[simp] theorem State.setCtx_reqs (s : State) (k : Nat) (x : Ctx) : (s.setCtx k x).reqs = s.reqs := rfl
@[simp] theorem State.setCtx_net (s : State) (k : Nat) (x : Ctx) : (s.setCtx k x).net = s.net := rfl
@[simp] theorem State.setCtx_vbanks (s : State) (k : Nat) (x : Ctx) : (s.setCtx k x).vbanks = s.vbanks := rfl
@[simp] theorem State.setCtx_vops (s : State) (k : Nat) (x : Ctx) : (s.setCtx k x).vops = s.vops := rfl
@[simp] theorem State.setCtx_reps (s : State) (k : Nat) (x : Ctx) : (s.setCtx k x).reps = s.reps := rfl
@[simp] theorem State.setCtx_cmds (s : State) (k : Nat) (x : Ctx) : (s.setCtx k x).cmds = s.cmds := rfl
@[simp] theorem State.setCtx_sems (s : State) (k : Nat) (x : Ctx) : (s.setCtx k x).sems = s.sems := rfl
@[simp] theorem State.setCtx_groups (s : State) (k : Nat) (x : Ctx) : (s.setCtx k x).groups = s.groups := rfl
@[simp] theorem State.setCtx_tenants (s : State) (k : Nat) (x : Ctx) : (s.setCtx k x).tenants = s.tenants := rfl
@[simp] theorem State.setCtx_fwTraps (s : State) (k : Nat) (x : Ctx) : (s.setCtx k x).fwTraps = s.fwTraps := rfl
@[simp] theorem State.setCtx_contain (s : State) (k : Nat) (x : Ctx) : (s.setCtx k x).contain = s.contain := rfl
@[simp] theorem State.setCtx_regions (s : State) (k : Nat) (x : Ctx) : (s.setCtx k x).regions = s.regions := rfl
@[simp] theorem State.setCtx_settab (s : State) (k : Nat) (x : Ctx) : (s.setCtx k x).settab = s.settab := rfl
@[simp] theorem State.setCtx_mapgen (s : State) (k : Nat) (x : Ctx) : (s.setCtx k x).mapgen = s.mapgen := rfl
@[simp] theorem State.setCtx_linear (s : State) (k : Nat) (x : Ctx) : (s.setCtx k x).linear = s.linear := rfl
@[simp] theorem State.setCtx_tiles (s : State) (k : Nat) (x : Ctx) : (s.setCtx k x).tiles = s.tiles := rfl
@[simp] theorem State.setCtx_journal (s : State) (k : Nat) (x : Ctx) : (s.setCtx k x).journal = s.journal := rfl
@[simp] theorem State.setCtx_jsize (s : State) (k : Nat) (x : Ctx) : (s.setCtx k x).jsize = s.jsize := rfl
@[simp] theorem State.setCtx_jhigh (s : State) (k : Nat) (x : Ctx) : (s.setCtx k x).jhigh = s.jhigh := rfl
@[simp] theorem State.setCtx_stalls (s : State) (k : Nat) (x : Ctx) : (s.setCtx k x).stalls = s.stalls := rfl
@[simp] theorem State.setCtx_ivals (s : State) (k : Nat) (x : Ctx) : (s.setCtx k x).ivals = s.ivals := rfl
@[simp] theorem State.setCtx_ckpts (s : State) (k : Nat) (x : Ctx) : (s.setCtx k x).ckpts = s.ckpts := rfl
@[simp] theorem State.setCtx_berr (s : State) (k : Nat) (x : Ctx) : (s.setCtx k x).berr = s.berr := rfl
@[simp] theorem State.setCtx_launches (s : State) (k : Nat) (x : Ctx) : (s.setCtx k x).launches = s.launches := rfl
@[simp] theorem State.setCtx_history (s : State) (k : Nat) (x : Ctx) : (s.setCtx k x).history = s.history := rfl
@[simp] theorem State.setCtx_rotate (s : State) (k : Nat) (x : Ctx) : (s.setCtx k x).rotate = s.rotate := rfl
@[simp] theorem State.setCtx_arrays (s : State) (k : Nat) (x : Ctx) : (s.setCtx k x).arrays = s.arrays := rfl
@[simp] theorem State.setCtx_moving (s : State) (k : Nat) (x : Ctx) : (s.setCtx k x).moving = s.moving := rfl
@[simp] theorem State.setCtx_diffused (s : State) (k : Nat) (x : Ctx) : (s.setCtx k x).diffused = s.diffused := rfl
@[simp] theorem State.setCtx_filters (s : State) (k : Nat) (x : Ctx) : (s.setCtx k x).filters = s.filters := rfl
@[simp] theorem State.setCtx_cancels (s : State) (k : Nat) (x : Ctx) : (s.setCtx k x).cancels = s.cancels := rfl
@[simp] theorem State.setCtx_peers (s : State) (k : Nat) (x : Ctx) : (s.setCtx k x).peers = s.peers := rfl
@[simp] theorem State.setCtx_notices (s : State) (k : Nat) (x : Ctx) : (s.setCtx k x).notices = s.notices := rfl
@[simp] theorem State.setCtx_lends (s : State) (k : Nat) (x : Ctx) : (s.setCtx k x).lends = s.lends := rfl
@[simp] theorem State.setCtx_expiry (s : State) (k : Nat) (x : Ctx) : (s.setCtx k x).expiry = s.expiry := rfl
@[simp] theorem State.setCtx_images (s : State) (k : Nat) (x : Ctx) : (s.setCtx k x).images = s.images := rfl
@[simp] theorem State.setCtx_fw (s : State) (k : Nat) (x : Ctx) : (s.setCtx k x).fw = s.fw := rfl
@[simp] theorem State.setCtx_ports (s : State) (k : Nat) (x : Ctx) : (s.setCtx k x).ports = s.ports := rfl
@[simp] theorem State.setCtx_einj (s : State) (k : Nat) (x : Ctx) : (s.setCtx k x).einj = s.einj := rfl
@[simp] theorem State.setCtx_invs (s : State) (k : Nat) (x : Ctx) : (s.setCtx k x).invs = s.invs := rfl
@[simp] theorem State.setCtx_micro (s : State) (k : Nat) (x : Ctx) : (s.setCtx k x).micro = s.micro := rfl
@[simp] theorem State.setCtx_entries (s : State) (k : Nat) (x : Ctx) : (s.setCtx k x).entries = s.entries := rfl
@[simp] theorem State.setCtx_pages (s : State) (k : Nat) (x : Ctx) : (s.setCtx k x).pages = s.pages := rfl
@[simp] theorem State.setCtx_pdcs (s : State) (k : Nat) (x : Ctx) : (s.setCtx k x).pdcs = s.pdcs := rfl
@[simp] theorem State.setCtx_pdcWait (s : State) (k : Nat) (x : Ctx) : (s.setCtx k x).pdcWait = s.pdcWait := rfl
@[simp] theorem State.setCtx_sendNo (s : State) (k : Nat) (x : Ctx) : (s.setCtx k x).sendNo = s.sendNo := rfl
@[simp] theorem State.setCtx_heard (s : State) (k : Nat) (x : Ctx) : (s.setCtx k x).heard = s.heard := rfl
@[simp] theorem State.setCtx_arrivals (s : State) (k : Nat) (x : Ctx) : (s.setCtx k x).arrivals = s.arrivals := rfl
@[simp] theorem State.setCtx_lost (s : State) (k : Nat) (x : Ctx) : (s.setCtx k x).lost = s.lost := rfl
@[simp] theorem State.setCtx_told (s : State) (k : Nat) (x : Ctx) : (s.setCtx k x).told = s.told := rfl
@[simp] theorem State.setCtx_colls (s : State) (k : Nat) (x : Ctx) : (s.setCtx k x).colls = s.colls := rfl
@[simp] theorem State.setCtx_births (s : State) (k : Nat) (x : Ctx) : (s.setCtx k x).births = s.births := rfl
@[simp] theorem State.setCtx_uud (s : State) (k : Nat) (x : Ctx) : (s.setCtx k x).uud = s.uud := rfl
@[simp] theorem State.setCtx_mesh (s : State) (k : Nat) (x : Ctx) : (s.setCtx k x).mesh = s.mesh := rfl
@[simp] theorem State.setCtx_meshOut (s : State) (k : Nat) (x : Ctx) : (s.setCtx k x).meshOut = s.meshOut := rfl
@[simp] theorem State.setCtx_slew (s : State) (k : Nat) (x : Ctx) : (s.setCtx k x).slew = s.slew := rfl
@[simp] theorem State.setCtx_slewAcc (s : State) (k : Nat) (x : Ctx) : (s.setCtx k x).slewAcc = s.slewAcc := rfl
@[simp] theorem State.setCtx_timeSent (s : State) (k : Nat) (x : Ctx) : (s.setCtx k x).timeSent = s.timeSent := rfl
@[simp] theorem State.setCtx_joined (s : State) (k : Nat) (x : Ctx) : (s.setCtx k x).joined = s.joined := rfl
@[simp] theorem State.setCtx_mapJob (s : State) (k : Nat) (x : Ctx) : (s.setCtx k x).mapJob = s.mapJob := rfl
@[simp] theorem State.setCtx_mapWait (s : State) (k : Nat) (x : Ctx) : (s.setCtx k x).mapWait = s.mapWait := rfl
@[simp] theorem State.setCtx_mapQueue (s : State) (k : Nat) (x : Ctx) : (s.setCtx k x).mapQueue = s.mapQueue := rfl
@[simp] theorem State.setCtx_mapLast (s : State) (k : Nat) (x : Ctx) : (s.setCtx k x).mapLast = s.mapLast := rfl
@[simp] theorem State.setCtx_draining (s : State) (k : Nat) (x : Ctx) : (s.setCtx k x).draining = s.draining := rfl
@[simp] theorem State.setCtx_hostOps (s : State) (k : Nat) (x : Ctx) : (s.setCtx k x).hostOps = s.hostOps := rfl
@[simp] theorem State.setCtx_asking (s : State) (k : Nat) (x : Ctx) : (s.setCtx k x).asking = s.asking := rfl
@[simp] theorem State.setCtx_asks (s : State) (k : Nat) (x : Ctx) : (s.setCtx k x).asks = s.asks := rfl
@[simp] theorem State.setCore_power (s : State) (k : Nat) (x : CoreSt) : (s.setCore k x).power = s.power := rfl
@[simp] theorem State.setCore_cube (s : State) (k : Nat) (x : CoreSt) : (s.setCore k x).cube = s.cube := rfl
@[simp] theorem State.setCore_time (s : State) (k : Nat) (x : CoreSt) : (s.setCore k x).time = s.time := rfl
@[simp] theorem State.setCore_cycle (s : State) (k : Nat) (x : CoreSt) : (s.setCore k x).cycle = s.cycle := rfl
@[simp] theorem State.setCore_free (s : State) (k : Nat) (x : CoreSt) : (s.setCore k x).free = s.free := rfl
@[simp] theorem State.setCore_nid (s : State) (k : Nat) (x : CoreSt) : (s.setCore k x).nid = s.nid := rfl
@[simp] theorem State.setCore_cur (s : State) (k : Nat) (x : CoreSt) : (s.setCore k x).cur = s.cur := rfl
@[simp] theorem State.setCore_arg (s : State) (k : Nat) (x : CoreSt) : (s.setCore k x).arg = s.arg := rfl
@[simp] theorem State.setCore_inputs (s : State) (k : Nat) (x : CoreSt) : (s.setCore k x).inputs = s.inputs := rfl
@[simp] theorem State.setCore_outbox (s : State) (k : Nat) (x : CoreSt) : (s.setCore k x).outbox = s.outbox := rfl
@[simp] theorem State.setCore_mem (s : State) (k : Nat) (x : CoreSt) : (s.setCore k x).mem = s.mem := rfl
@[simp] theorem State.setCore_ecc (s : State) (k : Nat) (x : CoreSt) : (s.setCore k x).ecc = s.ecc := rfl
@[simp] theorem State.setCore_bad (s : State) (k : Nat) (x : CoreSt) : (s.setCore k x).bad = s.bad := rfl
@[simp] theorem State.setCore_ctxs (s : State) (k : Nat) (x : CoreSt) : (s.setCore k x).ctxs = s.ctxs := rfl
@[simp] theorem State.setCore_ctrs (s : State) (k : Nat) (x : CoreSt) : (s.setCore k x).ctrs = s.ctrs := rfl
@[simp] theorem State.setCore_stored (s : State) (k : Nat) (x : CoreSt) : (s.setCore k x).stored = s.stored := rfl
@[simp] theorem State.setCore_nt (s : State) (k : Nat) (x : CoreSt) : (s.setCore k x).nt = s.nt := rfl
@[simp] theorem State.setCore_queues (s : State) (k : Nat) (x : CoreSt) : (s.setCore k x).queues = s.queues := rfl
@[simp] theorem State.setCore_chains (s : State) (k : Nat) (x : CoreSt) : (s.setCore k x).chains = s.chains := rfl
@[simp] theorem State.setCore_tlbs (s : State) (k : Nat) (x : CoreSt) : (s.setCore k x).tlbs = s.tlbs := rfl
@[simp] theorem State.setCore_walks (s : State) (k : Nat) (x : CoreSt) : (s.setCore k x).walks = s.walks := rfl
@[simp] theorem State.setCore_reqs (s : State) (k : Nat) (x : CoreSt) : (s.setCore k x).reqs = s.reqs := rfl
@[simp] theorem State.setCore_net (s : State) (k : Nat) (x : CoreSt) : (s.setCore k x).net = s.net := rfl
@[simp] theorem State.setCore_vbanks (s : State) (k : Nat) (x : CoreSt) : (s.setCore k x).vbanks = s.vbanks := rfl
@[simp] theorem State.setCore_vops (s : State) (k : Nat) (x : CoreSt) : (s.setCore k x).vops = s.vops := rfl
@[simp] theorem State.setCore_reps (s : State) (k : Nat) (x : CoreSt) : (s.setCore k x).reps = s.reps := rfl
@[simp] theorem State.setCore_cmds (s : State) (k : Nat) (x : CoreSt) : (s.setCore k x).cmds = s.cmds := rfl
@[simp] theorem State.setCore_sems (s : State) (k : Nat) (x : CoreSt) : (s.setCore k x).sems = s.sems := rfl
@[simp] theorem State.setCore_groups (s : State) (k : Nat) (x : CoreSt) : (s.setCore k x).groups = s.groups := rfl
@[simp] theorem State.setCore_tenants (s : State) (k : Nat) (x : CoreSt) : (s.setCore k x).tenants = s.tenants := rfl
@[simp] theorem State.setCore_fwTraps (s : State) (k : Nat) (x : CoreSt) : (s.setCore k x).fwTraps = s.fwTraps := rfl
@[simp] theorem State.setCore_contain (s : State) (k : Nat) (x : CoreSt) : (s.setCore k x).contain = s.contain := rfl
@[simp] theorem State.setCore_regions (s : State) (k : Nat) (x : CoreSt) : (s.setCore k x).regions = s.regions := rfl
@[simp] theorem State.setCore_settab (s : State) (k : Nat) (x : CoreSt) : (s.setCore k x).settab = s.settab := rfl
@[simp] theorem State.setCore_mapgen (s : State) (k : Nat) (x : CoreSt) : (s.setCore k x).mapgen = s.mapgen := rfl
@[simp] theorem State.setCore_linear (s : State) (k : Nat) (x : CoreSt) : (s.setCore k x).linear = s.linear := rfl
@[simp] theorem State.setCore_tiles (s : State) (k : Nat) (x : CoreSt) : (s.setCore k x).tiles = s.tiles := rfl
@[simp] theorem State.setCore_journal (s : State) (k : Nat) (x : CoreSt) : (s.setCore k x).journal = s.journal := rfl
@[simp] theorem State.setCore_jsize (s : State) (k : Nat) (x : CoreSt) : (s.setCore k x).jsize = s.jsize := rfl
@[simp] theorem State.setCore_jhigh (s : State) (k : Nat) (x : CoreSt) : (s.setCore k x).jhigh = s.jhigh := rfl
@[simp] theorem State.setCore_stalls (s : State) (k : Nat) (x : CoreSt) : (s.setCore k x).stalls = s.stalls := rfl
@[simp] theorem State.setCore_ivals (s : State) (k : Nat) (x : CoreSt) : (s.setCore k x).ivals = s.ivals := rfl
@[simp] theorem State.setCore_ckpts (s : State) (k : Nat) (x : CoreSt) : (s.setCore k x).ckpts = s.ckpts := rfl
@[simp] theorem State.setCore_berr (s : State) (k : Nat) (x : CoreSt) : (s.setCore k x).berr = s.berr := rfl
@[simp] theorem State.setCore_launches (s : State) (k : Nat) (x : CoreSt) : (s.setCore k x).launches = s.launches := rfl
@[simp] theorem State.setCore_history (s : State) (k : Nat) (x : CoreSt) : (s.setCore k x).history = s.history := rfl
@[simp] theorem State.setCore_rotate (s : State) (k : Nat) (x : CoreSt) : (s.setCore k x).rotate = s.rotate := rfl
@[simp] theorem State.setCore_arrays (s : State) (k : Nat) (x : CoreSt) : (s.setCore k x).arrays = s.arrays := rfl
@[simp] theorem State.setCore_moving (s : State) (k : Nat) (x : CoreSt) : (s.setCore k x).moving = s.moving := rfl
@[simp] theorem State.setCore_diffused (s : State) (k : Nat) (x : CoreSt) : (s.setCore k x).diffused = s.diffused := rfl
@[simp] theorem State.setCore_filters (s : State) (k : Nat) (x : CoreSt) : (s.setCore k x).filters = s.filters := rfl
@[simp] theorem State.setCore_cancels (s : State) (k : Nat) (x : CoreSt) : (s.setCore k x).cancels = s.cancels := rfl
@[simp] theorem State.setCore_peers (s : State) (k : Nat) (x : CoreSt) : (s.setCore k x).peers = s.peers := rfl
@[simp] theorem State.setCore_notices (s : State) (k : Nat) (x : CoreSt) : (s.setCore k x).notices = s.notices := rfl
@[simp] theorem State.setCore_lends (s : State) (k : Nat) (x : CoreSt) : (s.setCore k x).lends = s.lends := rfl
@[simp] theorem State.setCore_expiry (s : State) (k : Nat) (x : CoreSt) : (s.setCore k x).expiry = s.expiry := rfl
@[simp] theorem State.setCore_images (s : State) (k : Nat) (x : CoreSt) : (s.setCore k x).images = s.images := rfl
@[simp] theorem State.setCore_fw (s : State) (k : Nat) (x : CoreSt) : (s.setCore k x).fw = s.fw := rfl
@[simp] theorem State.setCore_ports (s : State) (k : Nat) (x : CoreSt) : (s.setCore k x).ports = s.ports := rfl
@[simp] theorem State.setCore_einj (s : State) (k : Nat) (x : CoreSt) : (s.setCore k x).einj = s.einj := rfl
@[simp] theorem State.setCore_invs (s : State) (k : Nat) (x : CoreSt) : (s.setCore k x).invs = s.invs := rfl
@[simp] theorem State.setCore_micro (s : State) (k : Nat) (x : CoreSt) : (s.setCore k x).micro = s.micro := rfl
@[simp] theorem State.setCore_entries (s : State) (k : Nat) (x : CoreSt) : (s.setCore k x).entries = s.entries := rfl
@[simp] theorem State.setCore_pages (s : State) (k : Nat) (x : CoreSt) : (s.setCore k x).pages = s.pages := rfl
@[simp] theorem State.setCore_pdcs (s : State) (k : Nat) (x : CoreSt) : (s.setCore k x).pdcs = s.pdcs := rfl
@[simp] theorem State.setCore_pdcWait (s : State) (k : Nat) (x : CoreSt) : (s.setCore k x).pdcWait = s.pdcWait := rfl
@[simp] theorem State.setCore_sendNo (s : State) (k : Nat) (x : CoreSt) : (s.setCore k x).sendNo = s.sendNo := rfl
@[simp] theorem State.setCore_heard (s : State) (k : Nat) (x : CoreSt) : (s.setCore k x).heard = s.heard := rfl
@[simp] theorem State.setCore_arrivals (s : State) (k : Nat) (x : CoreSt) : (s.setCore k x).arrivals = s.arrivals := rfl
@[simp] theorem State.setCore_lost (s : State) (k : Nat) (x : CoreSt) : (s.setCore k x).lost = s.lost := rfl
@[simp] theorem State.setCore_told (s : State) (k : Nat) (x : CoreSt) : (s.setCore k x).told = s.told := rfl
@[simp] theorem State.setCore_colls (s : State) (k : Nat) (x : CoreSt) : (s.setCore k x).colls = s.colls := rfl
@[simp] theorem State.setCore_births (s : State) (k : Nat) (x : CoreSt) : (s.setCore k x).births = s.births := rfl
@[simp] theorem State.setCore_uud (s : State) (k : Nat) (x : CoreSt) : (s.setCore k x).uud = s.uud := rfl
@[simp] theorem State.setCore_mesh (s : State) (k : Nat) (x : CoreSt) : (s.setCore k x).mesh = s.mesh := rfl
@[simp] theorem State.setCore_meshOut (s : State) (k : Nat) (x : CoreSt) : (s.setCore k x).meshOut = s.meshOut := rfl
@[simp] theorem State.setCore_slew (s : State) (k : Nat) (x : CoreSt) : (s.setCore k x).slew = s.slew := rfl
@[simp] theorem State.setCore_slewAcc (s : State) (k : Nat) (x : CoreSt) : (s.setCore k x).slewAcc = s.slewAcc := rfl
@[simp] theorem State.setCore_timeSent (s : State) (k : Nat) (x : CoreSt) : (s.setCore k x).timeSent = s.timeSent := rfl
@[simp] theorem State.setCore_joined (s : State) (k : Nat) (x : CoreSt) : (s.setCore k x).joined = s.joined := rfl
@[simp] theorem State.setCore_mapJob (s : State) (k : Nat) (x : CoreSt) : (s.setCore k x).mapJob = s.mapJob := rfl
@[simp] theorem State.setCore_mapWait (s : State) (k : Nat) (x : CoreSt) : (s.setCore k x).mapWait = s.mapWait := rfl
@[simp] theorem State.setCore_mapQueue (s : State) (k : Nat) (x : CoreSt) : (s.setCore k x).mapQueue = s.mapQueue := rfl
@[simp] theorem State.setCore_mapLast (s : State) (k : Nat) (x : CoreSt) : (s.setCore k x).mapLast = s.mapLast := rfl
@[simp] theorem State.setCore_draining (s : State) (k : Nat) (x : CoreSt) : (s.setCore k x).draining = s.draining := rfl
@[simp] theorem State.setCore_hostOps (s : State) (k : Nat) (x : CoreSt) : (s.setCore k x).hostOps = s.hostOps := rfl
@[simp] theorem State.setCore_asking (s : State) (k : Nat) (x : CoreSt) : (s.setCore k x).asking = s.asking := rfl
@[simp] theorem State.setCore_asks (s : State) (k : Nat) (x : CoreSt) : (s.setCore k x).asks = s.asks := rfl
@[simp] theorem State.setTile_power (s : State) (k : Nat) (x : TileSt) : (s.setTile k x).power = s.power := rfl
@[simp] theorem State.setTile_cube (s : State) (k : Nat) (x : TileSt) : (s.setTile k x).cube = s.cube := rfl
@[simp] theorem State.setTile_time (s : State) (k : Nat) (x : TileSt) : (s.setTile k x).time = s.time := rfl
@[simp] theorem State.setTile_cycle (s : State) (k : Nat) (x : TileSt) : (s.setTile k x).cycle = s.cycle := rfl
@[simp] theorem State.setTile_free (s : State) (k : Nat) (x : TileSt) : (s.setTile k x).free = s.free := rfl
@[simp] theorem State.setTile_nid (s : State) (k : Nat) (x : TileSt) : (s.setTile k x).nid = s.nid := rfl
@[simp] theorem State.setTile_cur (s : State) (k : Nat) (x : TileSt) : (s.setTile k x).cur = s.cur := rfl
@[simp] theorem State.setTile_arg (s : State) (k : Nat) (x : TileSt) : (s.setTile k x).arg = s.arg := rfl
@[simp] theorem State.setTile_inputs (s : State) (k : Nat) (x : TileSt) : (s.setTile k x).inputs = s.inputs := rfl
@[simp] theorem State.setTile_outbox (s : State) (k : Nat) (x : TileSt) : (s.setTile k x).outbox = s.outbox := rfl
@[simp] theorem State.setTile_mem (s : State) (k : Nat) (x : TileSt) : (s.setTile k x).mem = s.mem := rfl
@[simp] theorem State.setTile_ecc (s : State) (k : Nat) (x : TileSt) : (s.setTile k x).ecc = s.ecc := rfl
@[simp] theorem State.setTile_bad (s : State) (k : Nat) (x : TileSt) : (s.setTile k x).bad = s.bad := rfl
@[simp] theorem State.setTile_ctxs (s : State) (k : Nat) (x : TileSt) : (s.setTile k x).ctxs = s.ctxs := rfl
@[simp] theorem State.setTile_cores (s : State) (k : Nat) (x : TileSt) : (s.setTile k x).cores = s.cores := rfl
@[simp] theorem State.setTile_ctrs (s : State) (k : Nat) (x : TileSt) : (s.setTile k x).ctrs = s.ctrs := rfl
@[simp] theorem State.setTile_stored (s : State) (k : Nat) (x : TileSt) : (s.setTile k x).stored = s.stored := rfl
@[simp] theorem State.setTile_nt (s : State) (k : Nat) (x : TileSt) : (s.setTile k x).nt = s.nt := rfl
@[simp] theorem State.setTile_queues (s : State) (k : Nat) (x : TileSt) : (s.setTile k x).queues = s.queues := rfl
@[simp] theorem State.setTile_chains (s : State) (k : Nat) (x : TileSt) : (s.setTile k x).chains = s.chains := rfl
@[simp] theorem State.setTile_tlbs (s : State) (k : Nat) (x : TileSt) : (s.setTile k x).tlbs = s.tlbs := rfl
@[simp] theorem State.setTile_walks (s : State) (k : Nat) (x : TileSt) : (s.setTile k x).walks = s.walks := rfl
@[simp] theorem State.setTile_reqs (s : State) (k : Nat) (x : TileSt) : (s.setTile k x).reqs = s.reqs := rfl
@[simp] theorem State.setTile_net (s : State) (k : Nat) (x : TileSt) : (s.setTile k x).net = s.net := rfl
@[simp] theorem State.setTile_vbanks (s : State) (k : Nat) (x : TileSt) : (s.setTile k x).vbanks = s.vbanks := rfl
@[simp] theorem State.setTile_vops (s : State) (k : Nat) (x : TileSt) : (s.setTile k x).vops = s.vops := rfl
@[simp] theorem State.setTile_reps (s : State) (k : Nat) (x : TileSt) : (s.setTile k x).reps = s.reps := rfl
@[simp] theorem State.setTile_cmds (s : State) (k : Nat) (x : TileSt) : (s.setTile k x).cmds = s.cmds := rfl
@[simp] theorem State.setTile_sems (s : State) (k : Nat) (x : TileSt) : (s.setTile k x).sems = s.sems := rfl
@[simp] theorem State.setTile_groups (s : State) (k : Nat) (x : TileSt) : (s.setTile k x).groups = s.groups := rfl
@[simp] theorem State.setTile_tenants (s : State) (k : Nat) (x : TileSt) : (s.setTile k x).tenants = s.tenants := rfl
@[simp] theorem State.setTile_fwTraps (s : State) (k : Nat) (x : TileSt) : (s.setTile k x).fwTraps = s.fwTraps := rfl
@[simp] theorem State.setTile_contain (s : State) (k : Nat) (x : TileSt) : (s.setTile k x).contain = s.contain := rfl
@[simp] theorem State.setTile_regions (s : State) (k : Nat) (x : TileSt) : (s.setTile k x).regions = s.regions := rfl
@[simp] theorem State.setTile_settab (s : State) (k : Nat) (x : TileSt) : (s.setTile k x).settab = s.settab := rfl
@[simp] theorem State.setTile_mapgen (s : State) (k : Nat) (x : TileSt) : (s.setTile k x).mapgen = s.mapgen := rfl
@[simp] theorem State.setTile_linear (s : State) (k : Nat) (x : TileSt) : (s.setTile k x).linear = s.linear := rfl
@[simp] theorem State.setTile_journal (s : State) (k : Nat) (x : TileSt) : (s.setTile k x).journal = s.journal := rfl
@[simp] theorem State.setTile_jsize (s : State) (k : Nat) (x : TileSt) : (s.setTile k x).jsize = s.jsize := rfl
@[simp] theorem State.setTile_jhigh (s : State) (k : Nat) (x : TileSt) : (s.setTile k x).jhigh = s.jhigh := rfl
@[simp] theorem State.setTile_stalls (s : State) (k : Nat) (x : TileSt) : (s.setTile k x).stalls = s.stalls := rfl
@[simp] theorem State.setTile_ivals (s : State) (k : Nat) (x : TileSt) : (s.setTile k x).ivals = s.ivals := rfl
@[simp] theorem State.setTile_ckpts (s : State) (k : Nat) (x : TileSt) : (s.setTile k x).ckpts = s.ckpts := rfl
@[simp] theorem State.setTile_berr (s : State) (k : Nat) (x : TileSt) : (s.setTile k x).berr = s.berr := rfl
@[simp] theorem State.setTile_launches (s : State) (k : Nat) (x : TileSt) : (s.setTile k x).launches = s.launches := rfl
@[simp] theorem State.setTile_history (s : State) (k : Nat) (x : TileSt) : (s.setTile k x).history = s.history := rfl
@[simp] theorem State.setTile_rotate (s : State) (k : Nat) (x : TileSt) : (s.setTile k x).rotate = s.rotate := rfl
@[simp] theorem State.setTile_arrays (s : State) (k : Nat) (x : TileSt) : (s.setTile k x).arrays = s.arrays := rfl
@[simp] theorem State.setTile_moving (s : State) (k : Nat) (x : TileSt) : (s.setTile k x).moving = s.moving := rfl
@[simp] theorem State.setTile_diffused (s : State) (k : Nat) (x : TileSt) : (s.setTile k x).diffused = s.diffused := rfl
@[simp] theorem State.setTile_filters (s : State) (k : Nat) (x : TileSt) : (s.setTile k x).filters = s.filters := rfl
@[simp] theorem State.setTile_cancels (s : State) (k : Nat) (x : TileSt) : (s.setTile k x).cancels = s.cancels := rfl
@[simp] theorem State.setTile_peers (s : State) (k : Nat) (x : TileSt) : (s.setTile k x).peers = s.peers := rfl
@[simp] theorem State.setTile_notices (s : State) (k : Nat) (x : TileSt) : (s.setTile k x).notices = s.notices := rfl
@[simp] theorem State.setTile_lends (s : State) (k : Nat) (x : TileSt) : (s.setTile k x).lends = s.lends := rfl
@[simp] theorem State.setTile_expiry (s : State) (k : Nat) (x : TileSt) : (s.setTile k x).expiry = s.expiry := rfl
@[simp] theorem State.setTile_images (s : State) (k : Nat) (x : TileSt) : (s.setTile k x).images = s.images := rfl
@[simp] theorem State.setTile_fw (s : State) (k : Nat) (x : TileSt) : (s.setTile k x).fw = s.fw := rfl
@[simp] theorem State.setTile_ports (s : State) (k : Nat) (x : TileSt) : (s.setTile k x).ports = s.ports := rfl
@[simp] theorem State.setTile_einj (s : State) (k : Nat) (x : TileSt) : (s.setTile k x).einj = s.einj := rfl
@[simp] theorem State.setTile_invs (s : State) (k : Nat) (x : TileSt) : (s.setTile k x).invs = s.invs := rfl
@[simp] theorem State.setTile_micro (s : State) (k : Nat) (x : TileSt) : (s.setTile k x).micro = s.micro := rfl
@[simp] theorem State.setTile_entries (s : State) (k : Nat) (x : TileSt) : (s.setTile k x).entries = s.entries := rfl
@[simp] theorem State.setTile_pages (s : State) (k : Nat) (x : TileSt) : (s.setTile k x).pages = s.pages := rfl
@[simp] theorem State.setTile_pdcs (s : State) (k : Nat) (x : TileSt) : (s.setTile k x).pdcs = s.pdcs := rfl
@[simp] theorem State.setTile_pdcWait (s : State) (k : Nat) (x : TileSt) : (s.setTile k x).pdcWait = s.pdcWait := rfl
@[simp] theorem State.setTile_sendNo (s : State) (k : Nat) (x : TileSt) : (s.setTile k x).sendNo = s.sendNo := rfl
@[simp] theorem State.setTile_heard (s : State) (k : Nat) (x : TileSt) : (s.setTile k x).heard = s.heard := rfl
@[simp] theorem State.setTile_arrivals (s : State) (k : Nat) (x : TileSt) : (s.setTile k x).arrivals = s.arrivals := rfl
@[simp] theorem State.setTile_lost (s : State) (k : Nat) (x : TileSt) : (s.setTile k x).lost = s.lost := rfl
@[simp] theorem State.setTile_told (s : State) (k : Nat) (x : TileSt) : (s.setTile k x).told = s.told := rfl
@[simp] theorem State.setTile_colls (s : State) (k : Nat) (x : TileSt) : (s.setTile k x).colls = s.colls := rfl
@[simp] theorem State.setTile_births (s : State) (k : Nat) (x : TileSt) : (s.setTile k x).births = s.births := rfl
@[simp] theorem State.setTile_uud (s : State) (k : Nat) (x : TileSt) : (s.setTile k x).uud = s.uud := rfl
@[simp] theorem State.setTile_mesh (s : State) (k : Nat) (x : TileSt) : (s.setTile k x).mesh = s.mesh := rfl
@[simp] theorem State.setTile_meshOut (s : State) (k : Nat) (x : TileSt) : (s.setTile k x).meshOut = s.meshOut := rfl
@[simp] theorem State.setTile_slew (s : State) (k : Nat) (x : TileSt) : (s.setTile k x).slew = s.slew := rfl
@[simp] theorem State.setTile_slewAcc (s : State) (k : Nat) (x : TileSt) : (s.setTile k x).slewAcc = s.slewAcc := rfl
@[simp] theorem State.setTile_timeSent (s : State) (k : Nat) (x : TileSt) : (s.setTile k x).timeSent = s.timeSent := rfl
@[simp] theorem State.setTile_joined (s : State) (k : Nat) (x : TileSt) : (s.setTile k x).joined = s.joined := rfl
@[simp] theorem State.setTile_mapJob (s : State) (k : Nat) (x : TileSt) : (s.setTile k x).mapJob = s.mapJob := rfl
@[simp] theorem State.setTile_mapWait (s : State) (k : Nat) (x : TileSt) : (s.setTile k x).mapWait = s.mapWait := rfl
@[simp] theorem State.setTile_mapQueue (s : State) (k : Nat) (x : TileSt) : (s.setTile k x).mapQueue = s.mapQueue := rfl
@[simp] theorem State.setTile_mapLast (s : State) (k : Nat) (x : TileSt) : (s.setTile k x).mapLast = s.mapLast := rfl
@[simp] theorem State.setTile_draining (s : State) (k : Nat) (x : TileSt) : (s.setTile k x).draining = s.draining := rfl
@[simp] theorem State.setTile_hostOps (s : State) (k : Nat) (x : TileSt) : (s.setTile k x).hostOps = s.hostOps := rfl
@[simp] theorem State.setTile_asking (s : State) (k : Nat) (x : TileSt) : (s.setTile k x).asking = s.asking := rfl
@[simp] theorem State.setTile_asks (s : State) (k : Nat) (x : TileSt) : (s.setTile k x).asks = s.asks := rfl
@[simp] theorem State.setTenant_power (s : State) (k : Nat) (x : Tenant) : (s.setTenant k x).power = s.power := rfl
@[simp] theorem State.setTenant_cube (s : State) (k : Nat) (x : Tenant) : (s.setTenant k x).cube = s.cube := rfl
@[simp] theorem State.setTenant_time (s : State) (k : Nat) (x : Tenant) : (s.setTenant k x).time = s.time := rfl
@[simp] theorem State.setTenant_cycle (s : State) (k : Nat) (x : Tenant) : (s.setTenant k x).cycle = s.cycle := rfl
@[simp] theorem State.setTenant_free (s : State) (k : Nat) (x : Tenant) : (s.setTenant k x).free = s.free := rfl
@[simp] theorem State.setTenant_nid (s : State) (k : Nat) (x : Tenant) : (s.setTenant k x).nid = s.nid := rfl
@[simp] theorem State.setTenant_cur (s : State) (k : Nat) (x : Tenant) : (s.setTenant k x).cur = s.cur := rfl
@[simp] theorem State.setTenant_arg (s : State) (k : Nat) (x : Tenant) : (s.setTenant k x).arg = s.arg := rfl
@[simp] theorem State.setTenant_inputs (s : State) (k : Nat) (x : Tenant) : (s.setTenant k x).inputs = s.inputs := rfl
@[simp] theorem State.setTenant_outbox (s : State) (k : Nat) (x : Tenant) : (s.setTenant k x).outbox = s.outbox := rfl
@[simp] theorem State.setTenant_mem (s : State) (k : Nat) (x : Tenant) : (s.setTenant k x).mem = s.mem := rfl
@[simp] theorem State.setTenant_ecc (s : State) (k : Nat) (x : Tenant) : (s.setTenant k x).ecc = s.ecc := rfl
@[simp] theorem State.setTenant_bad (s : State) (k : Nat) (x : Tenant) : (s.setTenant k x).bad = s.bad := rfl
@[simp] theorem State.setTenant_ctxs (s : State) (k : Nat) (x : Tenant) : (s.setTenant k x).ctxs = s.ctxs := rfl
@[simp] theorem State.setTenant_cores (s : State) (k : Nat) (x : Tenant) : (s.setTenant k x).cores = s.cores := rfl
@[simp] theorem State.setTenant_ctrs (s : State) (k : Nat) (x : Tenant) : (s.setTenant k x).ctrs = s.ctrs := rfl
@[simp] theorem State.setTenant_stored (s : State) (k : Nat) (x : Tenant) : (s.setTenant k x).stored = s.stored := rfl
@[simp] theorem State.setTenant_nt (s : State) (k : Nat) (x : Tenant) : (s.setTenant k x).nt = s.nt := rfl
@[simp] theorem State.setTenant_queues (s : State) (k : Nat) (x : Tenant) : (s.setTenant k x).queues = s.queues := rfl
@[simp] theorem State.setTenant_chains (s : State) (k : Nat) (x : Tenant) : (s.setTenant k x).chains = s.chains := rfl
@[simp] theorem State.setTenant_tlbs (s : State) (k : Nat) (x : Tenant) : (s.setTenant k x).tlbs = s.tlbs := rfl
@[simp] theorem State.setTenant_walks (s : State) (k : Nat) (x : Tenant) : (s.setTenant k x).walks = s.walks := rfl
@[simp] theorem State.setTenant_reqs (s : State) (k : Nat) (x : Tenant) : (s.setTenant k x).reqs = s.reqs := rfl
@[simp] theorem State.setTenant_net (s : State) (k : Nat) (x : Tenant) : (s.setTenant k x).net = s.net := rfl
@[simp] theorem State.setTenant_vbanks (s : State) (k : Nat) (x : Tenant) : (s.setTenant k x).vbanks = s.vbanks := rfl
@[simp] theorem State.setTenant_vops (s : State) (k : Nat) (x : Tenant) : (s.setTenant k x).vops = s.vops := rfl
@[simp] theorem State.setTenant_reps (s : State) (k : Nat) (x : Tenant) : (s.setTenant k x).reps = s.reps := rfl
@[simp] theorem State.setTenant_cmds (s : State) (k : Nat) (x : Tenant) : (s.setTenant k x).cmds = s.cmds := rfl
@[simp] theorem State.setTenant_sems (s : State) (k : Nat) (x : Tenant) : (s.setTenant k x).sems = s.sems := rfl
@[simp] theorem State.setTenant_groups (s : State) (k : Nat) (x : Tenant) : (s.setTenant k x).groups = s.groups := rfl
@[simp] theorem State.setTenant_fwTraps (s : State) (k : Nat) (x : Tenant) : (s.setTenant k x).fwTraps = s.fwTraps := rfl
@[simp] theorem State.setTenant_contain (s : State) (k : Nat) (x : Tenant) : (s.setTenant k x).contain = s.contain := rfl
@[simp] theorem State.setTenant_regions (s : State) (k : Nat) (x : Tenant) : (s.setTenant k x).regions = s.regions := rfl
@[simp] theorem State.setTenant_settab (s : State) (k : Nat) (x : Tenant) : (s.setTenant k x).settab = s.settab := rfl
@[simp] theorem State.setTenant_mapgen (s : State) (k : Nat) (x : Tenant) : (s.setTenant k x).mapgen = s.mapgen := rfl
@[simp] theorem State.setTenant_linear (s : State) (k : Nat) (x : Tenant) : (s.setTenant k x).linear = s.linear := rfl
@[simp] theorem State.setTenant_tiles (s : State) (k : Nat) (x : Tenant) : (s.setTenant k x).tiles = s.tiles := rfl
@[simp] theorem State.setTenant_journal (s : State) (k : Nat) (x : Tenant) : (s.setTenant k x).journal = s.journal := rfl
@[simp] theorem State.setTenant_jsize (s : State) (k : Nat) (x : Tenant) : (s.setTenant k x).jsize = s.jsize := rfl
@[simp] theorem State.setTenant_jhigh (s : State) (k : Nat) (x : Tenant) : (s.setTenant k x).jhigh = s.jhigh := rfl
@[simp] theorem State.setTenant_stalls (s : State) (k : Nat) (x : Tenant) : (s.setTenant k x).stalls = s.stalls := rfl
@[simp] theorem State.setTenant_ivals (s : State) (k : Nat) (x : Tenant) : (s.setTenant k x).ivals = s.ivals := rfl
@[simp] theorem State.setTenant_ckpts (s : State) (k : Nat) (x : Tenant) : (s.setTenant k x).ckpts = s.ckpts := rfl
@[simp] theorem State.setTenant_berr (s : State) (k : Nat) (x : Tenant) : (s.setTenant k x).berr = s.berr := rfl
@[simp] theorem State.setTenant_launches (s : State) (k : Nat) (x : Tenant) : (s.setTenant k x).launches = s.launches := rfl
@[simp] theorem State.setTenant_history (s : State) (k : Nat) (x : Tenant) : (s.setTenant k x).history = s.history := rfl
@[simp] theorem State.setTenant_rotate (s : State) (k : Nat) (x : Tenant) : (s.setTenant k x).rotate = s.rotate := rfl
@[simp] theorem State.setTenant_arrays (s : State) (k : Nat) (x : Tenant) : (s.setTenant k x).arrays = s.arrays := rfl
@[simp] theorem State.setTenant_moving (s : State) (k : Nat) (x : Tenant) : (s.setTenant k x).moving = s.moving := rfl
@[simp] theorem State.setTenant_diffused (s : State) (k : Nat) (x : Tenant) : (s.setTenant k x).diffused = s.diffused := rfl
@[simp] theorem State.setTenant_filters (s : State) (k : Nat) (x : Tenant) : (s.setTenant k x).filters = s.filters := rfl
@[simp] theorem State.setTenant_cancels (s : State) (k : Nat) (x : Tenant) : (s.setTenant k x).cancels = s.cancels := rfl
@[simp] theorem State.setTenant_peers (s : State) (k : Nat) (x : Tenant) : (s.setTenant k x).peers = s.peers := rfl
@[simp] theorem State.setTenant_notices (s : State) (k : Nat) (x : Tenant) : (s.setTenant k x).notices = s.notices := rfl
@[simp] theorem State.setTenant_lends (s : State) (k : Nat) (x : Tenant) : (s.setTenant k x).lends = s.lends := rfl
@[simp] theorem State.setTenant_expiry (s : State) (k : Nat) (x : Tenant) : (s.setTenant k x).expiry = s.expiry := rfl
@[simp] theorem State.setTenant_images (s : State) (k : Nat) (x : Tenant) : (s.setTenant k x).images = s.images := rfl
@[simp] theorem State.setTenant_fw (s : State) (k : Nat) (x : Tenant) : (s.setTenant k x).fw = s.fw := rfl
@[simp] theorem State.setTenant_ports (s : State) (k : Nat) (x : Tenant) : (s.setTenant k x).ports = s.ports := rfl
@[simp] theorem State.setTenant_einj (s : State) (k : Nat) (x : Tenant) : (s.setTenant k x).einj = s.einj := rfl
@[simp] theorem State.setTenant_invs (s : State) (k : Nat) (x : Tenant) : (s.setTenant k x).invs = s.invs := rfl
@[simp] theorem State.setTenant_micro (s : State) (k : Nat) (x : Tenant) : (s.setTenant k x).micro = s.micro := rfl
@[simp] theorem State.setTenant_entries (s : State) (k : Nat) (x : Tenant) : (s.setTenant k x).entries = s.entries := rfl
@[simp] theorem State.setTenant_pages (s : State) (k : Nat) (x : Tenant) : (s.setTenant k x).pages = s.pages := rfl
@[simp] theorem State.setTenant_pdcs (s : State) (k : Nat) (x : Tenant) : (s.setTenant k x).pdcs = s.pdcs := rfl
@[simp] theorem State.setTenant_pdcWait (s : State) (k : Nat) (x : Tenant) : (s.setTenant k x).pdcWait = s.pdcWait := rfl
@[simp] theorem State.setTenant_sendNo (s : State) (k : Nat) (x : Tenant) : (s.setTenant k x).sendNo = s.sendNo := rfl
@[simp] theorem State.setTenant_heard (s : State) (k : Nat) (x : Tenant) : (s.setTenant k x).heard = s.heard := rfl
@[simp] theorem State.setTenant_arrivals (s : State) (k : Nat) (x : Tenant) : (s.setTenant k x).arrivals = s.arrivals := rfl
@[simp] theorem State.setTenant_lost (s : State) (k : Nat) (x : Tenant) : (s.setTenant k x).lost = s.lost := rfl
@[simp] theorem State.setTenant_told (s : State) (k : Nat) (x : Tenant) : (s.setTenant k x).told = s.told := rfl
@[simp] theorem State.setTenant_colls (s : State) (k : Nat) (x : Tenant) : (s.setTenant k x).colls = s.colls := rfl
@[simp] theorem State.setTenant_births (s : State) (k : Nat) (x : Tenant) : (s.setTenant k x).births = s.births := rfl
@[simp] theorem State.setTenant_uud (s : State) (k : Nat) (x : Tenant) : (s.setTenant k x).uud = s.uud := rfl
@[simp] theorem State.setTenant_mesh (s : State) (k : Nat) (x : Tenant) : (s.setTenant k x).mesh = s.mesh := rfl
@[simp] theorem State.setTenant_meshOut (s : State) (k : Nat) (x : Tenant) : (s.setTenant k x).meshOut = s.meshOut := rfl
@[simp] theorem State.setTenant_slew (s : State) (k : Nat) (x : Tenant) : (s.setTenant k x).slew = s.slew := rfl
@[simp] theorem State.setTenant_slewAcc (s : State) (k : Nat) (x : Tenant) : (s.setTenant k x).slewAcc = s.slewAcc := rfl
@[simp] theorem State.setTenant_timeSent (s : State) (k : Nat) (x : Tenant) : (s.setTenant k x).timeSent = s.timeSent := rfl
@[simp] theorem State.setTenant_joined (s : State) (k : Nat) (x : Tenant) : (s.setTenant k x).joined = s.joined := rfl
@[simp] theorem State.setTenant_mapJob (s : State) (k : Nat) (x : Tenant) : (s.setTenant k x).mapJob = s.mapJob := rfl
@[simp] theorem State.setTenant_mapWait (s : State) (k : Nat) (x : Tenant) : (s.setTenant k x).mapWait = s.mapWait := rfl
@[simp] theorem State.setTenant_mapQueue (s : State) (k : Nat) (x : Tenant) : (s.setTenant k x).mapQueue = s.mapQueue := rfl
@[simp] theorem State.setTenant_mapLast (s : State) (k : Nat) (x : Tenant) : (s.setTenant k x).mapLast = s.mapLast := rfl
@[simp] theorem State.setTenant_draining (s : State) (k : Nat) (x : Tenant) : (s.setTenant k x).draining = s.draining := rfl
@[simp] theorem State.setTenant_hostOps (s : State) (k : Nat) (x : Tenant) : (s.setTenant k x).hostOps = s.hostOps := rfl
@[simp] theorem State.setTenant_asking (s : State) (k : Nat) (x : Tenant) : (s.setTenant k x).asking = s.asking := rfl
@[simp] theorem State.setTenant_asks (s : State) (k : Nat) (x : Tenant) : (s.setTenant k x).asks = s.asks := rfl
@[simp] theorem State.setCounter_power (s : State) (k : Nat) (x : Counter) : (s.setCounter k x).power = s.power := rfl
@[simp] theorem State.setCounter_cube (s : State) (k : Nat) (x : Counter) : (s.setCounter k x).cube = s.cube := rfl
@[simp] theorem State.setCounter_time (s : State) (k : Nat) (x : Counter) : (s.setCounter k x).time = s.time := rfl
@[simp] theorem State.setCounter_cycle (s : State) (k : Nat) (x : Counter) : (s.setCounter k x).cycle = s.cycle := rfl
@[simp] theorem State.setCounter_free (s : State) (k : Nat) (x : Counter) : (s.setCounter k x).free = s.free := rfl
@[simp] theorem State.setCounter_nid (s : State) (k : Nat) (x : Counter) : (s.setCounter k x).nid = s.nid := rfl
@[simp] theorem State.setCounter_cur (s : State) (k : Nat) (x : Counter) : (s.setCounter k x).cur = s.cur := rfl
@[simp] theorem State.setCounter_arg (s : State) (k : Nat) (x : Counter) : (s.setCounter k x).arg = s.arg := rfl
@[simp] theorem State.setCounter_inputs (s : State) (k : Nat) (x : Counter) : (s.setCounter k x).inputs = s.inputs := rfl
@[simp] theorem State.setCounter_outbox (s : State) (k : Nat) (x : Counter) : (s.setCounter k x).outbox = s.outbox := rfl
@[simp] theorem State.setCounter_mem (s : State) (k : Nat) (x : Counter) : (s.setCounter k x).mem = s.mem := rfl
@[simp] theorem State.setCounter_ecc (s : State) (k : Nat) (x : Counter) : (s.setCounter k x).ecc = s.ecc := rfl
@[simp] theorem State.setCounter_bad (s : State) (k : Nat) (x : Counter) : (s.setCounter k x).bad = s.bad := rfl
@[simp] theorem State.setCounter_ctxs (s : State) (k : Nat) (x : Counter) : (s.setCounter k x).ctxs = s.ctxs := rfl
@[simp] theorem State.setCounter_cores (s : State) (k : Nat) (x : Counter) : (s.setCounter k x).cores = s.cores := rfl
@[simp] theorem State.setCounter_stored (s : State) (k : Nat) (x : Counter) : (s.setCounter k x).stored = s.stored := rfl
@[simp] theorem State.setCounter_nt (s : State) (k : Nat) (x : Counter) : (s.setCounter k x).nt = s.nt := rfl
@[simp] theorem State.setCounter_queues (s : State) (k : Nat) (x : Counter) : (s.setCounter k x).queues = s.queues := rfl
@[simp] theorem State.setCounter_chains (s : State) (k : Nat) (x : Counter) : (s.setCounter k x).chains = s.chains := rfl
@[simp] theorem State.setCounter_tlbs (s : State) (k : Nat) (x : Counter) : (s.setCounter k x).tlbs = s.tlbs := rfl
@[simp] theorem State.setCounter_walks (s : State) (k : Nat) (x : Counter) : (s.setCounter k x).walks = s.walks := rfl
@[simp] theorem State.setCounter_reqs (s : State) (k : Nat) (x : Counter) : (s.setCounter k x).reqs = s.reqs := rfl
@[simp] theorem State.setCounter_net (s : State) (k : Nat) (x : Counter) : (s.setCounter k x).net = s.net := rfl
@[simp] theorem State.setCounter_vbanks (s : State) (k : Nat) (x : Counter) : (s.setCounter k x).vbanks = s.vbanks := rfl
@[simp] theorem State.setCounter_vops (s : State) (k : Nat) (x : Counter) : (s.setCounter k x).vops = s.vops := rfl
@[simp] theorem State.setCounter_reps (s : State) (k : Nat) (x : Counter) : (s.setCounter k x).reps = s.reps := rfl
@[simp] theorem State.setCounter_cmds (s : State) (k : Nat) (x : Counter) : (s.setCounter k x).cmds = s.cmds := rfl
@[simp] theorem State.setCounter_sems (s : State) (k : Nat) (x : Counter) : (s.setCounter k x).sems = s.sems := rfl
@[simp] theorem State.setCounter_groups (s : State) (k : Nat) (x : Counter) : (s.setCounter k x).groups = s.groups := rfl
@[simp] theorem State.setCounter_tenants (s : State) (k : Nat) (x : Counter) : (s.setCounter k x).tenants = s.tenants := rfl
@[simp] theorem State.setCounter_fwTraps (s : State) (k : Nat) (x : Counter) : (s.setCounter k x).fwTraps = s.fwTraps := rfl
@[simp] theorem State.setCounter_contain (s : State) (k : Nat) (x : Counter) : (s.setCounter k x).contain = s.contain := rfl
@[simp] theorem State.setCounter_regions (s : State) (k : Nat) (x : Counter) : (s.setCounter k x).regions = s.regions := rfl
@[simp] theorem State.setCounter_settab (s : State) (k : Nat) (x : Counter) : (s.setCounter k x).settab = s.settab := rfl
@[simp] theorem State.setCounter_mapgen (s : State) (k : Nat) (x : Counter) : (s.setCounter k x).mapgen = s.mapgen := rfl
@[simp] theorem State.setCounter_linear (s : State) (k : Nat) (x : Counter) : (s.setCounter k x).linear = s.linear := rfl
@[simp] theorem State.setCounter_tiles (s : State) (k : Nat) (x : Counter) : (s.setCounter k x).tiles = s.tiles := rfl
@[simp] theorem State.setCounter_journal (s : State) (k : Nat) (x : Counter) : (s.setCounter k x).journal = s.journal := rfl
@[simp] theorem State.setCounter_jsize (s : State) (k : Nat) (x : Counter) : (s.setCounter k x).jsize = s.jsize := rfl
@[simp] theorem State.setCounter_jhigh (s : State) (k : Nat) (x : Counter) : (s.setCounter k x).jhigh = s.jhigh := rfl
@[simp] theorem State.setCounter_stalls (s : State) (k : Nat) (x : Counter) : (s.setCounter k x).stalls = s.stalls := rfl
@[simp] theorem State.setCounter_ivals (s : State) (k : Nat) (x : Counter) : (s.setCounter k x).ivals = s.ivals := rfl
@[simp] theorem State.setCounter_ckpts (s : State) (k : Nat) (x : Counter) : (s.setCounter k x).ckpts = s.ckpts := rfl
@[simp] theorem State.setCounter_berr (s : State) (k : Nat) (x : Counter) : (s.setCounter k x).berr = s.berr := rfl
@[simp] theorem State.setCounter_launches (s : State) (k : Nat) (x : Counter) : (s.setCounter k x).launches = s.launches := rfl
@[simp] theorem State.setCounter_history (s : State) (k : Nat) (x : Counter) : (s.setCounter k x).history = s.history := rfl
@[simp] theorem State.setCounter_rotate (s : State) (k : Nat) (x : Counter) : (s.setCounter k x).rotate = s.rotate := rfl
@[simp] theorem State.setCounter_arrays (s : State) (k : Nat) (x : Counter) : (s.setCounter k x).arrays = s.arrays := rfl
@[simp] theorem State.setCounter_moving (s : State) (k : Nat) (x : Counter) : (s.setCounter k x).moving = s.moving := rfl
@[simp] theorem State.setCounter_diffused (s : State) (k : Nat) (x : Counter) : (s.setCounter k x).diffused = s.diffused := rfl
@[simp] theorem State.setCounter_filters (s : State) (k : Nat) (x : Counter) : (s.setCounter k x).filters = s.filters := rfl
@[simp] theorem State.setCounter_cancels (s : State) (k : Nat) (x : Counter) : (s.setCounter k x).cancels = s.cancels := rfl
@[simp] theorem State.setCounter_peers (s : State) (k : Nat) (x : Counter) : (s.setCounter k x).peers = s.peers := rfl
@[simp] theorem State.setCounter_notices (s : State) (k : Nat) (x : Counter) : (s.setCounter k x).notices = s.notices := rfl
@[simp] theorem State.setCounter_lends (s : State) (k : Nat) (x : Counter) : (s.setCounter k x).lends = s.lends := rfl
@[simp] theorem State.setCounter_expiry (s : State) (k : Nat) (x : Counter) : (s.setCounter k x).expiry = s.expiry := rfl
@[simp] theorem State.setCounter_images (s : State) (k : Nat) (x : Counter) : (s.setCounter k x).images = s.images := rfl
@[simp] theorem State.setCounter_fw (s : State) (k : Nat) (x : Counter) : (s.setCounter k x).fw = s.fw := rfl
@[simp] theorem State.setCounter_ports (s : State) (k : Nat) (x : Counter) : (s.setCounter k x).ports = s.ports := rfl
@[simp] theorem State.setCounter_einj (s : State) (k : Nat) (x : Counter) : (s.setCounter k x).einj = s.einj := rfl
@[simp] theorem State.setCounter_invs (s : State) (k : Nat) (x : Counter) : (s.setCounter k x).invs = s.invs := rfl
@[simp] theorem State.setCounter_micro (s : State) (k : Nat) (x : Counter) : (s.setCounter k x).micro = s.micro := rfl
@[simp] theorem State.setCounter_entries (s : State) (k : Nat) (x : Counter) : (s.setCounter k x).entries = s.entries := rfl
@[simp] theorem State.setCounter_pages (s : State) (k : Nat) (x : Counter) : (s.setCounter k x).pages = s.pages := rfl
@[simp] theorem State.setCounter_pdcs (s : State) (k : Nat) (x : Counter) : (s.setCounter k x).pdcs = s.pdcs := rfl
@[simp] theorem State.setCounter_pdcWait (s : State) (k : Nat) (x : Counter) : (s.setCounter k x).pdcWait = s.pdcWait := rfl
@[simp] theorem State.setCounter_sendNo (s : State) (k : Nat) (x : Counter) : (s.setCounter k x).sendNo = s.sendNo := rfl
@[simp] theorem State.setCounter_heard (s : State) (k : Nat) (x : Counter) : (s.setCounter k x).heard = s.heard := rfl
@[simp] theorem State.setCounter_arrivals (s : State) (k : Nat) (x : Counter) : (s.setCounter k x).arrivals = s.arrivals := rfl
@[simp] theorem State.setCounter_lost (s : State) (k : Nat) (x : Counter) : (s.setCounter k x).lost = s.lost := rfl
@[simp] theorem State.setCounter_told (s : State) (k : Nat) (x : Counter) : (s.setCounter k x).told = s.told := rfl
@[simp] theorem State.setCounter_colls (s : State) (k : Nat) (x : Counter) : (s.setCounter k x).colls = s.colls := rfl
@[simp] theorem State.setCounter_births (s : State) (k : Nat) (x : Counter) : (s.setCounter k x).births = s.births := rfl
@[simp] theorem State.setCounter_uud (s : State) (k : Nat) (x : Counter) : (s.setCounter k x).uud = s.uud := rfl
@[simp] theorem State.setCounter_mesh (s : State) (k : Nat) (x : Counter) : (s.setCounter k x).mesh = s.mesh := rfl
@[simp] theorem State.setCounter_meshOut (s : State) (k : Nat) (x : Counter) : (s.setCounter k x).meshOut = s.meshOut := rfl
@[simp] theorem State.setCounter_slew (s : State) (k : Nat) (x : Counter) : (s.setCounter k x).slew = s.slew := rfl
@[simp] theorem State.setCounter_slewAcc (s : State) (k : Nat) (x : Counter) : (s.setCounter k x).slewAcc = s.slewAcc := rfl
@[simp] theorem State.setCounter_timeSent (s : State) (k : Nat) (x : Counter) : (s.setCounter k x).timeSent = s.timeSent := rfl
@[simp] theorem State.setCounter_joined (s : State) (k : Nat) (x : Counter) : (s.setCounter k x).joined = s.joined := rfl
@[simp] theorem State.setCounter_mapJob (s : State) (k : Nat) (x : Counter) : (s.setCounter k x).mapJob = s.mapJob := rfl
@[simp] theorem State.setCounter_mapWait (s : State) (k : Nat) (x : Counter) : (s.setCounter k x).mapWait = s.mapWait := rfl
@[simp] theorem State.setCounter_mapQueue (s : State) (k : Nat) (x : Counter) : (s.setCounter k x).mapQueue = s.mapQueue := rfl
@[simp] theorem State.setCounter_mapLast (s : State) (k : Nat) (x : Counter) : (s.setCounter k x).mapLast = s.mapLast := rfl
@[simp] theorem State.setCounter_draining (s : State) (k : Nat) (x : Counter) : (s.setCounter k x).draining = s.draining := rfl
@[simp] theorem State.setCounter_hostOps (s : State) (k : Nat) (x : Counter) : (s.setCounter k x).hostOps = s.hostOps := rfl
@[simp] theorem State.setCounter_asking (s : State) (k : Nat) (x : Counter) : (s.setCounter k x).asking = s.asking := rfl
@[simp] theorem State.setCounter_asks (s : State) (k : Nat) (x : Counter) : (s.setCounter k x).asks = s.asks := rfl
@[simp] theorem State.setPinQ_power (s : State) (k : Nat) (x : List QEnt) : (s.setPinQ k x).power = s.power := rfl
@[simp] theorem State.setPinQ_cube (s : State) (k : Nat) (x : List QEnt) : (s.setPinQ k x).cube = s.cube := rfl
@[simp] theorem State.setPinQ_time (s : State) (k : Nat) (x : List QEnt) : (s.setPinQ k x).time = s.time := rfl
@[simp] theorem State.setPinQ_cycle (s : State) (k : Nat) (x : List QEnt) : (s.setPinQ k x).cycle = s.cycle := rfl
@[simp] theorem State.setPinQ_free (s : State) (k : Nat) (x : List QEnt) : (s.setPinQ k x).free = s.free := rfl
@[simp] theorem State.setPinQ_nid (s : State) (k : Nat) (x : List QEnt) : (s.setPinQ k x).nid = s.nid := rfl
@[simp] theorem State.setPinQ_cur (s : State) (k : Nat) (x : List QEnt) : (s.setPinQ k x).cur = s.cur := rfl
@[simp] theorem State.setPinQ_arg (s : State) (k : Nat) (x : List QEnt) : (s.setPinQ k x).arg = s.arg := rfl
@[simp] theorem State.setPinQ_inputs (s : State) (k : Nat) (x : List QEnt) : (s.setPinQ k x).inputs = s.inputs := rfl
@[simp] theorem State.setPinQ_outbox (s : State) (k : Nat) (x : List QEnt) : (s.setPinQ k x).outbox = s.outbox := rfl
@[simp] theorem State.setPinQ_mem (s : State) (k : Nat) (x : List QEnt) : (s.setPinQ k x).mem = s.mem := rfl
@[simp] theorem State.setPinQ_ecc (s : State) (k : Nat) (x : List QEnt) : (s.setPinQ k x).ecc = s.ecc := rfl
@[simp] theorem State.setPinQ_bad (s : State) (k : Nat) (x : List QEnt) : (s.setPinQ k x).bad = s.bad := rfl
@[simp] theorem State.setPinQ_ctxs (s : State) (k : Nat) (x : List QEnt) : (s.setPinQ k x).ctxs = s.ctxs := rfl
@[simp] theorem State.setPinQ_cores (s : State) (k : Nat) (x : List QEnt) : (s.setPinQ k x).cores = s.cores := rfl
@[simp] theorem State.setPinQ_ctrs (s : State) (k : Nat) (x : List QEnt) : (s.setPinQ k x).ctrs = s.ctrs := rfl
@[simp] theorem State.setPinQ_stored (s : State) (k : Nat) (x : List QEnt) : (s.setPinQ k x).stored = s.stored := rfl
@[simp] theorem State.setPinQ_nt (s : State) (k : Nat) (x : List QEnt) : (s.setPinQ k x).nt = s.nt := rfl
@[simp] theorem State.setPinQ_chains (s : State) (k : Nat) (x : List QEnt) : (s.setPinQ k x).chains = s.chains := rfl
@[simp] theorem State.setPinQ_tlbs (s : State) (k : Nat) (x : List QEnt) : (s.setPinQ k x).tlbs = s.tlbs := rfl
@[simp] theorem State.setPinQ_walks (s : State) (k : Nat) (x : List QEnt) : (s.setPinQ k x).walks = s.walks := rfl
@[simp] theorem State.setPinQ_reqs (s : State) (k : Nat) (x : List QEnt) : (s.setPinQ k x).reqs = s.reqs := rfl
@[simp] theorem State.setPinQ_net (s : State) (k : Nat) (x : List QEnt) : (s.setPinQ k x).net = s.net := rfl
@[simp] theorem State.setPinQ_vbanks (s : State) (k : Nat) (x : List QEnt) : (s.setPinQ k x).vbanks = s.vbanks := rfl
@[simp] theorem State.setPinQ_vops (s : State) (k : Nat) (x : List QEnt) : (s.setPinQ k x).vops = s.vops := rfl
@[simp] theorem State.setPinQ_reps (s : State) (k : Nat) (x : List QEnt) : (s.setPinQ k x).reps = s.reps := rfl
@[simp] theorem State.setPinQ_cmds (s : State) (k : Nat) (x : List QEnt) : (s.setPinQ k x).cmds = s.cmds := rfl
@[simp] theorem State.setPinQ_sems (s : State) (k : Nat) (x : List QEnt) : (s.setPinQ k x).sems = s.sems := rfl
@[simp] theorem State.setPinQ_groups (s : State) (k : Nat) (x : List QEnt) : (s.setPinQ k x).groups = s.groups := rfl
@[simp] theorem State.setPinQ_tenants (s : State) (k : Nat) (x : List QEnt) : (s.setPinQ k x).tenants = s.tenants := rfl
@[simp] theorem State.setPinQ_fwTraps (s : State) (k : Nat) (x : List QEnt) : (s.setPinQ k x).fwTraps = s.fwTraps := rfl
@[simp] theorem State.setPinQ_contain (s : State) (k : Nat) (x : List QEnt) : (s.setPinQ k x).contain = s.contain := rfl
@[simp] theorem State.setPinQ_regions (s : State) (k : Nat) (x : List QEnt) : (s.setPinQ k x).regions = s.regions := rfl
@[simp] theorem State.setPinQ_settab (s : State) (k : Nat) (x : List QEnt) : (s.setPinQ k x).settab = s.settab := rfl
@[simp] theorem State.setPinQ_mapgen (s : State) (k : Nat) (x : List QEnt) : (s.setPinQ k x).mapgen = s.mapgen := rfl
@[simp] theorem State.setPinQ_linear (s : State) (k : Nat) (x : List QEnt) : (s.setPinQ k x).linear = s.linear := rfl
@[simp] theorem State.setPinQ_tiles (s : State) (k : Nat) (x : List QEnt) : (s.setPinQ k x).tiles = s.tiles := rfl
@[simp] theorem State.setPinQ_journal (s : State) (k : Nat) (x : List QEnt) : (s.setPinQ k x).journal = s.journal := rfl
@[simp] theorem State.setPinQ_jsize (s : State) (k : Nat) (x : List QEnt) : (s.setPinQ k x).jsize = s.jsize := rfl
@[simp] theorem State.setPinQ_jhigh (s : State) (k : Nat) (x : List QEnt) : (s.setPinQ k x).jhigh = s.jhigh := rfl
@[simp] theorem State.setPinQ_stalls (s : State) (k : Nat) (x : List QEnt) : (s.setPinQ k x).stalls = s.stalls := rfl
@[simp] theorem State.setPinQ_ivals (s : State) (k : Nat) (x : List QEnt) : (s.setPinQ k x).ivals = s.ivals := rfl
@[simp] theorem State.setPinQ_ckpts (s : State) (k : Nat) (x : List QEnt) : (s.setPinQ k x).ckpts = s.ckpts := rfl
@[simp] theorem State.setPinQ_berr (s : State) (k : Nat) (x : List QEnt) : (s.setPinQ k x).berr = s.berr := rfl
@[simp] theorem State.setPinQ_launches (s : State) (k : Nat) (x : List QEnt) : (s.setPinQ k x).launches = s.launches := rfl
@[simp] theorem State.setPinQ_history (s : State) (k : Nat) (x : List QEnt) : (s.setPinQ k x).history = s.history := rfl
@[simp] theorem State.setPinQ_rotate (s : State) (k : Nat) (x : List QEnt) : (s.setPinQ k x).rotate = s.rotate := rfl
@[simp] theorem State.setPinQ_arrays (s : State) (k : Nat) (x : List QEnt) : (s.setPinQ k x).arrays = s.arrays := rfl
@[simp] theorem State.setPinQ_moving (s : State) (k : Nat) (x : List QEnt) : (s.setPinQ k x).moving = s.moving := rfl
@[simp] theorem State.setPinQ_diffused (s : State) (k : Nat) (x : List QEnt) : (s.setPinQ k x).diffused = s.diffused := rfl
@[simp] theorem State.setPinQ_filters (s : State) (k : Nat) (x : List QEnt) : (s.setPinQ k x).filters = s.filters := rfl
@[simp] theorem State.setPinQ_cancels (s : State) (k : Nat) (x : List QEnt) : (s.setPinQ k x).cancels = s.cancels := rfl
@[simp] theorem State.setPinQ_peers (s : State) (k : Nat) (x : List QEnt) : (s.setPinQ k x).peers = s.peers := rfl
@[simp] theorem State.setPinQ_notices (s : State) (k : Nat) (x : List QEnt) : (s.setPinQ k x).notices = s.notices := rfl
@[simp] theorem State.setPinQ_lends (s : State) (k : Nat) (x : List QEnt) : (s.setPinQ k x).lends = s.lends := rfl
@[simp] theorem State.setPinQ_expiry (s : State) (k : Nat) (x : List QEnt) : (s.setPinQ k x).expiry = s.expiry := rfl
@[simp] theorem State.setPinQ_images (s : State) (k : Nat) (x : List QEnt) : (s.setPinQ k x).images = s.images := rfl
@[simp] theorem State.setPinQ_fw (s : State) (k : Nat) (x : List QEnt) : (s.setPinQ k x).fw = s.fw := rfl
@[simp] theorem State.setPinQ_ports (s : State) (k : Nat) (x : List QEnt) : (s.setPinQ k x).ports = s.ports := rfl
@[simp] theorem State.setPinQ_einj (s : State) (k : Nat) (x : List QEnt) : (s.setPinQ k x).einj = s.einj := rfl
@[simp] theorem State.setPinQ_invs (s : State) (k : Nat) (x : List QEnt) : (s.setPinQ k x).invs = s.invs := rfl
@[simp] theorem State.setPinQ_micro (s : State) (k : Nat) (x : List QEnt) : (s.setPinQ k x).micro = s.micro := rfl
@[simp] theorem State.setPinQ_entries (s : State) (k : Nat) (x : List QEnt) : (s.setPinQ k x).entries = s.entries := rfl
@[simp] theorem State.setPinQ_pages (s : State) (k : Nat) (x : List QEnt) : (s.setPinQ k x).pages = s.pages := rfl
@[simp] theorem State.setPinQ_pdcs (s : State) (k : Nat) (x : List QEnt) : (s.setPinQ k x).pdcs = s.pdcs := rfl
@[simp] theorem State.setPinQ_pdcWait (s : State) (k : Nat) (x : List QEnt) : (s.setPinQ k x).pdcWait = s.pdcWait := rfl
@[simp] theorem State.setPinQ_sendNo (s : State) (k : Nat) (x : List QEnt) : (s.setPinQ k x).sendNo = s.sendNo := rfl
@[simp] theorem State.setPinQ_heard (s : State) (k : Nat) (x : List QEnt) : (s.setPinQ k x).heard = s.heard := rfl
@[simp] theorem State.setPinQ_arrivals (s : State) (k : Nat) (x : List QEnt) : (s.setPinQ k x).arrivals = s.arrivals := rfl
@[simp] theorem State.setPinQ_lost (s : State) (k : Nat) (x : List QEnt) : (s.setPinQ k x).lost = s.lost := rfl
@[simp] theorem State.setPinQ_told (s : State) (k : Nat) (x : List QEnt) : (s.setPinQ k x).told = s.told := rfl
@[simp] theorem State.setPinQ_colls (s : State) (k : Nat) (x : List QEnt) : (s.setPinQ k x).colls = s.colls := rfl
@[simp] theorem State.setPinQ_births (s : State) (k : Nat) (x : List QEnt) : (s.setPinQ k x).births = s.births := rfl
@[simp] theorem State.setPinQ_uud (s : State) (k : Nat) (x : List QEnt) : (s.setPinQ k x).uud = s.uud := rfl
@[simp] theorem State.setPinQ_mesh (s : State) (k : Nat) (x : List QEnt) : (s.setPinQ k x).mesh = s.mesh := rfl
@[simp] theorem State.setPinQ_meshOut (s : State) (k : Nat) (x : List QEnt) : (s.setPinQ k x).meshOut = s.meshOut := rfl
@[simp] theorem State.setPinQ_slew (s : State) (k : Nat) (x : List QEnt) : (s.setPinQ k x).slew = s.slew := rfl
@[simp] theorem State.setPinQ_slewAcc (s : State) (k : Nat) (x : List QEnt) : (s.setPinQ k x).slewAcc = s.slewAcc := rfl
@[simp] theorem State.setPinQ_timeSent (s : State) (k : Nat) (x : List QEnt) : (s.setPinQ k x).timeSent = s.timeSent := rfl
@[simp] theorem State.setPinQ_joined (s : State) (k : Nat) (x : List QEnt) : (s.setPinQ k x).joined = s.joined := rfl
@[simp] theorem State.setPinQ_mapJob (s : State) (k : Nat) (x : List QEnt) : (s.setPinQ k x).mapJob = s.mapJob := rfl
@[simp] theorem State.setPinQ_mapWait (s : State) (k : Nat) (x : List QEnt) : (s.setPinQ k x).mapWait = s.mapWait := rfl
@[simp] theorem State.setPinQ_mapQueue (s : State) (k : Nat) (x : List QEnt) : (s.setPinQ k x).mapQueue = s.mapQueue := rfl
@[simp] theorem State.setPinQ_mapLast (s : State) (k : Nat) (x : List QEnt) : (s.setPinQ k x).mapLast = s.mapLast := rfl
@[simp] theorem State.setPinQ_draining (s : State) (k : Nat) (x : List QEnt) : (s.setPinQ k x).draining = s.draining := rfl
@[simp] theorem State.setPinQ_hostOps (s : State) (k : Nat) (x : List QEnt) : (s.setPinQ k x).hostOps = s.hostOps := rfl
@[simp] theorem State.setPinQ_asking (s : State) (k : Nat) (x : List QEnt) : (s.setPinQ k x).asking = s.asking := rfl
@[simp] theorem State.setPinQ_asks (s : State) (k : Nat) (x : List QEnt) : (s.setPinQ k x).asks = s.asks := rfl
@[simp] theorem State.setUpQ_power (s : State) (k : Nat) (x : List QEnt) : (s.setUpQ k x).power = s.power := rfl
@[simp] theorem State.setUpQ_cube (s : State) (k : Nat) (x : List QEnt) : (s.setUpQ k x).cube = s.cube := rfl
@[simp] theorem State.setUpQ_time (s : State) (k : Nat) (x : List QEnt) : (s.setUpQ k x).time = s.time := rfl
@[simp] theorem State.setUpQ_cycle (s : State) (k : Nat) (x : List QEnt) : (s.setUpQ k x).cycle = s.cycle := rfl
@[simp] theorem State.setUpQ_free (s : State) (k : Nat) (x : List QEnt) : (s.setUpQ k x).free = s.free := rfl
@[simp] theorem State.setUpQ_nid (s : State) (k : Nat) (x : List QEnt) : (s.setUpQ k x).nid = s.nid := rfl
@[simp] theorem State.setUpQ_cur (s : State) (k : Nat) (x : List QEnt) : (s.setUpQ k x).cur = s.cur := rfl
@[simp] theorem State.setUpQ_arg (s : State) (k : Nat) (x : List QEnt) : (s.setUpQ k x).arg = s.arg := rfl
@[simp] theorem State.setUpQ_inputs (s : State) (k : Nat) (x : List QEnt) : (s.setUpQ k x).inputs = s.inputs := rfl
@[simp] theorem State.setUpQ_outbox (s : State) (k : Nat) (x : List QEnt) : (s.setUpQ k x).outbox = s.outbox := rfl
@[simp] theorem State.setUpQ_mem (s : State) (k : Nat) (x : List QEnt) : (s.setUpQ k x).mem = s.mem := rfl
@[simp] theorem State.setUpQ_ecc (s : State) (k : Nat) (x : List QEnt) : (s.setUpQ k x).ecc = s.ecc := rfl
@[simp] theorem State.setUpQ_bad (s : State) (k : Nat) (x : List QEnt) : (s.setUpQ k x).bad = s.bad := rfl
@[simp] theorem State.setUpQ_ctxs (s : State) (k : Nat) (x : List QEnt) : (s.setUpQ k x).ctxs = s.ctxs := rfl
@[simp] theorem State.setUpQ_cores (s : State) (k : Nat) (x : List QEnt) : (s.setUpQ k x).cores = s.cores := rfl
@[simp] theorem State.setUpQ_ctrs (s : State) (k : Nat) (x : List QEnt) : (s.setUpQ k x).ctrs = s.ctrs := rfl
@[simp] theorem State.setUpQ_stored (s : State) (k : Nat) (x : List QEnt) : (s.setUpQ k x).stored = s.stored := rfl
@[simp] theorem State.setUpQ_nt (s : State) (k : Nat) (x : List QEnt) : (s.setUpQ k x).nt = s.nt := rfl
@[simp] theorem State.setUpQ_queues (s : State) (k : Nat) (x : List QEnt) : (s.setUpQ k x).queues = s.queues := rfl
@[simp] theorem State.setUpQ_tlbs (s : State) (k : Nat) (x : List QEnt) : (s.setUpQ k x).tlbs = s.tlbs := rfl
@[simp] theorem State.setUpQ_walks (s : State) (k : Nat) (x : List QEnt) : (s.setUpQ k x).walks = s.walks := rfl
@[simp] theorem State.setUpQ_reqs (s : State) (k : Nat) (x : List QEnt) : (s.setUpQ k x).reqs = s.reqs := rfl
@[simp] theorem State.setUpQ_net (s : State) (k : Nat) (x : List QEnt) : (s.setUpQ k x).net = s.net := rfl
@[simp] theorem State.setUpQ_vbanks (s : State) (k : Nat) (x : List QEnt) : (s.setUpQ k x).vbanks = s.vbanks := rfl
@[simp] theorem State.setUpQ_vops (s : State) (k : Nat) (x : List QEnt) : (s.setUpQ k x).vops = s.vops := rfl
@[simp] theorem State.setUpQ_reps (s : State) (k : Nat) (x : List QEnt) : (s.setUpQ k x).reps = s.reps := rfl
@[simp] theorem State.setUpQ_cmds (s : State) (k : Nat) (x : List QEnt) : (s.setUpQ k x).cmds = s.cmds := rfl
@[simp] theorem State.setUpQ_sems (s : State) (k : Nat) (x : List QEnt) : (s.setUpQ k x).sems = s.sems := rfl
@[simp] theorem State.setUpQ_groups (s : State) (k : Nat) (x : List QEnt) : (s.setUpQ k x).groups = s.groups := rfl
@[simp] theorem State.setUpQ_tenants (s : State) (k : Nat) (x : List QEnt) : (s.setUpQ k x).tenants = s.tenants := rfl
@[simp] theorem State.setUpQ_fwTraps (s : State) (k : Nat) (x : List QEnt) : (s.setUpQ k x).fwTraps = s.fwTraps := rfl
@[simp] theorem State.setUpQ_contain (s : State) (k : Nat) (x : List QEnt) : (s.setUpQ k x).contain = s.contain := rfl
@[simp] theorem State.setUpQ_regions (s : State) (k : Nat) (x : List QEnt) : (s.setUpQ k x).regions = s.regions := rfl
@[simp] theorem State.setUpQ_settab (s : State) (k : Nat) (x : List QEnt) : (s.setUpQ k x).settab = s.settab := rfl
@[simp] theorem State.setUpQ_mapgen (s : State) (k : Nat) (x : List QEnt) : (s.setUpQ k x).mapgen = s.mapgen := rfl
@[simp] theorem State.setUpQ_linear (s : State) (k : Nat) (x : List QEnt) : (s.setUpQ k x).linear = s.linear := rfl
@[simp] theorem State.setUpQ_tiles (s : State) (k : Nat) (x : List QEnt) : (s.setUpQ k x).tiles = s.tiles := rfl
@[simp] theorem State.setUpQ_journal (s : State) (k : Nat) (x : List QEnt) : (s.setUpQ k x).journal = s.journal := rfl
@[simp] theorem State.setUpQ_jsize (s : State) (k : Nat) (x : List QEnt) : (s.setUpQ k x).jsize = s.jsize := rfl
@[simp] theorem State.setUpQ_jhigh (s : State) (k : Nat) (x : List QEnt) : (s.setUpQ k x).jhigh = s.jhigh := rfl
@[simp] theorem State.setUpQ_stalls (s : State) (k : Nat) (x : List QEnt) : (s.setUpQ k x).stalls = s.stalls := rfl
@[simp] theorem State.setUpQ_ivals (s : State) (k : Nat) (x : List QEnt) : (s.setUpQ k x).ivals = s.ivals := rfl
@[simp] theorem State.setUpQ_ckpts (s : State) (k : Nat) (x : List QEnt) : (s.setUpQ k x).ckpts = s.ckpts := rfl
@[simp] theorem State.setUpQ_berr (s : State) (k : Nat) (x : List QEnt) : (s.setUpQ k x).berr = s.berr := rfl
@[simp] theorem State.setUpQ_launches (s : State) (k : Nat) (x : List QEnt) : (s.setUpQ k x).launches = s.launches := rfl
@[simp] theorem State.setUpQ_history (s : State) (k : Nat) (x : List QEnt) : (s.setUpQ k x).history = s.history := rfl
@[simp] theorem State.setUpQ_rotate (s : State) (k : Nat) (x : List QEnt) : (s.setUpQ k x).rotate = s.rotate := rfl
@[simp] theorem State.setUpQ_arrays (s : State) (k : Nat) (x : List QEnt) : (s.setUpQ k x).arrays = s.arrays := rfl
@[simp] theorem State.setUpQ_moving (s : State) (k : Nat) (x : List QEnt) : (s.setUpQ k x).moving = s.moving := rfl
@[simp] theorem State.setUpQ_diffused (s : State) (k : Nat) (x : List QEnt) : (s.setUpQ k x).diffused = s.diffused := rfl
@[simp] theorem State.setUpQ_filters (s : State) (k : Nat) (x : List QEnt) : (s.setUpQ k x).filters = s.filters := rfl
@[simp] theorem State.setUpQ_cancels (s : State) (k : Nat) (x : List QEnt) : (s.setUpQ k x).cancels = s.cancels := rfl
@[simp] theorem State.setUpQ_peers (s : State) (k : Nat) (x : List QEnt) : (s.setUpQ k x).peers = s.peers := rfl
@[simp] theorem State.setUpQ_notices (s : State) (k : Nat) (x : List QEnt) : (s.setUpQ k x).notices = s.notices := rfl
@[simp] theorem State.setUpQ_lends (s : State) (k : Nat) (x : List QEnt) : (s.setUpQ k x).lends = s.lends := rfl
@[simp] theorem State.setUpQ_expiry (s : State) (k : Nat) (x : List QEnt) : (s.setUpQ k x).expiry = s.expiry := rfl
@[simp] theorem State.setUpQ_images (s : State) (k : Nat) (x : List QEnt) : (s.setUpQ k x).images = s.images := rfl
@[simp] theorem State.setUpQ_fw (s : State) (k : Nat) (x : List QEnt) : (s.setUpQ k x).fw = s.fw := rfl
@[simp] theorem State.setUpQ_ports (s : State) (k : Nat) (x : List QEnt) : (s.setUpQ k x).ports = s.ports := rfl
@[simp] theorem State.setUpQ_einj (s : State) (k : Nat) (x : List QEnt) : (s.setUpQ k x).einj = s.einj := rfl
@[simp] theorem State.setUpQ_invs (s : State) (k : Nat) (x : List QEnt) : (s.setUpQ k x).invs = s.invs := rfl
@[simp] theorem State.setUpQ_micro (s : State) (k : Nat) (x : List QEnt) : (s.setUpQ k x).micro = s.micro := rfl
@[simp] theorem State.setUpQ_entries (s : State) (k : Nat) (x : List QEnt) : (s.setUpQ k x).entries = s.entries := rfl
@[simp] theorem State.setUpQ_pages (s : State) (k : Nat) (x : List QEnt) : (s.setUpQ k x).pages = s.pages := rfl
@[simp] theorem State.setUpQ_pdcs (s : State) (k : Nat) (x : List QEnt) : (s.setUpQ k x).pdcs = s.pdcs := rfl
@[simp] theorem State.setUpQ_pdcWait (s : State) (k : Nat) (x : List QEnt) : (s.setUpQ k x).pdcWait = s.pdcWait := rfl
@[simp] theorem State.setUpQ_sendNo (s : State) (k : Nat) (x : List QEnt) : (s.setUpQ k x).sendNo = s.sendNo := rfl
@[simp] theorem State.setUpQ_heard (s : State) (k : Nat) (x : List QEnt) : (s.setUpQ k x).heard = s.heard := rfl
@[simp] theorem State.setUpQ_arrivals (s : State) (k : Nat) (x : List QEnt) : (s.setUpQ k x).arrivals = s.arrivals := rfl
@[simp] theorem State.setUpQ_lost (s : State) (k : Nat) (x : List QEnt) : (s.setUpQ k x).lost = s.lost := rfl
@[simp] theorem State.setUpQ_told (s : State) (k : Nat) (x : List QEnt) : (s.setUpQ k x).told = s.told := rfl
@[simp] theorem State.setUpQ_colls (s : State) (k : Nat) (x : List QEnt) : (s.setUpQ k x).colls = s.colls := rfl
@[simp] theorem State.setUpQ_births (s : State) (k : Nat) (x : List QEnt) : (s.setUpQ k x).births = s.births := rfl
@[simp] theorem State.setUpQ_uud (s : State) (k : Nat) (x : List QEnt) : (s.setUpQ k x).uud = s.uud := rfl
@[simp] theorem State.setUpQ_mesh (s : State) (k : Nat) (x : List QEnt) : (s.setUpQ k x).mesh = s.mesh := rfl
@[simp] theorem State.setUpQ_meshOut (s : State) (k : Nat) (x : List QEnt) : (s.setUpQ k x).meshOut = s.meshOut := rfl
@[simp] theorem State.setUpQ_slew (s : State) (k : Nat) (x : List QEnt) : (s.setUpQ k x).slew = s.slew := rfl
@[simp] theorem State.setUpQ_slewAcc (s : State) (k : Nat) (x : List QEnt) : (s.setUpQ k x).slewAcc = s.slewAcc := rfl
@[simp] theorem State.setUpQ_timeSent (s : State) (k : Nat) (x : List QEnt) : (s.setUpQ k x).timeSent = s.timeSent := rfl
@[simp] theorem State.setUpQ_joined (s : State) (k : Nat) (x : List QEnt) : (s.setUpQ k x).joined = s.joined := rfl
@[simp] theorem State.setUpQ_mapJob (s : State) (k : Nat) (x : List QEnt) : (s.setUpQ k x).mapJob = s.mapJob := rfl
@[simp] theorem State.setUpQ_mapWait (s : State) (k : Nat) (x : List QEnt) : (s.setUpQ k x).mapWait = s.mapWait := rfl
@[simp] theorem State.setUpQ_mapQueue (s : State) (k : Nat) (x : List QEnt) : (s.setUpQ k x).mapQueue = s.mapQueue := rfl
@[simp] theorem State.setUpQ_mapLast (s : State) (k : Nat) (x : List QEnt) : (s.setUpQ k x).mapLast = s.mapLast := rfl
@[simp] theorem State.setUpQ_draining (s : State) (k : Nat) (x : List QEnt) : (s.setUpQ k x).draining = s.draining := rfl
@[simp] theorem State.setUpQ_hostOps (s : State) (k : Nat) (x : List QEnt) : (s.setUpQ k x).hostOps = s.hostOps := rfl
@[simp] theorem State.setUpQ_asking (s : State) (k : Nat) (x : List QEnt) : (s.setUpQ k x).asking = s.asking := rfl
@[simp] theorem State.setUpQ_asks (s : State) (k : Nat) (x : List QEnt) : (s.setUpQ k x).asks = s.asks := rfl
@[simp] theorem State.addReq_power (s : State) (r : Req) : (s.addReq r).power = s.power := rfl
@[simp] theorem State.addReq_cube (s : State) (r : Req) : (s.addReq r).cube = s.cube := rfl
@[simp] theorem State.addReq_time (s : State) (r : Req) : (s.addReq r).time = s.time := rfl
@[simp] theorem State.addReq_cycle (s : State) (r : Req) : (s.addReq r).cycle = s.cycle := rfl
@[simp] theorem State.addReq_free (s : State) (r : Req) : (s.addReq r).free = s.free := rfl
@[simp] theorem State.addReq_nid (s : State) (r : Req) : (s.addReq r).nid = s.nid := rfl
@[simp] theorem State.addReq_cur (s : State) (r : Req) : (s.addReq r).cur = s.cur := rfl
@[simp] theorem State.addReq_arg (s : State) (r : Req) : (s.addReq r).arg = s.arg := rfl
@[simp] theorem State.addReq_inputs (s : State) (r : Req) : (s.addReq r).inputs = s.inputs := rfl
@[simp] theorem State.addReq_outbox (s : State) (r : Req) : (s.addReq r).outbox = s.outbox := rfl
@[simp] theorem State.addReq_mem (s : State) (r : Req) : (s.addReq r).mem = s.mem := rfl
@[simp] theorem State.addReq_ecc (s : State) (r : Req) : (s.addReq r).ecc = s.ecc := rfl
@[simp] theorem State.addReq_bad (s : State) (r : Req) : (s.addReq r).bad = s.bad := rfl
@[simp] theorem State.addReq_ctxs (s : State) (r : Req) : (s.addReq r).ctxs = s.ctxs := rfl
@[simp] theorem State.addReq_cores (s : State) (r : Req) : (s.addReq r).cores = s.cores := rfl
@[simp] theorem State.addReq_ctrs (s : State) (r : Req) : (s.addReq r).ctrs = s.ctrs := rfl
@[simp] theorem State.addReq_stored (s : State) (r : Req) : (s.addReq r).stored = s.stored := rfl
@[simp] theorem State.addReq_nt (s : State) (r : Req) : (s.addReq r).nt = s.nt := rfl
@[simp] theorem State.addReq_queues (s : State) (r : Req) : (s.addReq r).queues = s.queues := rfl
@[simp] theorem State.addReq_chains (s : State) (r : Req) : (s.addReq r).chains = s.chains := rfl
@[simp] theorem State.addReq_tlbs (s : State) (r : Req) : (s.addReq r).tlbs = s.tlbs := rfl
@[simp] theorem State.addReq_walks (s : State) (r : Req) : (s.addReq r).walks = s.walks := rfl
@[simp] theorem State.addReq_net (s : State) (r : Req) : (s.addReq r).net = s.net := rfl
@[simp] theorem State.addReq_vbanks (s : State) (r : Req) : (s.addReq r).vbanks = s.vbanks := rfl
@[simp] theorem State.addReq_vops (s : State) (r : Req) : (s.addReq r).vops = s.vops := rfl
@[simp] theorem State.addReq_reps (s : State) (r : Req) : (s.addReq r).reps = s.reps := rfl
@[simp] theorem State.addReq_cmds (s : State) (r : Req) : (s.addReq r).cmds = s.cmds := rfl
@[simp] theorem State.addReq_sems (s : State) (r : Req) : (s.addReq r).sems = s.sems := rfl
@[simp] theorem State.addReq_groups (s : State) (r : Req) : (s.addReq r).groups = s.groups := rfl
@[simp] theorem State.addReq_tenants (s : State) (r : Req) : (s.addReq r).tenants = s.tenants := rfl
@[simp] theorem State.addReq_fwTraps (s : State) (r : Req) : (s.addReq r).fwTraps = s.fwTraps := rfl
@[simp] theorem State.addReq_contain (s : State) (r : Req) : (s.addReq r).contain = s.contain := rfl
@[simp] theorem State.addReq_regions (s : State) (r : Req) : (s.addReq r).regions = s.regions := rfl
@[simp] theorem State.addReq_settab (s : State) (r : Req) : (s.addReq r).settab = s.settab := rfl
@[simp] theorem State.addReq_mapgen (s : State) (r : Req) : (s.addReq r).mapgen = s.mapgen := rfl
@[simp] theorem State.addReq_linear (s : State) (r : Req) : (s.addReq r).linear = s.linear := rfl
@[simp] theorem State.addReq_tiles (s : State) (r : Req) : (s.addReq r).tiles = s.tiles := rfl
@[simp] theorem State.addReq_journal (s : State) (r : Req) : (s.addReq r).journal = s.journal := rfl
@[simp] theorem State.addReq_jsize (s : State) (r : Req) : (s.addReq r).jsize = s.jsize := rfl
@[simp] theorem State.addReq_jhigh (s : State) (r : Req) : (s.addReq r).jhigh = s.jhigh := rfl
@[simp] theorem State.addReq_stalls (s : State) (r : Req) : (s.addReq r).stalls = s.stalls := rfl
@[simp] theorem State.addReq_ivals (s : State) (r : Req) : (s.addReq r).ivals = s.ivals := rfl
@[simp] theorem State.addReq_ckpts (s : State) (r : Req) : (s.addReq r).ckpts = s.ckpts := rfl
@[simp] theorem State.addReq_berr (s : State) (r : Req) : (s.addReq r).berr = s.berr := rfl
@[simp] theorem State.addReq_launches (s : State) (r : Req) : (s.addReq r).launches = s.launches := rfl
@[simp] theorem State.addReq_history (s : State) (r : Req) : (s.addReq r).history = s.history := rfl
@[simp] theorem State.addReq_rotate (s : State) (r : Req) : (s.addReq r).rotate = s.rotate := rfl
@[simp] theorem State.addReq_arrays (s : State) (r : Req) : (s.addReq r).arrays = s.arrays := rfl
@[simp] theorem State.addReq_moving (s : State) (r : Req) : (s.addReq r).moving = s.moving := rfl
@[simp] theorem State.addReq_diffused (s : State) (r : Req) : (s.addReq r).diffused = s.diffused := rfl
@[simp] theorem State.addReq_filters (s : State) (r : Req) : (s.addReq r).filters = s.filters := rfl
@[simp] theorem State.addReq_cancels (s : State) (r : Req) : (s.addReq r).cancels = s.cancels := rfl
@[simp] theorem State.addReq_peers (s : State) (r : Req) : (s.addReq r).peers = s.peers := rfl
@[simp] theorem State.addReq_notices (s : State) (r : Req) : (s.addReq r).notices = s.notices := rfl
@[simp] theorem State.addReq_lends (s : State) (r : Req) : (s.addReq r).lends = s.lends := rfl
@[simp] theorem State.addReq_expiry (s : State) (r : Req) : (s.addReq r).expiry = s.expiry := rfl
@[simp] theorem State.addReq_images (s : State) (r : Req) : (s.addReq r).images = s.images := rfl
@[simp] theorem State.addReq_fw (s : State) (r : Req) : (s.addReq r).fw = s.fw := rfl
@[simp] theorem State.addReq_ports (s : State) (r : Req) : (s.addReq r).ports = s.ports := rfl
@[simp] theorem State.addReq_einj (s : State) (r : Req) : (s.addReq r).einj = s.einj := rfl
@[simp] theorem State.addReq_invs (s : State) (r : Req) : (s.addReq r).invs = s.invs := rfl
@[simp] theorem State.addReq_micro (s : State) (r : Req) : (s.addReq r).micro = s.micro := rfl
@[simp] theorem State.addReq_entries (s : State) (r : Req) : (s.addReq r).entries = s.entries := rfl
@[simp] theorem State.addReq_pages (s : State) (r : Req) : (s.addReq r).pages = s.pages := rfl
@[simp] theorem State.addReq_pdcs (s : State) (r : Req) : (s.addReq r).pdcs = s.pdcs := rfl
@[simp] theorem State.addReq_pdcWait (s : State) (r : Req) : (s.addReq r).pdcWait = s.pdcWait := rfl
@[simp] theorem State.addReq_sendNo (s : State) (r : Req) : (s.addReq r).sendNo = s.sendNo := rfl
@[simp] theorem State.addReq_heard (s : State) (r : Req) : (s.addReq r).heard = s.heard := rfl
@[simp] theorem State.addReq_arrivals (s : State) (r : Req) : (s.addReq r).arrivals = s.arrivals := rfl
@[simp] theorem State.addReq_lost (s : State) (r : Req) : (s.addReq r).lost = s.lost := rfl
@[simp] theorem State.addReq_told (s : State) (r : Req) : (s.addReq r).told = s.told := rfl
@[simp] theorem State.addReq_colls (s : State) (r : Req) : (s.addReq r).colls = s.colls := rfl
@[simp] theorem State.addReq_births (s : State) (r : Req) : (s.addReq r).births = s.births := rfl
@[simp] theorem State.addReq_uud (s : State) (r : Req) : (s.addReq r).uud = s.uud := rfl
@[simp] theorem State.addReq_mesh (s : State) (r : Req) : (s.addReq r).mesh = s.mesh := rfl
@[simp] theorem State.addReq_meshOut (s : State) (r : Req) : (s.addReq r).meshOut = s.meshOut := rfl
@[simp] theorem State.addReq_slew (s : State) (r : Req) : (s.addReq r).slew = s.slew := rfl
@[simp] theorem State.addReq_slewAcc (s : State) (r : Req) : (s.addReq r).slewAcc = s.slewAcc := rfl
@[simp] theorem State.addReq_timeSent (s : State) (r : Req) : (s.addReq r).timeSent = s.timeSent := rfl
@[simp] theorem State.addReq_joined (s : State) (r : Req) : (s.addReq r).joined = s.joined := rfl
@[simp] theorem State.addReq_mapJob (s : State) (r : Req) : (s.addReq r).mapJob = s.mapJob := rfl
@[simp] theorem State.addReq_mapWait (s : State) (r : Req) : (s.addReq r).mapWait = s.mapWait := rfl
@[simp] theorem State.addReq_mapQueue (s : State) (r : Req) : (s.addReq r).mapQueue = s.mapQueue := rfl
@[simp] theorem State.addReq_mapLast (s : State) (r : Req) : (s.addReq r).mapLast = s.mapLast := rfl
@[simp] theorem State.addReq_draining (s : State) (r : Req) : (s.addReq r).draining = s.draining := rfl
@[simp] theorem State.addReq_hostOps (s : State) (r : Req) : (s.addReq r).hostOps = s.hostOps := rfl
@[simp] theorem State.addReq_asking (s : State) (r : Req) : (s.addReq r).asking = s.asking := rfl
@[simp] theorem State.addReq_asks (s : State) (r : Req) : (s.addReq r).asks = s.asks := rfl
@[simp] theorem State.drawn_power (s : State) : (s.drawn).power = s.power := rfl
@[simp] theorem State.drawn_cube (s : State) : (s.drawn).cube = s.cube := rfl
@[simp] theorem State.drawn_time (s : State) : (s.drawn).time = s.time := rfl
@[simp] theorem State.drawn_cycle (s : State) : (s.drawn).cycle = s.cycle := rfl
@[simp] theorem State.drawn_nid (s : State) : (s.drawn).nid = s.nid := rfl
@[simp] theorem State.drawn_cur (s : State) : (s.drawn).cur = s.cur := rfl
@[simp] theorem State.drawn_arg (s : State) : (s.drawn).arg = s.arg := rfl
@[simp] theorem State.drawn_inputs (s : State) : (s.drawn).inputs = s.inputs := rfl
@[simp] theorem State.drawn_outbox (s : State) : (s.drawn).outbox = s.outbox := rfl
@[simp] theorem State.drawn_mem (s : State) : (s.drawn).mem = s.mem := rfl
@[simp] theorem State.drawn_ecc (s : State) : (s.drawn).ecc = s.ecc := rfl
@[simp] theorem State.drawn_bad (s : State) : (s.drawn).bad = s.bad := rfl
@[simp] theorem State.drawn_ctxs (s : State) : (s.drawn).ctxs = s.ctxs := rfl
@[simp] theorem State.drawn_cores (s : State) : (s.drawn).cores = s.cores := rfl
@[simp] theorem State.drawn_ctrs (s : State) : (s.drawn).ctrs = s.ctrs := rfl
@[simp] theorem State.drawn_stored (s : State) : (s.drawn).stored = s.stored := rfl
@[simp] theorem State.drawn_nt (s : State) : (s.drawn).nt = s.nt := rfl
@[simp] theorem State.drawn_queues (s : State) : (s.drawn).queues = s.queues := rfl
@[simp] theorem State.drawn_chains (s : State) : (s.drawn).chains = s.chains := rfl
@[simp] theorem State.drawn_tlbs (s : State) : (s.drawn).tlbs = s.tlbs := rfl
@[simp] theorem State.drawn_walks (s : State) : (s.drawn).walks = s.walks := rfl
@[simp] theorem State.drawn_reqs (s : State) : (s.drawn).reqs = s.reqs := rfl
@[simp] theorem State.drawn_net (s : State) : (s.drawn).net = s.net := rfl
@[simp] theorem State.drawn_vbanks (s : State) : (s.drawn).vbanks = s.vbanks := rfl
@[simp] theorem State.drawn_vops (s : State) : (s.drawn).vops = s.vops := rfl
@[simp] theorem State.drawn_reps (s : State) : (s.drawn).reps = s.reps := rfl
@[simp] theorem State.drawn_cmds (s : State) : (s.drawn).cmds = s.cmds := rfl
@[simp] theorem State.drawn_sems (s : State) : (s.drawn).sems = s.sems := rfl
@[simp] theorem State.drawn_groups (s : State) : (s.drawn).groups = s.groups := rfl
@[simp] theorem State.drawn_tenants (s : State) : (s.drawn).tenants = s.tenants := rfl
@[simp] theorem State.drawn_fwTraps (s : State) : (s.drawn).fwTraps = s.fwTraps := rfl
@[simp] theorem State.drawn_contain (s : State) : (s.drawn).contain = s.contain := rfl
@[simp] theorem State.drawn_regions (s : State) : (s.drawn).regions = s.regions := rfl
@[simp] theorem State.drawn_settab (s : State) : (s.drawn).settab = s.settab := rfl
@[simp] theorem State.drawn_mapgen (s : State) : (s.drawn).mapgen = s.mapgen := rfl
@[simp] theorem State.drawn_linear (s : State) : (s.drawn).linear = s.linear := rfl
@[simp] theorem State.drawn_tiles (s : State) : (s.drawn).tiles = s.tiles := rfl
@[simp] theorem State.drawn_journal (s : State) : (s.drawn).journal = s.journal := rfl
@[simp] theorem State.drawn_jsize (s : State) : (s.drawn).jsize = s.jsize := rfl
@[simp] theorem State.drawn_jhigh (s : State) : (s.drawn).jhigh = s.jhigh := rfl
@[simp] theorem State.drawn_stalls (s : State) : (s.drawn).stalls = s.stalls := rfl
@[simp] theorem State.drawn_ivals (s : State) : (s.drawn).ivals = s.ivals := rfl
@[simp] theorem State.drawn_ckpts (s : State) : (s.drawn).ckpts = s.ckpts := rfl
@[simp] theorem State.drawn_berr (s : State) : (s.drawn).berr = s.berr := rfl
@[simp] theorem State.drawn_launches (s : State) : (s.drawn).launches = s.launches := rfl
@[simp] theorem State.drawn_history (s : State) : (s.drawn).history = s.history := rfl
@[simp] theorem State.drawn_rotate (s : State) : (s.drawn).rotate = s.rotate := rfl
@[simp] theorem State.drawn_arrays (s : State) : (s.drawn).arrays = s.arrays := rfl
@[simp] theorem State.drawn_moving (s : State) : (s.drawn).moving = s.moving := rfl
@[simp] theorem State.drawn_diffused (s : State) : (s.drawn).diffused = s.diffused := rfl
@[simp] theorem State.drawn_filters (s : State) : (s.drawn).filters = s.filters := rfl
@[simp] theorem State.drawn_cancels (s : State) : (s.drawn).cancels = s.cancels := rfl
@[simp] theorem State.drawn_peers (s : State) : (s.drawn).peers = s.peers := rfl
@[simp] theorem State.drawn_notices (s : State) : (s.drawn).notices = s.notices := rfl
@[simp] theorem State.drawn_lends (s : State) : (s.drawn).lends = s.lends := rfl
@[simp] theorem State.drawn_expiry (s : State) : (s.drawn).expiry = s.expiry := rfl
@[simp] theorem State.drawn_images (s : State) : (s.drawn).images = s.images := rfl
@[simp] theorem State.drawn_fw (s : State) : (s.drawn).fw = s.fw := rfl
@[simp] theorem State.drawn_ports (s : State) : (s.drawn).ports = s.ports := rfl
@[simp] theorem State.drawn_einj (s : State) : (s.drawn).einj = s.einj := rfl
@[simp] theorem State.drawn_invs (s : State) : (s.drawn).invs = s.invs := rfl
@[simp] theorem State.drawn_micro (s : State) : (s.drawn).micro = s.micro := rfl
@[simp] theorem State.drawn_entries (s : State) : (s.drawn).entries = s.entries := rfl
@[simp] theorem State.drawn_pages (s : State) : (s.drawn).pages = s.pages := rfl
@[simp] theorem State.drawn_pdcs (s : State) : (s.drawn).pdcs = s.pdcs := rfl
@[simp] theorem State.drawn_pdcWait (s : State) : (s.drawn).pdcWait = s.pdcWait := rfl
@[simp] theorem State.drawn_sendNo (s : State) : (s.drawn).sendNo = s.sendNo := rfl
@[simp] theorem State.drawn_heard (s : State) : (s.drawn).heard = s.heard := rfl
@[simp] theorem State.drawn_arrivals (s : State) : (s.drawn).arrivals = s.arrivals := rfl
@[simp] theorem State.drawn_lost (s : State) : (s.drawn).lost = s.lost := rfl
@[simp] theorem State.drawn_told (s : State) : (s.drawn).told = s.told := rfl
@[simp] theorem State.drawn_colls (s : State) : (s.drawn).colls = s.colls := rfl
@[simp] theorem State.drawn_births (s : State) : (s.drawn).births = s.births := rfl
@[simp] theorem State.drawn_uud (s : State) : (s.drawn).uud = s.uud := rfl
@[simp] theorem State.drawn_mesh (s : State) : (s.drawn).mesh = s.mesh := rfl
@[simp] theorem State.drawn_meshOut (s : State) : (s.drawn).meshOut = s.meshOut := rfl
@[simp] theorem State.drawn_slew (s : State) : (s.drawn).slew = s.slew := rfl
@[simp] theorem State.drawn_slewAcc (s : State) : (s.drawn).slewAcc = s.slewAcc := rfl
@[simp] theorem State.drawn_timeSent (s : State) : (s.drawn).timeSent = s.timeSent := rfl
@[simp] theorem State.drawn_joined (s : State) : (s.drawn).joined = s.joined := rfl
@[simp] theorem State.drawn_mapJob (s : State) : (s.drawn).mapJob = s.mapJob := rfl
@[simp] theorem State.drawn_mapWait (s : State) : (s.drawn).mapWait = s.mapWait := rfl
@[simp] theorem State.drawn_mapQueue (s : State) : (s.drawn).mapQueue = s.mapQueue := rfl
@[simp] theorem State.drawn_mapLast (s : State) : (s.drawn).mapLast = s.mapLast := rfl
@[simp] theorem State.drawn_draining (s : State) : (s.drawn).draining = s.draining := rfl
@[simp] theorem State.drawn_hostOps (s : State) : (s.drawn).hostOps = s.hostOps := rfl
@[simp] theorem State.drawn_asking (s : State) : (s.drawn).asking = s.asking := rfl
@[simp] theorem State.drawn_asks (s : State) : (s.drawn).asks = s.asks := rfl
@[simp] theorem State.setSelf_power (s : State) (x : Ctx) : (s.setSelf x).power = s.power := rfl
@[simp] theorem State.setSelf_cube (s : State) (x : Ctx) : (s.setSelf x).cube = s.cube := rfl
@[simp] theorem State.setSelf_time (s : State) (x : Ctx) : (s.setSelf x).time = s.time := rfl
@[simp] theorem State.setSelf_cycle (s : State) (x : Ctx) : (s.setSelf x).cycle = s.cycle := rfl
@[simp] theorem State.setSelf_free (s : State) (x : Ctx) : (s.setSelf x).free = s.free := rfl
@[simp] theorem State.setSelf_nid (s : State) (x : Ctx) : (s.setSelf x).nid = s.nid := rfl
@[simp] theorem State.setSelf_cur (s : State) (x : Ctx) : (s.setSelf x).cur = s.cur := rfl
@[simp] theorem State.setSelf_arg (s : State) (x : Ctx) : (s.setSelf x).arg = s.arg := rfl
@[simp] theorem State.setSelf_inputs (s : State) (x : Ctx) : (s.setSelf x).inputs = s.inputs := rfl
@[simp] theorem State.setSelf_outbox (s : State) (x : Ctx) : (s.setSelf x).outbox = s.outbox := rfl
@[simp] theorem State.setSelf_mem (s : State) (x : Ctx) : (s.setSelf x).mem = s.mem := rfl
@[simp] theorem State.setSelf_ecc (s : State) (x : Ctx) : (s.setSelf x).ecc = s.ecc := rfl
@[simp] theorem State.setSelf_bad (s : State) (x : Ctx) : (s.setSelf x).bad = s.bad := rfl
@[simp] theorem State.setSelf_cores (s : State) (x : Ctx) : (s.setSelf x).cores = s.cores := rfl
@[simp] theorem State.setSelf_ctrs (s : State) (x : Ctx) : (s.setSelf x).ctrs = s.ctrs := rfl
@[simp] theorem State.setSelf_stored (s : State) (x : Ctx) : (s.setSelf x).stored = s.stored := rfl
@[simp] theorem State.setSelf_nt (s : State) (x : Ctx) : (s.setSelf x).nt = s.nt := rfl
@[simp] theorem State.setSelf_queues (s : State) (x : Ctx) : (s.setSelf x).queues = s.queues := rfl
@[simp] theorem State.setSelf_chains (s : State) (x : Ctx) : (s.setSelf x).chains = s.chains := rfl
@[simp] theorem State.setSelf_tlbs (s : State) (x : Ctx) : (s.setSelf x).tlbs = s.tlbs := rfl
@[simp] theorem State.setSelf_walks (s : State) (x : Ctx) : (s.setSelf x).walks = s.walks := rfl
@[simp] theorem State.setSelf_reqs (s : State) (x : Ctx) : (s.setSelf x).reqs = s.reqs := rfl
@[simp] theorem State.setSelf_net (s : State) (x : Ctx) : (s.setSelf x).net = s.net := rfl
@[simp] theorem State.setSelf_vbanks (s : State) (x : Ctx) : (s.setSelf x).vbanks = s.vbanks := rfl
@[simp] theorem State.setSelf_vops (s : State) (x : Ctx) : (s.setSelf x).vops = s.vops := rfl
@[simp] theorem State.setSelf_reps (s : State) (x : Ctx) : (s.setSelf x).reps = s.reps := rfl
@[simp] theorem State.setSelf_cmds (s : State) (x : Ctx) : (s.setSelf x).cmds = s.cmds := rfl
@[simp] theorem State.setSelf_sems (s : State) (x : Ctx) : (s.setSelf x).sems = s.sems := rfl
@[simp] theorem State.setSelf_groups (s : State) (x : Ctx) : (s.setSelf x).groups = s.groups := rfl
@[simp] theorem State.setSelf_tenants (s : State) (x : Ctx) : (s.setSelf x).tenants = s.tenants := rfl
@[simp] theorem State.setSelf_fwTraps (s : State) (x : Ctx) : (s.setSelf x).fwTraps = s.fwTraps := rfl
@[simp] theorem State.setSelf_contain (s : State) (x : Ctx) : (s.setSelf x).contain = s.contain := rfl
@[simp] theorem State.setSelf_regions (s : State) (x : Ctx) : (s.setSelf x).regions = s.regions := rfl
@[simp] theorem State.setSelf_settab (s : State) (x : Ctx) : (s.setSelf x).settab = s.settab := rfl
@[simp] theorem State.setSelf_mapgen (s : State) (x : Ctx) : (s.setSelf x).mapgen = s.mapgen := rfl
@[simp] theorem State.setSelf_linear (s : State) (x : Ctx) : (s.setSelf x).linear = s.linear := rfl
@[simp] theorem State.setSelf_tiles (s : State) (x : Ctx) : (s.setSelf x).tiles = s.tiles := rfl
@[simp] theorem State.setSelf_journal (s : State) (x : Ctx) : (s.setSelf x).journal = s.journal := rfl
@[simp] theorem State.setSelf_jsize (s : State) (x : Ctx) : (s.setSelf x).jsize = s.jsize := rfl
@[simp] theorem State.setSelf_jhigh (s : State) (x : Ctx) : (s.setSelf x).jhigh = s.jhigh := rfl
@[simp] theorem State.setSelf_stalls (s : State) (x : Ctx) : (s.setSelf x).stalls = s.stalls := rfl
@[simp] theorem State.setSelf_ivals (s : State) (x : Ctx) : (s.setSelf x).ivals = s.ivals := rfl
@[simp] theorem State.setSelf_ckpts (s : State) (x : Ctx) : (s.setSelf x).ckpts = s.ckpts := rfl
@[simp] theorem State.setSelf_berr (s : State) (x : Ctx) : (s.setSelf x).berr = s.berr := rfl
@[simp] theorem State.setSelf_launches (s : State) (x : Ctx) : (s.setSelf x).launches = s.launches := rfl
@[simp] theorem State.setSelf_history (s : State) (x : Ctx) : (s.setSelf x).history = s.history := rfl
@[simp] theorem State.setSelf_rotate (s : State) (x : Ctx) : (s.setSelf x).rotate = s.rotate := rfl
@[simp] theorem State.setSelf_arrays (s : State) (x : Ctx) : (s.setSelf x).arrays = s.arrays := rfl
@[simp] theorem State.setSelf_moving (s : State) (x : Ctx) : (s.setSelf x).moving = s.moving := rfl
@[simp] theorem State.setSelf_diffused (s : State) (x : Ctx) : (s.setSelf x).diffused = s.diffused := rfl
@[simp] theorem State.setSelf_filters (s : State) (x : Ctx) : (s.setSelf x).filters = s.filters := rfl
@[simp] theorem State.setSelf_cancels (s : State) (x : Ctx) : (s.setSelf x).cancels = s.cancels := rfl
@[simp] theorem State.setSelf_peers (s : State) (x : Ctx) : (s.setSelf x).peers = s.peers := rfl
@[simp] theorem State.setSelf_notices (s : State) (x : Ctx) : (s.setSelf x).notices = s.notices := rfl
@[simp] theorem State.setSelf_lends (s : State) (x : Ctx) : (s.setSelf x).lends = s.lends := rfl
@[simp] theorem State.setSelf_expiry (s : State) (x : Ctx) : (s.setSelf x).expiry = s.expiry := rfl
@[simp] theorem State.setSelf_images (s : State) (x : Ctx) : (s.setSelf x).images = s.images := rfl
@[simp] theorem State.setSelf_fw (s : State) (x : Ctx) : (s.setSelf x).fw = s.fw := rfl
@[simp] theorem State.setSelf_ports (s : State) (x : Ctx) : (s.setSelf x).ports = s.ports := rfl
@[simp] theorem State.setSelf_einj (s : State) (x : Ctx) : (s.setSelf x).einj = s.einj := rfl
@[simp] theorem State.setSelf_invs (s : State) (x : Ctx) : (s.setSelf x).invs = s.invs := rfl
@[simp] theorem State.setSelf_micro (s : State) (x : Ctx) : (s.setSelf x).micro = s.micro := rfl
@[simp] theorem State.setSelf_entries (s : State) (x : Ctx) : (s.setSelf x).entries = s.entries := rfl
@[simp] theorem State.setSelf_pages (s : State) (x : Ctx) : (s.setSelf x).pages = s.pages := rfl
@[simp] theorem State.setSelf_pdcs (s : State) (x : Ctx) : (s.setSelf x).pdcs = s.pdcs := rfl
@[simp] theorem State.setSelf_pdcWait (s : State) (x : Ctx) : (s.setSelf x).pdcWait = s.pdcWait := rfl
@[simp] theorem State.setSelf_sendNo (s : State) (x : Ctx) : (s.setSelf x).sendNo = s.sendNo := rfl
@[simp] theorem State.setSelf_heard (s : State) (x : Ctx) : (s.setSelf x).heard = s.heard := rfl
@[simp] theorem State.setSelf_arrivals (s : State) (x : Ctx) : (s.setSelf x).arrivals = s.arrivals := rfl
@[simp] theorem State.setSelf_lost (s : State) (x : Ctx) : (s.setSelf x).lost = s.lost := rfl
@[simp] theorem State.setSelf_told (s : State) (x : Ctx) : (s.setSelf x).told = s.told := rfl
@[simp] theorem State.setSelf_colls (s : State) (x : Ctx) : (s.setSelf x).colls = s.colls := rfl
@[simp] theorem State.setSelf_births (s : State) (x : Ctx) : (s.setSelf x).births = s.births := rfl
@[simp] theorem State.setSelf_uud (s : State) (x : Ctx) : (s.setSelf x).uud = s.uud := rfl
@[simp] theorem State.setSelf_mesh (s : State) (x : Ctx) : (s.setSelf x).mesh = s.mesh := rfl
@[simp] theorem State.setSelf_meshOut (s : State) (x : Ctx) : (s.setSelf x).meshOut = s.meshOut := rfl
@[simp] theorem State.setSelf_slew (s : State) (x : Ctx) : (s.setSelf x).slew = s.slew := rfl
@[simp] theorem State.setSelf_slewAcc (s : State) (x : Ctx) : (s.setSelf x).slewAcc = s.slewAcc := rfl
@[simp] theorem State.setSelf_timeSent (s : State) (x : Ctx) : (s.setSelf x).timeSent = s.timeSent := rfl
@[simp] theorem State.setSelf_joined (s : State) (x : Ctx) : (s.setSelf x).joined = s.joined := rfl
@[simp] theorem State.setSelf_mapJob (s : State) (x : Ctx) : (s.setSelf x).mapJob = s.mapJob := rfl
@[simp] theorem State.setSelf_mapWait (s : State) (x : Ctx) : (s.setSelf x).mapWait = s.mapWait := rfl
@[simp] theorem State.setSelf_mapQueue (s : State) (x : Ctx) : (s.setSelf x).mapQueue = s.mapQueue := rfl
@[simp] theorem State.setSelf_mapLast (s : State) (x : Ctx) : (s.setSelf x).mapLast = s.mapLast := rfl
@[simp] theorem State.setSelf_draining (s : State) (x : Ctx) : (s.setSelf x).draining = s.draining := rfl
@[simp] theorem State.setSelf_hostOps (s : State) (x : Ctx) : (s.setSelf x).hostOps = s.hostOps := rfl
@[simp] theorem State.setSelf_asking (s : State) (x : Ctx) : (s.setSelf x).asking = s.asking := rfl
@[simp] theorem State.setSelf_asks (s : State) (x : Ctx) : (s.setSelf x).asks = s.asks := rfl
@[simp] theorem State.parkMe_power (s : State) (p : Park) : (s.parkMe p).power = s.power := rfl
@[simp] theorem State.parkMe_cube (s : State) (p : Park) : (s.parkMe p).cube = s.cube := rfl
@[simp] theorem State.parkMe_time (s : State) (p : Park) : (s.parkMe p).time = s.time := rfl
@[simp] theorem State.parkMe_cycle (s : State) (p : Park) : (s.parkMe p).cycle = s.cycle := rfl
@[simp] theorem State.parkMe_free (s : State) (p : Park) : (s.parkMe p).free = s.free := rfl
@[simp] theorem State.parkMe_nid (s : State) (p : Park) : (s.parkMe p).nid = s.nid := rfl
@[simp] theorem State.parkMe_cur (s : State) (p : Park) : (s.parkMe p).cur = s.cur := rfl
@[simp] theorem State.parkMe_arg (s : State) (p : Park) : (s.parkMe p).arg = s.arg := rfl
@[simp] theorem State.parkMe_inputs (s : State) (p : Park) : (s.parkMe p).inputs = s.inputs := rfl
@[simp] theorem State.parkMe_outbox (s : State) (p : Park) : (s.parkMe p).outbox = s.outbox := rfl
@[simp] theorem State.parkMe_mem (s : State) (p : Park) : (s.parkMe p).mem = s.mem := rfl
@[simp] theorem State.parkMe_ecc (s : State) (p : Park) : (s.parkMe p).ecc = s.ecc := rfl
@[simp] theorem State.parkMe_bad (s : State) (p : Park) : (s.parkMe p).bad = s.bad := rfl
@[simp] theorem State.parkMe_cores (s : State) (p : Park) : (s.parkMe p).cores = s.cores := rfl
@[simp] theorem State.parkMe_ctrs (s : State) (p : Park) : (s.parkMe p).ctrs = s.ctrs := rfl
@[simp] theorem State.parkMe_stored (s : State) (p : Park) : (s.parkMe p).stored = s.stored := rfl
@[simp] theorem State.parkMe_nt (s : State) (p : Park) : (s.parkMe p).nt = s.nt := rfl
@[simp] theorem State.parkMe_queues (s : State) (p : Park) : (s.parkMe p).queues = s.queues := rfl
@[simp] theorem State.parkMe_chains (s : State) (p : Park) : (s.parkMe p).chains = s.chains := rfl
@[simp] theorem State.parkMe_tlbs (s : State) (p : Park) : (s.parkMe p).tlbs = s.tlbs := rfl
@[simp] theorem State.parkMe_walks (s : State) (p : Park) : (s.parkMe p).walks = s.walks := rfl
@[simp] theorem State.parkMe_reqs (s : State) (p : Park) : (s.parkMe p).reqs = s.reqs := rfl
@[simp] theorem State.parkMe_net (s : State) (p : Park) : (s.parkMe p).net = s.net := rfl
@[simp] theorem State.parkMe_vbanks (s : State) (p : Park) : (s.parkMe p).vbanks = s.vbanks := rfl
@[simp] theorem State.parkMe_vops (s : State) (p : Park) : (s.parkMe p).vops = s.vops := rfl
@[simp] theorem State.parkMe_reps (s : State) (p : Park) : (s.parkMe p).reps = s.reps := rfl
@[simp] theorem State.parkMe_cmds (s : State) (p : Park) : (s.parkMe p).cmds = s.cmds := rfl
@[simp] theorem State.parkMe_sems (s : State) (p : Park) : (s.parkMe p).sems = s.sems := rfl
@[simp] theorem State.parkMe_groups (s : State) (p : Park) : (s.parkMe p).groups = s.groups := rfl
@[simp] theorem State.parkMe_tenants (s : State) (p : Park) : (s.parkMe p).tenants = s.tenants := rfl
@[simp] theorem State.parkMe_fwTraps (s : State) (p : Park) : (s.parkMe p).fwTraps = s.fwTraps := rfl
@[simp] theorem State.parkMe_contain (s : State) (p : Park) : (s.parkMe p).contain = s.contain := rfl
@[simp] theorem State.parkMe_regions (s : State) (p : Park) : (s.parkMe p).regions = s.regions := rfl
@[simp] theorem State.parkMe_settab (s : State) (p : Park) : (s.parkMe p).settab = s.settab := rfl
@[simp] theorem State.parkMe_mapgen (s : State) (p : Park) : (s.parkMe p).mapgen = s.mapgen := rfl
@[simp] theorem State.parkMe_linear (s : State) (p : Park) : (s.parkMe p).linear = s.linear := rfl
@[simp] theorem State.parkMe_tiles (s : State) (p : Park) : (s.parkMe p).tiles = s.tiles := rfl
@[simp] theorem State.parkMe_journal (s : State) (p : Park) : (s.parkMe p).journal = s.journal := rfl
@[simp] theorem State.parkMe_jsize (s : State) (p : Park) : (s.parkMe p).jsize = s.jsize := rfl
@[simp] theorem State.parkMe_jhigh (s : State) (p : Park) : (s.parkMe p).jhigh = s.jhigh := rfl
@[simp] theorem State.parkMe_stalls (s : State) (p : Park) : (s.parkMe p).stalls = s.stalls := rfl
@[simp] theorem State.parkMe_ivals (s : State) (p : Park) : (s.parkMe p).ivals = s.ivals := rfl
@[simp] theorem State.parkMe_ckpts (s : State) (p : Park) : (s.parkMe p).ckpts = s.ckpts := rfl
@[simp] theorem State.parkMe_berr (s : State) (p : Park) : (s.parkMe p).berr = s.berr := rfl
@[simp] theorem State.parkMe_launches (s : State) (p : Park) : (s.parkMe p).launches = s.launches := rfl
@[simp] theorem State.parkMe_history (s : State) (p : Park) : (s.parkMe p).history = s.history := rfl
@[simp] theorem State.parkMe_rotate (s : State) (p : Park) : (s.parkMe p).rotate = s.rotate := rfl
@[simp] theorem State.parkMe_arrays (s : State) (p : Park) : (s.parkMe p).arrays = s.arrays := rfl
@[simp] theorem State.parkMe_moving (s : State) (p : Park) : (s.parkMe p).moving = s.moving := rfl
@[simp] theorem State.parkMe_diffused (s : State) (p : Park) : (s.parkMe p).diffused = s.diffused := rfl
@[simp] theorem State.parkMe_filters (s : State) (p : Park) : (s.parkMe p).filters = s.filters := rfl
@[simp] theorem State.parkMe_cancels (s : State) (p : Park) : (s.parkMe p).cancels = s.cancels := rfl
@[simp] theorem State.parkMe_peers (s : State) (p : Park) : (s.parkMe p).peers = s.peers := rfl
@[simp] theorem State.parkMe_notices (s : State) (p : Park) : (s.parkMe p).notices = s.notices := rfl
@[simp] theorem State.parkMe_lends (s : State) (p : Park) : (s.parkMe p).lends = s.lends := rfl
@[simp] theorem State.parkMe_expiry (s : State) (p : Park) : (s.parkMe p).expiry = s.expiry := rfl
@[simp] theorem State.parkMe_images (s : State) (p : Park) : (s.parkMe p).images = s.images := rfl
@[simp] theorem State.parkMe_fw (s : State) (p : Park) : (s.parkMe p).fw = s.fw := rfl
@[simp] theorem State.parkMe_ports (s : State) (p : Park) : (s.parkMe p).ports = s.ports := rfl
@[simp] theorem State.parkMe_einj (s : State) (p : Park) : (s.parkMe p).einj = s.einj := rfl
@[simp] theorem State.parkMe_invs (s : State) (p : Park) : (s.parkMe p).invs = s.invs := rfl
@[simp] theorem State.parkMe_micro (s : State) (p : Park) : (s.parkMe p).micro = s.micro := rfl
@[simp] theorem State.parkMe_entries (s : State) (p : Park) : (s.parkMe p).entries = s.entries := rfl
@[simp] theorem State.parkMe_pages (s : State) (p : Park) : (s.parkMe p).pages = s.pages := rfl
@[simp] theorem State.parkMe_pdcs (s : State) (p : Park) : (s.parkMe p).pdcs = s.pdcs := rfl
@[simp] theorem State.parkMe_pdcWait (s : State) (p : Park) : (s.parkMe p).pdcWait = s.pdcWait := rfl
@[simp] theorem State.parkMe_sendNo (s : State) (p : Park) : (s.parkMe p).sendNo = s.sendNo := rfl
@[simp] theorem State.parkMe_heard (s : State) (p : Park) : (s.parkMe p).heard = s.heard := rfl
@[simp] theorem State.parkMe_arrivals (s : State) (p : Park) : (s.parkMe p).arrivals = s.arrivals := rfl
@[simp] theorem State.parkMe_lost (s : State) (p : Park) : (s.parkMe p).lost = s.lost := rfl
@[simp] theorem State.parkMe_told (s : State) (p : Park) : (s.parkMe p).told = s.told := rfl
@[simp] theorem State.parkMe_colls (s : State) (p : Park) : (s.parkMe p).colls = s.colls := rfl
@[simp] theorem State.parkMe_births (s : State) (p : Park) : (s.parkMe p).births = s.births := rfl
@[simp] theorem State.parkMe_uud (s : State) (p : Park) : (s.parkMe p).uud = s.uud := rfl
@[simp] theorem State.parkMe_mesh (s : State) (p : Park) : (s.parkMe p).mesh = s.mesh := rfl
@[simp] theorem State.parkMe_meshOut (s : State) (p : Park) : (s.parkMe p).meshOut = s.meshOut := rfl
@[simp] theorem State.parkMe_slew (s : State) (p : Park) : (s.parkMe p).slew = s.slew := rfl
@[simp] theorem State.parkMe_slewAcc (s : State) (p : Park) : (s.parkMe p).slewAcc = s.slewAcc := rfl
@[simp] theorem State.parkMe_timeSent (s : State) (p : Park) : (s.parkMe p).timeSent = s.timeSent := rfl
@[simp] theorem State.parkMe_joined (s : State) (p : Park) : (s.parkMe p).joined = s.joined := rfl
@[simp] theorem State.parkMe_mapJob (s : State) (p : Park) : (s.parkMe p).mapJob = s.mapJob := rfl
@[simp] theorem State.parkMe_mapWait (s : State) (p : Park) : (s.parkMe p).mapWait = s.mapWait := rfl
@[simp] theorem State.parkMe_mapQueue (s : State) (p : Park) : (s.parkMe p).mapQueue = s.mapQueue := rfl
@[simp] theorem State.parkMe_mapLast (s : State) (p : Park) : (s.parkMe p).mapLast = s.mapLast := rfl
@[simp] theorem State.parkMe_draining (s : State) (p : Park) : (s.parkMe p).draining = s.draining := rfl
@[simp] theorem State.parkMe_hostOps (s : State) (p : Park) : (s.parkMe p).hostOps = s.hostOps := rfl
@[simp] theorem State.parkMe_asking (s : State) (p : Park) : (s.parkMe p).asking = s.asking := rfl
@[simp] theorem State.parkMe_asks (s : State) (p : Park) : (s.parkMe p).asks = s.asks := rfl

end Sys2Proof.Machine
end

