-- ==== Sys2Proof/Laws/Issue.lean ====
section
/-! SUPPORT. Issue and completion, said once: an instruction whose registers let it issue runs, and what writing, popping and completing change. -/

namespace Sys2Proof.Machine

theorem find?_none_of_all {α : Type} {p : α → Bool} {l : List α} (h : l.all (fun x => !p x) = true) : l.find? p = none := by
  rw [List.find?_eq_none]
  intro x hx
  have := List.all_eq_true.mp h x hx
  simpa using this

theorem ite_of_not {α : Type} {b : Bool} {x y : α} (h : b = false) : (if b then x else y) = y := by simp [h]

/-- The parts of `issues`. -/
theorem State.issues_parts {s : State} {u : Use} (h : s.issues u = true) :
    (∀ q ∈ u.srcs, s.srcReady q = true) ∧ (∀ q ∈ u.fixed, s.fixedReady q = true)
      ∧ (∀ d ∈ u.dsts, s.dstReady d = true) ∧ (∀ d ∈ u.dstsFixed, s.dstFixedReady d = true)
      ∧ portTwice (u.sources.map (·.1.val) ++ u.dests.map (·.val)) = none
      ∧ (s.self.home.isSome && u.usesPort) = false := by
  simp only [State.issues, Bool.and_eq_true, List.all_eq_true, Option.isNone_iff_eq_none, Bool.or_eq_true, Bool.not_eq_true'] at h
  obtain ⟨⟨⟨⟨⟨h1, h2⟩, h3⟩, h4⟩, h5⟩, h6⟩ := h
  refine ⟨h1, h2, h3, h4, h5, ?_⟩
  rcases h6 with h6 | h6
  · simp [h6]
  · simp [h6]

theorem State.srcReady_parts {s : State} {q : Reg × Bool} (h : s.srcReady q = true) :
    heldWrite s s.me q.1.val = false ∧ (isPort q.1.val = true → portReadable s q.1.val = true ∧ q.2 = false
        ∧ (s.portHead q.1.val).any (fun e => e.filled && !e.poison) = true)
      ∧ (isPort q.1.val = false → (s.self.cell q.1.val).st = .full ∧ (s.self.cell q.1.val).poison = false) := by
  simp only [State.srcReady, Bool.and_eq_true, Bool.not_eq_true'] at h
  refine ⟨h.1, fun hp => ?_, fun hp => ?_⟩
  · have := h.2; simpa [hp, and_assoc] using this
  · have := h.2; simpa [hp] using this

theorem any_filled {o : Option QEnt} (h : o.any (fun e => e.filled && !e.poison) = true) :
    o.any (·.filled) = true ∧ o.any (·.poison) = false := by
  cases o with
  | none => simp at h
  | some e => simpa using h

theorem State.sources_ready {s : State} {u : Use} (h : s.issues u = true) (q : Reg × Bool) (hq : q ∈ u.sources) :
    s.srcReady q = true := by
  obtain ⟨h1, h2, _⟩ := State.issues_parts h
  rcases List.mem_append.mp hq with hq | hq
  · exact h1 q hq
  · have := h2 q hq
    simp only [State.fixedReady, Bool.and_eq_true] at this
    exact this.2

theorem State.dests_ready {s : State} {u : Use} (h : s.issues u = true) (d : Reg) (hd : d ∈ u.dests) : s.dstReady d = true := by
  obtain ⟨_, _, h3, h4, _⟩ := State.issues_parts h
  rcases List.mem_append.mp hd with hd | hd
  · exact h3 d hd
  · have := h4 d hd
    simp only [State.dstFixedReady, Bool.and_eq_true] at this
    exact this.2

theorem State.dstReady_plain {s : State} {d : Reg} (h : s.dstReady d = true) (hp : isPort d.val = false) :
    (s.self.cell d.val).st ≠ .pending ∧ heldWrite s s.me d.val = false ∧ heldRead s s.me d.val = false := by
  have h61 : d.val ≠ 61 := by intro e; simp [isPort, e] at hp
  have h63 : d.val ≠ 63 := by intro e; simp [isPort, e] at hp
  simp only [State.dstReady, h61, h63, if_false, hp, Bool.not_false, Bool.true_and, Bool.and_eq_true, bne_iff_ne, Bool.not_eq_true'] at h
  exact ⟨h.1.1, h.1.2, h.2⟩

theorem State.dstReady_port {s : State} {d : Reg} (h : s.dstReady d = true) (hp : isPort d.val = true) :
    portWritable s d.val = true
      ∧ ((d.val == 61 && decide (32 ≤ (s.pinQ s.poutKey).length)) || (d.val == 63 && decide (16 ≤ (s.upQ s.dnKey).length))) = false := by
  unfold State.dstReady at h
  split at h
  · next e =>
    simp only [Bool.and_eq_true, decide_eq_true_eq] at h
    refine ⟨by rw [e]; exact h.1, ?_⟩
    simp only [e]; simpa using h.2
  · split at h
    · next e =>
      simp only [Bool.and_eq_true, decide_eq_true_eq] at h
      refine ⟨by rw [e]; exact h.1, ?_⟩
      simp only [e]; simpa using h.2
    · simp [hp] at h

theorem Use.waits_none {s : State} {u : Use} (h : s.issues u = true) : u.waits s = none := by
  simp only [Use.waits]
  rw [find?_none_of_all, find?_none_of_all, find?_none_of_all]
  · rw [List.all_eq_true]
    intro d hd
    have := State.dests_ready h d hd
    cases hp : isPort d.val with
    | true => simp
    | false =>
      obtain ⟨h1, h2, h3⟩ := State.dstReady_plain this hp
      simp [h1, h2, h3]
  · rw [List.all_eq_true]
    intro q hq
    obtain ⟨_, h2, h3⟩ := State.srcReady_parts (State.sources_ready h q hq)
    cases hp : isPort q.1.val with
    | true => simp
    | false => simp [(h3 hp).1]
  · rw [List.all_eq_true]
    intro q hq
    simp [(State.srcReady_parts (State.sources_ready h q hq)).1]

theorem Use.portFault_none {s : State} {u : Use} (h : s.issues u = true) : u.portFault s = none := by
  obtain ⟨h1, h2, h3, h4, h5, _⟩ := State.issues_parts h
  unfold Use.portFault
  rw [find?_none_of_all, find?_none_of_all, find?_none_of_all, find?_none_of_all]
  · exact h5
  · rw [List.all_eq_true]
    intro d hd
    cases hp : isPort d.val with
    | true => simp [(State.dstReady_port (h3 d hd) hp).1]
    | false => simp
  · rw [List.all_eq_true]
    intro q hq
    cases hp : isPort q.1.val with
    | true =>
      obtain ⟨ha, hb, _⟩ := (State.srcReady_parts (h1 q hq)).2.1 hp
      simp [ha, hb]
    | false => simp
  · rw [List.all_eq_true]
    intro d hd
    have := h4 d hd
    simp only [State.dstFixedReady, Bool.and_eq_true, Bool.not_eq_true'] at this
    simp [this.1]
  · rw [List.all_eq_true]
    intro q hq
    have := h2 q hq
    simp only [State.fixedReady, Bool.and_eq_true, Bool.not_eq_true'] at this
    simp [this.1]

theorem Use.queueWait_none {s : State} {u : Use} (h : s.issues u = true) : u.queueWait s = none := by
  obtain ⟨h1, _, h3, _⟩ := State.issues_parts h
  unfold Use.queueWait
  rw [find?_none_of_all, find?_none_of_all]
  · rw [List.all_eq_true]
    intro d hd
    cases hp : isPort d.val with
    | true => rw [(State.dstReady_port (h3 d hd) hp).2]; rfl
    | false =>
      have h61 : (d.val == 61) = false := by
        simp only [beq_eq_false_iff_ne]; intro e; simp [isPort, e] at hp
      have h63 : (d.val == 63) = false := by
        simp only [beq_eq_false_iff_ne]; intro e; simp [isPort, e] at hp
      rw [h61, h63]; rfl
  · rw [List.all_eq_true]
    intro q hq
    cases hp : isPort q.1.val with
    | true =>
      obtain ⟨_, _, hc⟩ := (State.srcReady_parts (h1 q hq)).2.1 hp
      simp [(any_filled hc).1]
    | false => simp

theorem Use.emptyFault_none {s : State} {u : Use} (h : s.issues u = true) : u.emptyFault s = none := by
  unfold Use.emptyFault
  rw [find?_none_of_all]; rfl
  rw [List.all_eq_true]
  intro q hq
  obtain ⟨_, h2, h3⟩ := State.srcReady_parts (State.sources_ready h q hq)
  cases hp : isPort q.1.val with
  | true => simp
  | false => simp [(h3 hp).1]

theorem Use.poisonStop_none {s : State} {u : Use} (h : s.issues u = true) : u.poisonStop s = none := by
  unfold Use.poisonStop
  rw [find?_none_of_all]
  rw [List.all_eq_true]
  intro q hq
  obtain ⟨_, h2, h3⟩ := State.srcReady_parts (State.sources_ready h q hq)
  cases hp : isPort q.1.val with
  | true =>
    obtain ⟨_, _, hc⟩ := h2 hp
    simp [State.marked, hp, (any_filled hc).2]
  | false => simp [State.marked, hp, (h3 hp).2]

/-- An instruction whose registers let it issue goes on (R25). -/
theorem State.issueWith_go {s : State} {u : Use} (h : s.issues u = true) (k : State) : s.issueWith u none k = k := by
  have h6 := (State.issues_parts h).2.2.2.2.2
  simp [State.issueWith, Use.waits_none h, h6, Use.portFault_none h, Use.queueWait_none h, Use.emptyFault_none h, Use.poisonStop_none h]

theorem State.issue_go {s : State} {u : Use} (h : s.issues u = true) (k : State) : s.issue u k = k := State.issueWith_go h k

theorem State.issueVal_go {s : State} {u : Use} (h : s.issues u = true) (i : Instr) (rs : List Reg) (k : State) :
    s.issueVal i u rs false k = k := by simp [State.issueVal, State.issueWith_go h]

/-- An operand value without the stated form traps ILLEGAL with tsub 0x0D (R25, R61). -/
theorem State.issueVal_bad {s : State} {u : Use} (h : s.issues u = true) (i : Instr) (rs : List Reg) (k : State) :
    s.issueVal i u rs true k = s.trap 0x01 0x0D (illegalValue i).val := by
  have h6 := (State.issues_parts h).2.2.2.2.2
  unfold State.issueVal
  simp only [Bool.and_true, if_true]
  cases hr : s.readable rs with
  | false => simp [State.issueWith_go h]
  | true => simp [State.issueWith, Use.waits_none h, h6, illegalValue]

/-- An early condition traps, once the registers let the instruction issue (R25). -/
theorem State.issueWith_early {s : State} {u : Use} (h : s.issues u = true) (c : Cond) (k : State) :
    s.issueWith u (some c) k = s.trap c.cause c.sub c.val := by
  have h6 := (State.issues_parts h).2.2.2.2.2
  simp [State.issueWith, Use.waits_none h, h6]

/-- The running context after it has been replaced. -/
@[simp] theorem State.self_setSelf (s : State) (x : Ctx) : (s.setSelf x).self = x := by
  simp [State.self, State.setSelf, State.me]

/-- Another context after the running one has been replaced. -/
theorem State.ctx_setSelf_ne (s : State) (x : Ctx) (k : Nat) (h : k ≠ s.me) : (s.setSelf x).ctx k = s.ctx k :=
  State.ctx_setCtx_ne s s.me k x h

end Sys2Proof.Machine
end

