-- ==== Sys2Proof/Laws/PerInstr.lean ====
section
/-! SUPPORT. What holds of every instruction as a term, one lemma for each constructor: how many words it has. -/

namespace Sys2Proof.Laws.WordCount

/-- An instruction has one word, a command eight, and an event none (R35, R56). -/
def Statement (i : Instr) : Prop := (encode i).length = 0 ∨ (encode i).length = 1 ∨ (encode i).length = 8

theorem add (d : Reg) (a : Reg) (b : Reg) (t : Bool) (u : Bool) : Statement (.add d a b t u) := .inr (.inl rfl)
theorem sub (d : Reg) (a : Reg) (b : Reg) (t : Bool) (u : Bool) : Statement (.sub d a b t u) := .inr (.inl rfl)
theorem and (d : Reg) (a : Reg) (b : Reg) (t : Bool) (u : Bool) : Statement (.and d a b t u) := .inr (.inl rfl)
theorem or (d : Reg) (a : Reg) (b : Reg) (t : Bool) (u : Bool) : Statement (.or d a b t u) := .inr (.inl rfl)
theorem xor (d : Reg) (a : Reg) (b : Reg) (t : Bool) (u : Bool) : Statement (.xor d a b t u) := .inr (.inl rfl)
theorem andn (d : Reg) (a : Reg) (b : Reg) (t : Bool) (u : Bool) : Statement (.andn d a b t u) := .inr (.inl rfl)
theorem orn (d : Reg) (a : Reg) (b : Reg) (t : Bool) (u : Bool) : Statement (.orn d a b t u) := .inr (.inl rfl)
theorem shl (d : Reg) (a : Reg) (b : Reg) (t : Bool) (u : Bool) : Statement (.shl d a b t u) := .inr (.inl rfl)
theorem shr (d : Reg) (a : Reg) (b : Reg) (t : Bool) (u : Bool) : Statement (.shr d a b t u) := .inr (.inl rfl)
theorem sra (d : Reg) (a : Reg) (b : Reg) (t : Bool) (u : Bool) : Statement (.sra d a b t u) := .inr (.inl rfl)
theorem rol (d : Reg) (a : Reg) (b : Reg) (t : Bool) (u : Bool) : Statement (.rol d a b t u) := .inr (.inl rfl)
theorem ror (d : Reg) (a : Reg) (b : Reg) (t : Bool) (u : Bool) : Statement (.ror d a b t u) := .inr (.inl rfl)
theorem mul (d : Reg) (a : Reg) (b : Reg) (t : Bool) (u : Bool) : Statement (.mul d a b t u) := .inr (.inl rfl)
theorem mulh (d : Reg) (a : Reg) (b : Reg) (t : Bool) (u : Bool) : Statement (.mulh d a b t u) := .inr (.inl rfl)
theorem mulhu (d : Reg) (a : Reg) (b : Reg) (t : Bool) (u : Bool) : Statement (.mulhu d a b t u) := .inr (.inl rfl)
theorem mulhsu (d : Reg) (a : Reg) (b : Reg) (t : Bool) (u : Bool) : Statement (.mulhsu d a b t u) := .inr (.inl rfl)
theorem div (d : Reg) (a : Reg) (b : Reg) (t : Bool) (u : Bool) : Statement (.div d a b t u) := .inr (.inl rfl)
theorem divu (d : Reg) (a : Reg) (b : Reg) (t : Bool) (u : Bool) : Statement (.divu d a b t u) := .inr (.inl rfl)
theorem rem (d : Reg) (a : Reg) (b : Reg) (t : Bool) (u : Bool) : Statement (.rem d a b t u) := .inr (.inl rfl)
theorem remu (d : Reg) (a : Reg) (b : Reg) (t : Bool) (u : Bool) : Statement (.remu d a b t u) := .inr (.inl rfl)
theorem min (d : Reg) (a : Reg) (b : Reg) (t : Bool) (u : Bool) : Statement (.min d a b t u) := .inr (.inl rfl)
theorem max (d : Reg) (a : Reg) (b : Reg) (t : Bool) (u : Bool) : Statement (.max d a b t u) := .inr (.inl rfl)
theorem minu (d : Reg) (a : Reg) (b : Reg) (t : Bool) (u : Bool) : Statement (.minu d a b t u) := .inr (.inl rfl)
theorem maxu (d : Reg) (a : Reg) (b : Reg) (t : Bool) (u : Bool) : Statement (.maxu d a b t u) := .inr (.inl rfl)
theorem slt (d : Reg) (a : Reg) (b : Reg) (t : Bool) (u : Bool) : Statement (.slt d a b t u) := .inr (.inl rfl)
theorem sltu (d : Reg) (a : Reg) (b : Reg) (t : Bool) (u : Bool) : Statement (.sltu d a b t u) := .inr (.inl rfl)
theorem seq (d : Reg) (a : Reg) (b : Reg) (t : Bool) (u : Bool) : Statement (.seq d a b t u) := .inr (.inl rfl)
theorem sne (d : Reg) (a : Reg) (b : Reg) (t : Bool) (u : Bool) : Statement (.sne d a b t u) := .inr (.inl rfl)
theorem clz (d : Reg) (a : Reg) (t : Bool) : Statement (.clz d a t) := .inr (.inl rfl)
theorem ctz (d : Reg) (a : Reg) (t : Bool) : Statement (.ctz d a t) := .inr (.inl rfl)
theorem popc (d : Reg) (a : Reg) (t : Bool) : Statement (.popc d a t) := .inr (.inl rfl)
theorem bswap (d : Reg) (a : Reg) (t : Bool) : Statement (.bswap d a t) := .inr (.inl rfl)
theorem brev (d : Reg) (a : Reg) (t : Bool) : Statement (.brev d a t) := .inr (.inl rfl)
theorem sel (d : Reg) (a : Reg) (b : Reg) (t : Bool) (u : Bool) : Statement (.sel d a b t u) := .inr (.inl rfl)
theorem sextB (d : Reg) (a : Reg) (t : Bool) : Statement (.sextB d a t) := .inr (.inl rfl)
theorem sextH (d : Reg) (a : Reg) (t : Bool) : Statement (.sextH d a t) := .inr (.inl rfl)
theorem sextW (d : Reg) (a : Reg) (t : Bool) : Statement (.sextW d a t) := .inr (.inl rfl)
theorem zextB (d : Reg) (a : Reg) (t : Bool) : Statement (.zextB d a t) := .inr (.inl rfl)
theorem zextH (d : Reg) (a : Reg) (t : Bool) : Statement (.zextH d a t) := .inr (.inl rfl)
theorem zextW (d : Reg) (a : Reg) (t : Bool) : Statement (.zextW d a t) := .inr (.inl rfl)
theorem mix (d : Reg) (a : Reg) (b : Reg) (t : Bool) (u : Bool) : Statement (.mix d a b t u) := .inr (.inl rfl)
theorem addi (d : Reg) (a : Reg) (t : Bool) (i : BitVec 13) : Statement (.addi d a t i) := .inr (.inl rfl)
theorem andi (d : Reg) (a : Reg) (t : Bool) (i : BitVec 13) : Statement (.andi d a t i) := .inr (.inl rfl)
theorem ori (d : Reg) (a : Reg) (t : Bool) (i : BitVec 13) : Statement (.ori d a t i) := .inr (.inl rfl)
theorem xori (d : Reg) (a : Reg) (t : Bool) (i : BitVec 13) : Statement (.xori d a t i) := .inr (.inl rfl)
theorem slti (d : Reg) (a : Reg) (t : Bool) (i : BitVec 13) : Statement (.slti d a t i) := .inr (.inl rfl)
theorem sltiu (d : Reg) (a : Reg) (t : Bool) (i : BitVec 13) : Statement (.sltiu d a t i) := .inr (.inl rfl)
theorem shli (d : Reg) (a : Reg) (t : Bool) (n : Fin 64) : Statement (.shli d a t n) := .inr (.inl rfl)
theorem shri (d : Reg) (a : Reg) (t : Bool) (n : Fin 64) : Statement (.shri d a t n) := .inr (.inl rfl)
theorem srai (d : Reg) (a : Reg) (t : Bool) (n : Fin 64) : Statement (.srai d a t n) := .inr (.inl rfl)
theorem roli (d : Reg) (a : Reg) (t : Bool) (n : Fin 64) : Statement (.roli d a t n) := .inr (.inl rfl)
theorem lui (d : Reg) (i : BitVec 20) : Statement (.lui d i) := .inr (.inl rfl)
theorem addpc (d : Reg) (i : BitVec 20) : Statement (.addpc d i) := .inr (.inl rfl)
theorem bfx (d : Reg) (a : Reg) (t : Bool) (l : Fin 64) (w : Fin 64) : Statement (.bfx d a t l w) := .inr (.inl rfl)
theorem bfi (d : Reg) (a : Reg) (t : Bool) (l : Fin 64) (w : Fin 64) : Statement (.bfi d a t l w) := .inr (.inl rfl)
theorem ldB (d : Reg) (a : Reg) (t : Bool) (o : BitVec 10) : Statement (.ldB d a t o) := .inr (.inl rfl)
theorem ldBu (d : Reg) (a : Reg) (t : Bool) (o : BitVec 10) : Statement (.ldBu d a t o) := .inr (.inl rfl)
theorem ldH (d : Reg) (a : Reg) (t : Bool) (o : BitVec 10) : Statement (.ldH d a t o) := .inr (.inl rfl)
theorem ldHu (d : Reg) (a : Reg) (t : Bool) (o : BitVec 10) : Statement (.ldHu d a t o) := .inr (.inl rfl)
theorem ldW (d : Reg) (a : Reg) (t : Bool) (o : BitVec 10) : Statement (.ldW d a t o) := .inr (.inl rfl)
theorem ldWu (d : Reg) (a : Reg) (t : Bool) (o : BitVec 10) : Statement (.ldWu d a t o) := .inr (.inl rfl)
theorem ldD (d : Reg) (a : Reg) (t : Bool) (o : BitVec 10) : Statement (.ldD d a t o) := .inr (.inl rfl)
theorem stB (d : Reg) (a : Reg) (t : Bool) (o : BitVec 10) : Statement (.stB d a t o) := .inr (.inl rfl)
theorem stH (d : Reg) (a : Reg) (t : Bool) (o : BitVec 10) : Statement (.stH d a t o) := .inr (.inl rfl)
theorem stW (d : Reg) (a : Reg) (t : Bool) (o : BitVec 10) : Statement (.stW d a t o) := .inr (.inl rfl)
theorem stD (d : Reg) (a : Reg) (t : Bool) (o : BitVec 10) : Statement (.stD d a t o) := .inr (.inl rfl)
theorem stNtB (d : Reg) (a : Reg) (t : Bool) (o : BitVec 10) : Statement (.stNtB d a t o) := .inr (.inl rfl)
theorem stNtH (d : Reg) (a : Reg) (t : Bool) (o : BitVec 10) : Statement (.stNtH d a t o) := .inr (.inl rfl)
theorem stNtW (d : Reg) (a : Reg) (t : Bool) (o : BitVec 10) : Statement (.stNtW d a t o) := .inr (.inl rfl)
theorem stNtD (d : Reg) (a : Reg) (t : Bool) (o : BitVec 10) : Statement (.stNtD d a t o) := .inr (.inl rfl)
theorem ldqW (a : Reg) (t : Bool) (o : BitVec 10) : Statement (.ldqW a t o) := .inr (.inl rfl)
theorem ldqD (a : Reg) (t : Bool) (o : BitVec 10) : Statement (.ldqD a t o) := .inr (.inl rfl)
theorem stqW (a : Reg) (t : Bool) (o : BitVec 10) : Statement (.stqW a t o) := .inr (.inl rfl)
theorem stqD (a : Reg) (t : Bool) (o : BitVec 10) : Statement (.stqD a t o) := .inr (.inl rfl)
theorem brEq (a : Reg) (b : Reg) (o : BitVec 11) : Statement (.brEq a b o) := .inr (.inl rfl)
theorem brNe (a : Reg) (b : Reg) (o : BitVec 11) : Statement (.brNe a b o) := .inr (.inl rfl)
theorem brLt (a : Reg) (b : Reg) (o : BitVec 11) : Statement (.brLt a b o) := .inr (.inl rfl)
theorem brGe (a : Reg) (b : Reg) (o : BitVec 11) : Statement (.brGe a b o) := .inr (.inl rfl)
theorem brLtu (a : Reg) (b : Reg) (o : BitVec 11) : Statement (.brLtu a b o) := .inr (.inl rfl)
theorem brGeu (a : Reg) (b : Reg) (o : BitVec 11) : Statement (.brGeu a b o) := .inr (.inl rfl)
theorem brBs (a : Reg) (n : Fin 64) (o : BitVec 11) : Statement (.brBs a n o) := .inr (.inl rfl)
theorem brBc (a : Reg) (n : Fin 64) (o : BitVec 11) : Statement (.brBc a n o) := .inr (.inl rfl)
theorem jal (d : Reg) (o : BitVec 20) : Statement (.jal d o) := .inr (.inl rfl)
theorem jalr (d : Reg) (a : Reg) (t : Bool) (i : BitVec 13) : Statement (.jalr d a t i) := .inr (.inl rfl)
theorem loopR (a : Reg) (t : Bool) (e : Fin 8192) : Statement (.loopR a t e) := .inr (.inl rfl)
theorem loopi (c : Fin 16384) (e : Fin 4096) : Statement (.loopi c e) := .inr (.inl rfl)
theorem repR (c : Reg) (l : Fin 16) (sx : Fin 16) (m : Fin 8) (w : Fin 4) (t : Bool) : Statement (.repR c l sx m w t) := .inr (.inl rfl)
theorem repI (n : Fin 64) (l : Fin 16) (sx : Fin 16) (m : Fin 8) (w : Fin 4) : Statement (.repI n l sx m w) := .inr (.inl rfl)
theorem fadd (d : Reg) (a : Reg) (b : Reg) (t : Bool) (u : Bool) : Statement (.fadd d a b t u) := .inr (.inl rfl)
theorem fsub (d : Reg) (a : Reg) (b : Reg) (t : Bool) (u : Bool) : Statement (.fsub d a b t u) := .inr (.inl rfl)
theorem fmul (d : Reg) (a : Reg) (b : Reg) (t : Bool) (u : Bool) : Statement (.fmul d a b t u) := .inr (.inl rfl)
theorem fdiv (d : Reg) (a : Reg) (b : Reg) (t : Bool) (u : Bool) : Statement (.fdiv d a b t u) := .inr (.inl rfl)
theorem fsqrt (d : Reg) (a : Reg) (t : Bool) : Statement (.fsqrt d a t) := .inr (.inl rfl)
theorem fma (d : Reg) (a : Reg) (b : Reg) (t : Bool) (u : Bool) : Statement (.fma d a b t u) := .inr (.inl rfl)
theorem fms (d : Reg) (a : Reg) (b : Reg) (t : Bool) (u : Bool) : Statement (.fms d a b t u) := .inr (.inl rfl)
theorem fmin (d : Reg) (a : Reg) (b : Reg) (t : Bool) (u : Bool) : Statement (.fmin d a b t u) := .inr (.inl rfl)
theorem fmax (d : Reg) (a : Reg) (b : Reg) (t : Bool) (u : Bool) : Statement (.fmax d a b t u) := .inr (.inl rfl)
theorem fneg (d : Reg) (a : Reg) (t : Bool) : Statement (.fneg d a t) := .inr (.inl rfl)
theorem fabs (d : Reg) (a : Reg) (t : Bool) : Statement (.fabs d a t) := .inr (.inl rfl)
theorem fclass (d : Reg) (a : Reg) (t : Bool) : Statement (.fclass d a t) := .inr (.inl rfl)
theorem fcmpEq (d : Reg) (a : Reg) (b : Reg) (t : Bool) (u : Bool) : Statement (.fcmpEq d a b t u) := .inr (.inl rfl)
theorem fcmpLt (d : Reg) (a : Reg) (b : Reg) (t : Bool) (u : Bool) : Statement (.fcmpLt d a b t u) := .inr (.inl rfl)
theorem fcmpLe (d : Reg) (a : Reg) (b : Reg) (t : Bool) (u : Bool) : Statement (.fcmpLe d a b t u) := .inr (.inl rfl)
theorem fcvtF32I64 (d : Reg) (a : Reg) (t : Bool) : Statement (.fcvtF32I64 d a t) := .inr (.inl rfl)
theorem fcvtI64F32 (d : Reg) (a : Reg) (t : Bool) : Statement (.fcvtI64F32 d a t) := .inr (.inl rfl)
theorem fcvtF32F16 (d : Reg) (a : Reg) (t : Bool) : Statement (.fcvtF32F16 d a t) := .inr (.inl rfl)
theorem fcvtF16F32 (d : Reg) (a : Reg) (t : Bool) : Statement (.fcvtF16F32 d a t) := .inr (.inl rfl)
theorem fcvtF32Bf16 (d : Reg) (a : Reg) (t : Bool) : Statement (.fcvtF32Bf16 d a t) := .inr (.inl rfl)
theorem fcvtBf16F32 (d : Reg) (a : Reg) (t : Bool) : Statement (.fcvtBf16F32 d a t) := .inr (.inl rfl)
theorem fcvtF32Tf8 (d : Reg) (a : Reg) (t : Bool) : Statement (.fcvtF32Tf8 d a t) := .inr (.inl rfl)
theorem fcvtTf8F32 (d : Reg) (a : Reg) (t : Bool) : Statement (.fcvtTf8F32 d a t) := .inr (.inl rfl)
theorem send (d : Reg) (a : Reg) (b : Reg) (t : Bool) (u : Bool) : Statement (.send d a b t u) := .inr (.inl rfl)
theorem spawn (d : Reg) (a : Reg) (b : Reg) (t : Bool) (u : Bool) : Statement (.spawn d a b t u) := .inr (.inl rfl)
theorem fill (d : Reg) (a : Reg) (b : Reg) (t : Bool) (u : Bool) : Statement (.fill d a b t u) := .inr (.inl rfl)
theorem trig (a : Reg) (b : Reg) (t : Bool) (u : Bool) : Statement (.trig a b t u) := .inr (.inl rfl)
theorem ctrSet (a : Reg) (b : Reg) (t : Bool) (u : Bool) : Statement (.ctrSet a b t u) := .inr (.inl rfl)
theorem ctrRd (d : Reg) (a : Reg) (t : Bool) : Statement (.ctrRd d a t) := .inr (.inl rfl)
theorem ctrMask (a : Reg) (t : Bool) : Statement (.ctrMask a t) := .inr (.inl rfl)
theorem ctrUnmask (a : Reg) (t : Bool) : Statement (.ctrUnmask a t) := .inr (.inl rfl)
theorem endThread : Statement (.endThread) := .inr (.inl rfl)
theorem yield : Statement (.yield) := .inr (.inl rfl)
theorem selfId (d : Reg) : Statement (.selfId d) := .inr (.inl rfl)
theorem live (k : Fin 4) (m : BitVec 18) : Statement (.live k m) := .inr (.inl rfl)
theorem gjoin (d : Reg) (a : Reg) (t : Bool) : Statement (.gjoin d a t) := .inr (.inl rfl)
theorem gleave (d : Reg) (a : Reg) (t : Bool) : Statement (.gleave d a t) := .inr (.inl rfl)
theorem gbar (a : Reg) (t : Bool) : Statement (.gbar a t) := .inr (.inl rfl)
theorem garr (d : Reg) (a : Reg) (t : Bool) : Statement (.garr d a t) := .inr (.inl rfl)
theorem gwait (a : Reg) (b : Reg) (t : Bool) (u : Bool) : Statement (.gwait a b t u) := .inr (.inl rfl)
theorem gsize (d : Reg) (a : Reg) (t : Bool) : Statement (.gsize d a t) := .inr (.inl rfl)
theorem grank (d : Reg) (a : Reg) (t : Bool) : Statement (.grank d a t) := .inr (.inl rfl)
theorem gstg (d : Reg) (a : Reg) (b : Reg) (t : Bool) (u : Bool) : Statement (.gstg d a b t u) := .inr (.inl rfl)
theorem feClr (d : Reg) : Statement (.feClr d) := .inr (.inl rfl)
theorem feSet (d : Reg) : Statement (.feSet d) := .inr (.inl rfl)
theorem feTest (d : Reg) (a : Reg) : Statement (.feTest d a) := .inr (.inl rfl)
theorem pqPut (a : Reg) (b : Reg) (t : Bool) (u : Bool) : Statement (.pqPut a b t u) := .inr (.inl rfl)
theorem pqTake (d : Reg) : Statement (.pqTake d) := .inr (.inl rfl)
theorem pqDone (a : Reg) (t : Bool) : Statement (.pqDone a t) := .inr (.inl rfl)
theorem pqCnt (d : Reg) : Statement (.pqCnt d) := .inr (.inl rfl)
theorem pqSteal (d : Reg) (a : Reg) : Statement (.pqSteal d a) := .inr (.inl rfl)
theorem fenceAcq (sx : Fin 4) : Statement (.fenceAcq sx) := .inr (.inl rfl)
theorem fenceRel (sx : Fin 4) : Statement (.fenceRel sx) := .inr (.inl rfl)
theorem fenceAr (sx : Fin 4) : Statement (.fenceAr sx) := .inr (.inl rfl)
theorem drain (sx : Fin 4) : Statement (.drain sx) := .inr (.inl rfl)
theorem semSig (a : Reg) (t : Bool) (k : Fin 16) : Statement (.semSig a t k) := .inr (.inl rfl)
theorem semWait (a : Reg) (t : Bool) (k : Fin 16) : Statement (.semWait a t k) := .inr (.inl rfl)
theorem tlRd (d : Reg) (e : Bool) (k : Fin 4) : Statement (.tlRd d e k) := .inr (.inl rfl)
theorem tlWait (a : Reg) (t : Bool) (k : Fin 4) : Statement (.tlWait a t k) := .inr (.inl rfl)
theorem tlWaitRel (a : Reg) (t : Bool) (k : Fin 4) : Statement (.tlWaitRel a t k) := .inr (.inl rfl)
theorem cpsync : Statement (.cpsync) := .inr (.inl rfl)
theorem amoAdd (d : Reg) (a : Reg) (r : Fin 4) (c : Fin 4) (w : Fin 4) (t : Bool) : Statement (.amoAdd d a r c w t) := .inr (.inl rfl)
theorem amoAnd (d : Reg) (a : Reg) (r : Fin 4) (c : Fin 4) (w : Fin 4) (t : Bool) : Statement (.amoAnd d a r c w t) := .inr (.inl rfl)
theorem amoOr (d : Reg) (a : Reg) (r : Fin 4) (c : Fin 4) (w : Fin 4) (t : Bool) : Statement (.amoOr d a r c w t) := .inr (.inl rfl)
theorem amoXor (d : Reg) (a : Reg) (r : Fin 4) (c : Fin 4) (w : Fin 4) (t : Bool) : Statement (.amoXor d a r c w t) := .inr (.inl rfl)
theorem amoMin (d : Reg) (a : Reg) (r : Fin 4) (c : Fin 4) (w : Fin 4) (t : Bool) : Statement (.amoMin d a r c w t) := .inr (.inl rfl)
theorem amoMax (d : Reg) (a : Reg) (r : Fin 4) (c : Fin 4) (w : Fin 4) (t : Bool) : Statement (.amoMax d a r c w t) := .inr (.inl rfl)
theorem amoMinu (d : Reg) (a : Reg) (r : Fin 4) (c : Fin 4) (w : Fin 4) (t : Bool) : Statement (.amoMinu d a r c w t) := .inr (.inl rfl)
theorem amoMaxu (d : Reg) (a : Reg) (r : Fin 4) (c : Fin 4) (w : Fin 4) (t : Bool) : Statement (.amoMaxu d a r c w t) := .inr (.inl rfl)
theorem amoSwap (d : Reg) (a : Reg) (r : Fin 4) (c : Fin 4) (w : Fin 4) (t : Bool) : Statement (.amoSwap d a r c w t) := .inr (.inl rfl)
theorem amoCas (d : Reg) (a : Reg) (r : Fin 4) (c : Fin 4) (w : Fin 4) (t : Bool) : Statement (.amoCas d a r c w t) := .inr (.inl rfl)
theorem amoFadd (d : Reg) (a : Reg) (r : Fin 4) (c : Fin 4) (t : Bool) : Statement (.amoFadd d a r c t) := .inr (.inl rfl)
theorem cwb (a : Reg) (t : Bool) : Statement (.cwb a t) := .inr (.inl rfl)
theorem cinv (a : Reg) (t : Bool) : Statement (.cinv a t) := .inr (.inl rfl)
theorem cinvI (a : Reg) (t : Bool) : Statement (.cinvI a t) := .inr (.inl rfl)
theorem cflush (a : Reg) (t : Bool) : Statement (.cflush a t) := .inr (.inl rfl)
theorem resize (n : Fin 16) : Statement (.resize n) := .inr (.inl rfl)
theorem home : Statement (.home) := .inr (.inl rfl)
theorem vaddInt (v : VReg) (a : VReg) (b : VReg) (y : VTy) (p : PReg) : Statement (.vaddInt v a b y p) := .inr (.inl rfl)
theorem vsubInt (v : VReg) (a : VReg) (b : VReg) (y : VTy) (p : PReg) : Statement (.vsubInt v a b y p) := .inr (.inl rfl)
theorem vmulInt (v : VReg) (a : VReg) (b : VReg) (y : VTy) (p : PReg) : Statement (.vmulInt v a b y p) := .inr (.inl rfl)
theorem vminInt (v : VReg) (a : VReg) (b : VReg) (y : VTy) (p : PReg) : Statement (.vminInt v a b y p) := .inr (.inl rfl)
theorem vmaxInt (v : VReg) (a : VReg) (b : VReg) (y : VTy) (p : PReg) : Statement (.vmaxInt v a b y p) := .inr (.inl rfl)
theorem vabsInt (v : VReg) (a : VReg) (y : VTy) (p : PReg) : Statement (.vabsInt v a y p) := .inr (.inl rfl)
theorem vnegInt (v : VReg) (a : VReg) (y : VTy) (p : PReg) : Statement (.vnegInt v a y p) := .inr (.inl rfl)
theorem vdot (v : VReg) (a : VReg) (b : VReg) (p : PReg) : Statement (.vdot v a b p) := .inr (.inl rfl)
theorem vaddFp (v : VReg) (a : VReg) (b : VReg) (y : VTy) (p : PReg) : Statement (.vaddFp v a b y p) := .inr (.inl rfl)
theorem vsubFp (v : VReg) (a : VReg) (b : VReg) (y : VTy) (p : PReg) : Statement (.vsubFp v a b y p) := .inr (.inl rfl)
theorem vmulFp (v : VReg) (a : VReg) (b : VReg) (y : VTy) (p : PReg) : Statement (.vmulFp v a b y p) := .inr (.inl rfl)
theorem vfma (v : VReg) (a : VReg) (b : VReg) (y : VTy) (p : PReg) : Statement (.vfma v a b y p) := .inr (.inl rfl)
theorem vfms (v : VReg) (a : VReg) (b : VReg) (y : VTy) (p : PReg) : Statement (.vfms v a b y p) := .inr (.inl rfl)
theorem vfnma (v : VReg) (a : VReg) (b : VReg) (y : VTy) (p : PReg) : Statement (.vfnma v a b y p) := .inr (.inl rfl)
theorem vdiv (v : VReg) (a : VReg) (b : VReg) (y : VTy) (p : PReg) : Statement (.vdiv v a b y p) := .inr (.inl rfl)
theorem vsqrt (v : VReg) (a : VReg) (y : VTy) (p : PReg) : Statement (.vsqrt v a y p) := .inr (.inl rfl)
theorem vminFp (v : VReg) (a : VReg) (b : VReg) (y : VTy) (p : PReg) : Statement (.vminFp v a b y p) := .inr (.inl rfl)
theorem vmaxFp (v : VReg) (a : VReg) (b : VReg) (y : VTy) (p : PReg) : Statement (.vmaxFp v a b y p) := .inr (.inl rfl)
theorem vabsFp (v : VReg) (a : VReg) (y : VTy) (p : PReg) : Statement (.vabsFp v a y p) := .inr (.inl rfl)
theorem vnegFp (v : VReg) (a : VReg) (y : VTy) (p : PReg) : Statement (.vnegFp v a y p) := .inr (.inl rfl)
theorem vclass (v : VReg) (a : VReg) (y : VTy) (p : PReg) : Statement (.vclass v a y p) := .inr (.inl rfl)
theorem vand (v : VReg) (a : VReg) (b : VReg) (y : VTy) (p : PReg) : Statement (.vand v a b y p) := .inr (.inl rfl)
theorem vor (v : VReg) (a : VReg) (b : VReg) (y : VTy) (p : PReg) : Statement (.vor v a b y p) := .inr (.inl rfl)
theorem vxor (v : VReg) (a : VReg) (b : VReg) (y : VTy) (p : PReg) : Statement (.vxor v a b y p) := .inr (.inl rfl)
theorem vandn (v : VReg) (a : VReg) (b : VReg) (y : VTy) (p : PReg) : Statement (.vandn v a b y p) := .inr (.inl rfl)
theorem vshl (v : VReg) (a : VReg) (b : VReg) (y : VTy) (p : PReg) : Statement (.vshl v a b y p) := .inr (.inl rfl)
theorem vshr (v : VReg) (a : VReg) (b : VReg) (y : VTy) (p : PReg) : Statement (.vshr v a b y p) := .inr (.inl rfl)
theorem vsra (v : VReg) (a : VReg) (b : VReg) (y : VTy) (p : PReg) : Statement (.vsra v a b y p) := .inr (.inl rfl)
theorem vcmpEq (q : PReg) (a : VReg) (b : VReg) (y : VTy) (p : PReg) : Statement (.vcmpEq q a b y p) := .inr (.inl rfl)
theorem vcmpNe (q : PReg) (a : VReg) (b : VReg) (y : VTy) (p : PReg) : Statement (.vcmpNe q a b y p) := .inr (.inl rfl)
theorem vcmpLt (q : PReg) (a : VReg) (b : VReg) (y : VTy) (p : PReg) : Statement (.vcmpLt q a b y p) := .inr (.inl rfl)
theorem vcmpLe (q : PReg) (a : VReg) (b : VReg) (y : VTy) (p : PReg) : Statement (.vcmpLe q a b y p) := .inr (.inl rfl)
theorem vcmpGt (q : PReg) (a : VReg) (b : VReg) (y : VTy) (p : PReg) : Statement (.vcmpGt q a b y p) := .inr (.inl rfl)
theorem vcmpGe (q : PReg) (a : VReg) (b : VReg) (y : VTy) (p : PReg) : Statement (.vcmpGe q a b y p) := .inr (.inl rfl)
theorem vsel (v : VReg) (a : VReg) (b : VReg) (y : VTy) (p : PReg) : Statement (.vsel v a b y p) := .inr (.inl rfl)
theorem vperm (v : VReg) (a : VReg) (b : VReg) (y : VTy) (p : PReg) : Statement (.vperm v a b y p) := .inr (.inl rfl)
theorem vslide (v : VReg) (a : VReg) (b : VReg) (y : VTy) (p : PReg) : Statement (.vslide v a b y p) := .inr (.inl rfl)
theorem vzip (v : VReg) (a : VReg) (b : VReg) (y : VTy) (p : PReg) : Statement (.vzip v a b y p) := .inr (.inl rfl)
theorem vunzip (v : VReg) (a : VReg) (b : VReg) (y : VTy) (p : PReg) : Statement (.vunzip v a b y p) := .inr (.inl rfl)
theorem vredsum (d : SReg) (a : VReg) (y : VTy) (p : PReg) : Statement (.vredsum d a y p) := .inr (.inl rfl)
theorem vredmax (d : SReg) (a : VReg) (y : VTy) (p : PReg) : Statement (.vredmax d a y p) := .inr (.inl rfl)
theorem vredmin (d : SReg) (a : VReg) (y : VTy) (p : PReg) : Statement (.vredmin d a y p) := .inr (.inl rfl)
theorem vcvt (v : VReg) (a : VReg) (y : VTy) (p : PReg) (sx : VTy) : Statement (.vcvt v a y p sx) := .inr (.inl rfl)
theorem pand (q : PReg) (r : PReg) (sx : PReg) (y : VTy) (p : PReg) : Statement (.pand q r sx y p) := .inr (.inl rfl)
theorem por (q : PReg) (r : PReg) (sx : PReg) (y : VTy) (p : PReg) : Statement (.por q r sx y p) := .inr (.inl rfl)
theorem pxor (q : PReg) (r : PReg) (sx : PReg) (y : VTy) (p : PReg) : Statement (.pxor q r sx y p) := .inr (.inl rfl)
theorem pnot (q : PReg) (r : PReg) (y : VTy) (p : PReg) : Statement (.pnot q r y p) := .inr (.inl rfl)
theorem pcnt (d : SReg) (r : PReg) (y : VTy) (p : PReg) : Statement (.pcnt d r y p) := .inr (.inl rfl)
theorem pfirst (d : SReg) (r : PReg) (y : VTy) (p : PReg) : Statement (.pfirst d r y p) := .inr (.inl rfl)
theorem pset (q : PReg) (y : VTy) (p : PReg) : Statement (.pset q y p) := .inr (.inl rfl)
theorem vldp (v : VReg) (a : Reg) (t : Bool) (o : BitVec 10) : Statement (.vldp v a t o) := .inr (.inl rfl)
theorem vstp (v : VReg) (a : Reg) (t : Bool) (o : BitVec 10) : Statement (.vstp v a t o) := .inr (.inl rfl)
theorem vstpNt (v : VReg) (a : Reg) (t : Bool) (o : BitVec 10) : Statement (.vstpNt v a t o) := .inr (.inl rfl)
theorem vldpx (v : VReg) (a : Reg) (t : Bool) (x : VReg) (e : Fin 4) : Statement (.vldpx v a t x e) := .inr (.inl rfl)
theorem vstpx (v : VReg) (a : Reg) (t : Bool) (x : VReg) (e : Fin 4) : Statement (.vstpx v a t x e) := .inr (.inl rfl)
theorem vbcast (v : VReg) (sx : SReg) (y : VTy) (p : PReg) : Statement (.vbcast v sx y p) := .inr (.inl rfl)
theorem vext (d : SReg) (a : VReg) (sx : SReg) (y : VTy) : Statement (.vext d a sx y) := .inr (.inl rfl)
theorem vins (v : VReg) (sx : SReg) (i : SReg) (y : VTy) (p : PReg) : Statement (.vins v sx i y p) := .inr (.inl rfl)
theorem mown : Statement (.mown) := .inr (.inl rfl)
theorem mfree : Statement (.mfree) := .inr (.inl rfl)
theorem mshape (d : Reg) : Statement (.mshape d) := .inr (.inl rfl)
theorem mmapRd (d : Reg) (a : Reg) (t : Bool) : Statement (.mmapRd d a t) := .inr (.inl rfl)
theorem cist (d : Reg) (a : Reg) (b : Reg) (t : Bool) (u : Bool) : Statement (.cist d a b t u) := .inr (.inl rfl)
theorem cerrRd (d : Reg) (a : Reg) (t : Bool) : Statement (.cerrRd d a t) := .inr (.inl rfl)
theorem cistLd (a : Reg) (b : Reg) (t : Bool) (u : Bool) : Statement (.cistLd a b t u) := .inr (.inl rfl)
theorem sys (c : Fin 1024) : Statement (.sys c) := .inr (.inl rfl)
theorem brk (c : Fin 1024) : Statement (.brk c) := .inr (.inl rfl)
theorem rdsr (d : Reg) (n : Fin 1024) : Statement (.rdsr d n) := .inr (.inl rfl)
theorem wrsr (a : Reg) (t : Bool) (n : Fin 1024) : Statement (.wrsr a t n) := .inr (.inl rfl)
theorem rte : Statement (.rte) := .inr (.inl rfl)
theorem tlbInv (a : Reg) (t : Bool) : Statement (.tlbInv a t) := .inr (.inl rfl)
theorem ctxKill (d : Reg) (a : Reg) (t : Bool) : Statement (.ctxKill d a t) := .inr (.inl rfl)
theorem sig (i : BitVec 16) : Statement (.sig i) := .inr (.inl rfl)
theorem ckpt (d : Reg) (a : Reg) : Statement (.ckpt d a) := .inr (.inl rfl)
theorem chainWrite : Statement (.chainWrite) := .inl rfl
theorem errorInjection : Statement (.errorInjection) := .inl rfl
theorem cpPush (c : CmdWord) : Statement (.cpPush c) := .inr (.inr rfl)
theorem cpPushAdd (c : CmdWord) : Statement (.cpPushAdd c) := .inr (.inr rfl)
theorem cpFill (c : CmdWord) : Statement (.cpFill c) := .inr (.inr rfl)
theorem cpX24 (c : CmdWord) : Statement (.cpX24 c) := .inr (.inr rfl)
theorem cpC24 (c : CmdWord) : Statement (.cpC24 c) := .inr (.inr rfl)
theorem mma (c : CmdWord) : Statement (.mma c) := .inr (.inr rfl)
theorem mmb (c : CmdWord) : Statement (.mmb c) := .inr (.inr rfl)
theorem mzero (c : CmdWord) : Statement (.mzero c) := .inr (.inr rfl)
theorem mld (c : CmdWord) : Statement (.mld c) := .inr (.inr rfl)
theorem mst (c : CmdWord) : Statement (.mst c) := .inr (.inr rfl)
theorem colRed (c : CmdWord) : Statement (.colRed c) := .inr (.inr rfl)
theorem colRs (c : CmdWord) : Statement (.colRs c) := .inr (.inr rfl)
theorem colMc (c : CmdWord) : Statement (.colMc c) := .inr (.inr rfl)
theorem mtest (c : CmdWord) : Statement (.mtest c) := .inr (.inr rfl)
theorem mremap (c : CmdWord) : Statement (.mremap c) := .inr (.inr rfl)
theorem producerCompletion : Statement (.producerCompletion) := .inl rfl
theorem messageArrival : Statement (.messageArrival) := .inl rfl
theorem activationStart : Statement (.activationStart) := .inl rfl
theorem spill : Statement (.spill) := .inl rfl
theorem reload : Statement (.reload) := .inl rfl
theorem fillArrival : Statement (.fillArrival) := .inl rfl
theorem directoryLookup : Statement (.directoryLookup) := .inl rfl
theorem stubForward : Statement (.stubForward) := .inl rfl
theorem movedNotice : Statement (.movedNotice) := .inl rfl
theorem stubExpiry : Statement (.stubExpiry) := .inl rfl
theorem diffusionPeriod : Statement (.diffusionPeriod) := .inl rfl
theorem parcelArrival : Statement (.parcelArrival) := .inl rfl
theorem launchMessage : Statement (.launchMessage) := .inl rfl
theorem prerequisitesMet : Statement (.prerequisitesMet) := .inl rfl
theorem admissionScan : Statement (.admissionScan) := .inl rfl
theorem reservationBackoffExpiry : Statement (.reservationBackoffExpiry) := .inl rfl
theorem headOfLine : Statement (.headOfLine) := .inl rfl
theorem clusterCommit : Statement (.clusterCommit) := .inl rfl
theorem backlogFeed : Statement (.backlogFeed) := .inl rfl
theorem launchCompletion : Statement (.launchCompletion) := .inl rfl
theorem vectorStart : Statement (.vectorStart) := .inl rfl
theorem vectorCompletion : Statement (.vectorCompletion) := .inl rfl
theorem repPass : Statement (.repPass) := .inl rfl
theorem lateFaultDelivery : Statement (.lateFaultDelivery) := .inl rfl
theorem pageWalk : Statement (.pageWalk) := .inl rfl
theorem relocationArrival : Statement (.relocationArrival) := .inl rfl
theorem relocationRefusal : Statement (.relocationRefusal) := .inl rfl
theorem mothLoad : Statement (.mothLoad) := .inl rfl
theorem mothReturn : Statement (.mothReturn) := .inl rfl
theorem combiningWriteOut : Statement (.combiningWriteOut) := .inl rfl
theorem writePlacement : Statement (.writePlacement) := .inl rfl
theorem guardWaitTimeout : Statement (.guardWaitTimeout) := .inl rfl
theorem journalStallTimeout : Statement (.journalStallTimeout) := .inl rfl
theorem pushStart : Statement (.pushStart) := .inl rfl
theorem pushCompletion : Statement (.pushCompletion) := .inl rfl
theorem matrixCommandStart : Statement (.matrixCommandStart) := .inl rfl
theorem matrixCommandCompletion : Statement (.matrixCommandCompletion) := .inl rfl
theorem healthCommandStart : Statement (.healthCommandStart) := .inl rfl
theorem mtestCompletion : Statement (.mtestCompletion) := .inl rfl
theorem mremapCompletion : Statement (.mremapCompletion) := .inl rfl
theorem cisternInvocationStart : Statement (.cisternInvocationStart) := .inl rfl
theorem cisternInvocationCompletion : Statement (.cisternInvocationCompletion) := .inl rfl
theorem seqReset : Statement (.seqReset) := .inl rfl
theorem vaultReset : Statement (.vaultReset) := .inl rfl
theorem meshRequestResend : Statement (.meshRequestResend) := .inl rfl
theorem containment : Statement (.containment) := .inl rfl
theorem checkpointCut : Statement (.checkpointCut) := .inl rfl
theorem checkpointDrain : Statement (.checkpointDrain) := .inl rfl
theorem restore : Statement (.restore) := .inl rfl
theorem tileScrub : Statement (.tileScrub) := .inl rfl
theorem stewardEvent : Statement (.stewardEvent) := .inl rfl
theorem message : Statement (.message) := .inl rfl
theorem preempt : Statement (.preempt) := .inl rfl
theorem preemptGiveUp : Statement (.preemptGiveUp) := .inl rfl
theorem resume : Statement (.resume) := .inl rfl
theorem timer : Statement (.timer) := .inl rfl
theorem timerExpiry : Statement (.timerExpiry) := .inl rfl
theorem watchdog : Statement (.watchdog) := .inl rfl
theorem watchdogExpiry : Statement (.watchdogExpiry) := .inl rfl
theorem groupCreate : Statement (.groupCreate) := .inl rfl
theorem groupDissolve : Statement (.groupDissolve) := .inl rfl
theorem counterClaim : Statement (.counterClaim) := .inl rfl
theorem counterRelease : Statement (.counterRelease) := .inl rfl
theorem parcelDrop : Statement (.parcelDrop) := .inl rfl
theorem vectorStateSave : Statement (.vectorStateSave) := .inl rfl
theorem groupLive : Statement (.groupLive) := .inl rfl
theorem groupCreateTimeout : Statement (.groupCreateTimeout) := .inl rfl
theorem cubeArrival : Statement (.cubeArrival) := .inl rfl
theorem cubeRelease : Statement (.cubeRelease) := .inl rfl
theorem collectiveNode : Statement (.collectiveNode) := .inl rfl
theorem collectiveCompletion : Statement (.collectiveCompletion) := .inl rfl
theorem collectiveTimeout : Statement (.collectiveTimeout) := .inl rfl
theorem remoteRequest : Statement (.remoteRequest) := .inl rfl
theorem moved : Statement (.moved) := .inl rfl
theorem retransmission : Statement (.retransmission) := .inl rfl
theorem trimmedPacket : Statement (.trimmedPacket) := .inl rfl
theorem peerUnreachable : Statement (.peerUnreachable) := .inl rfl
theorem peerLost : Statement (.peerLost) := .inl rfl
theorem pdcFree : Statement (.pdcFree) := .inl rfl
theorem linkTrainingTimeout : Statement (.linkTrainingTimeout) := .inl rfl
theorem linkDown : Statement (.linkDown) := .inl rfl
theorem timeExchange : Statement (.timeExchange) := .inl rfl
theorem mapWrite : Statement (.mapWrite) := .inl rfl
theorem mapPrepared : Statement (.mapPrepared) := .inl rfl
theorem stripeSwitch : Statement (.stripeSwitch) := .inl rfl
theorem mapCommit : Statement (.mapCommit) := .inl rfl
theorem cubeRemoval : Statement (.cubeRemoval) := .inl rfl
theorem apertureRead : Statement (.apertureRead) := .inl rfl
theorem apertureWrite : Statement (.apertureWrite) := .inl rfl
theorem unbackedAccess : Statement (.unbackedAccess) := .inl rfl
theorem launchWindowWrite : Statement (.launchWindowWrite) := .inl rfl
theorem controlRegisterWrite : Statement (.controlRegisterWrite) := .inl rfl
theorem wrefmap : Statement (.wrefmap) := .inl rfl
theorem evcause : Statement (.evcause) := .inl rfl
theorem cancel : Statement (.cancel) := .inl rfl
theorem rstctl : Statement (.rstctl) := .inl rfl
theorem cancelPacket : Statement (.cancelPacket) := .inl rfl
theorem cancelAck : Statement (.cancelAck) := .inl rfl
theorem cancelDone : Statement (.cancelDone) := .inl rfl
theorem filterEntryExpiry : Statement (.filterEntryExpiry) := .inl rfl
theorem stealRequest : Statement (.stealRequest) := .inl rfl
theorem stealAnswer : Statement (.stealAnswer) := .inl rfl
theorem doneReport : Statement (.doneReport) := .inl rfl
theorem returnReport : Statement (.returnReport) := .inl rfl
theorem leaseExpiry : Statement (.leaseExpiry) := .inl rfl
theorem borrowedExpiry : Statement (.borrowedExpiry) := .inl rfl
theorem tenantCreate : Statement (.tenantCreate) := .inl rfl
theorem tenantReset : Statement (.tenantReset) := .inl rfl
theorem tenantDestroy : Statement (.tenantDestroy) := .inl rfl
theorem transferFw : Statement (.transferFw) := .inl rfl
theorem activateFw : Statement (.activateFw) := .inl rfl
theorem attest : Statement (.attest) := .inl rfl
theorem getId : Statement (.getId) := .inl rfl
theorem getStatus : Statement (.getStatus) := .inl rfl
theorem setPowerLimit : Statement (.setPowerLimit) := .inl rfl
theorem writeBoardRecord : Statement (.writeBoardRecord) := .inl rfl
theorem warmReset : Statement (.warmReset) := .inl rfl
theorem powerMeasurement : Statement (.powerMeasurement) := .inl rfl
theorem coldReset : Statement (.coldReset) := .inl rfl
theorem powerDown : Statement (.powerDown) := .inl rfl
theorem boot : Statement (.boot) := .inl rfl
theorem firmwareBoot : Statement (.firmwareBoot) := .inl rfl
theorem illegal : Statement (.illegal) := .inl rfl
theorem collectiveCommandStart : Statement (.collectiveCommandStart) := .inl rfl
theorem remoteWriteAcknowledgement : Statement (.remoteWriteAcknowledgement) := .inl rfl
theorem linkRetrain : Statement (.linkRetrain) := .inl rfl
theorem linkLevelRetry : Statement (.linkLevelRetry) := .inl rfl
theorem meshLinkRetirement : Statement (.meshLinkRetirement) := .inl rfl
theorem uudPacket : Statement (.uudPacket) := .inl rfl

end Sys2Proof.Laws.WordCount
end

