-- ==== Sys2Proof/Tests/Slice0.lean ====
section
/-! SUPPORT. Small tests: words written out from the encoding tables, ill-formed terms, the manual's worked examples, and states that meet the hypotheses of the statements. -/

set_option Elab.async false

namespace Sys2Proof.Tests

open Sys2Proof Sys2Proof.Machine

/-- A cube that runs, with one thread of tenant 0, in supervisor mode, in context 0 of core c, changed by f. -/
def on (c : Nat) (f : Ctx → Ctx) : State :=
  { State.reset with
    fw := { State.reset.fw with st := .ready }, cur := (c, 0), nid := 100, tenants := [(0, { Tenant.zero with live := true, tvec := 0x2000 })]
    ctxs := [(ctxKey c 0, f { Ctx.free with occ := true, uid := 7, priv := .supervisor })] }

/-- The same thread in user mode. -/
def user (x : Ctx) : Ctx := { x with priv := .user }

/-- A thread with a register set. -/
def reg (r : Nat) (v : Word) (x : Ctx) : Ctx := x.write r v

/-- The state an instruction answers. -/
def after (i : Instr) (s : State) : State :=
  match exec i s with
  | .next t => t
  | .fault _ => s
  | .refused _ => s

/-- The value of a register of the thread after an instruction. -/
def result (i : Instr) (s : State) (d : Nat) : Word := ((after i s).ctx s.me |>.cell d).val

/-- A translation of the first 64 KiB of virtual addresses with an attribute, and region 0 over this cube. -/
def mapped (attr : Nat) (s : State) : State :=
  { s with
    tlbs := [(unitOf s.cur.1, [{ tenant := 0, page := 0, size := 65536, pa := 0, attr := attr }])]
    regions := [(0, { Region.zero with cur := { Stripes.zero with valid := true, n := 1, size := 16 } })], settab := [] }


/-- An access is to a mapped address. -/
def isVirt (a : Acc) (va pa attr : Nat) : Bool :=
  match a with
  | .virt v p x => v == va && p == pa && x == attr
  | _ => false

/-- An access is to the tile store. -/
def isTile (a : Acc) (w o : Nat) : Bool :=
  match a with
  | .tile v p => v == w && p == o
  | _ => false

/-- A frame of a loop at the pc with so many passes left. -/
def looping (left : Word) (x : Ctx) : Ctx := { x with loops := [⟨0, 0, left⟩] }

/-- The thread's core holds the line of pc 0 in its instruction cache. -/
def withLine (s : State) : State := s.setCore s.cur.1 { s.core s.cur.1 with icache := [⟨0, List.replicate 128 0⟩] }

/-- A request of the thread in flight. -/
def inFlight (k : ReqKind) (s : State) : State := { s with reqs := [{ s.newReq 50 k .none 0 8 0 with agent := s.agent }] }

theorem localFree_of (s : State) (ea n : Nat) (store : Bool) (h1 : s.reqs = []) (h2 : s.self.home = none)
    (h3 : (ea % n == 0 && decide (localBase ≤ ea) && decide (ea + n ≤ localBase + 65536)
      && (s.self.priv != .user || (decide (ea + n ≤ localBase + 0xD000) && (!store || !decide (s.cur.1 < 256) || decide (ea + n ≤ localBase + 0xCE00))))) = true) :
    s.localFree ea n store := by
  simp only [Bool.and_eq_true, Bool.or_eq_true, beq_iff_eq, decide_eq_true_eq, bne_iff_ne, ne_eq, Bool.not_eq_true', decide_eq_false_iff_not] at h3
  refine ⟨by simp [h1], h2, h3.1.1.1, h3.1.1.2, h3.1.2, fun hu => ?_⟩
  rcases h3.2 with h | ⟨h, h'⟩
  · exact absurd hu h
  · refine ⟨h, fun hs hc => ?_⟩
    rcases h' with (h' | h') | h'
    · simp [hs] at h'
    · exact absurd hc h'
    · exact h'

/-! ### Well-formedness: one ill-formed term for each check -/

/-- A command word with a timeline and flags. -/
def cmd (tl : Fin 4) (f : BitVec 6) : CmdWord := ⟨tl, f, .lit 0, .lit 0, .lit 0, .lit 0, .lit 0⟩

theorem wf_fields : Instr.wf (.bfx 1 2 false 60 4) = false ∧ Instr.wf (.bfi 1 2 false 63 1) = false ∧ Instr.wf (.bfx 1 2 false 60 3) = true := by decide +kernel
theorem wf_loops : Instr.wf (.loopR 1 false 0) = false ∧ Instr.wf (.loopR 1 false 4096) = false ∧ Instr.wf (.loopi 1 0) = false ∧ Instr.wf (.loopi 0 1) = true := by decide +kernel
theorem wf_live : Instr.wf (.live 3 32) = false ∧ Instr.wf (.live 3 31) = true ∧ Instr.wf (.live 2 32) = true := by decide +kernel
theorem wf_atomics : Instr.wf (.amoAdd 1 2 0 1 0 false) = false ∧ Instr.wf (.amoXor 1 2 0 0 2 false) = false ∧ Instr.wf (.amoCas 0 2 0 0 0 false) = false
    ∧ Instr.wf (.amoCas 57 2 0 0 2 false) = false ∧ Instr.wf (.amoCas 1 2 0 0 3 false) = false ∧ Instr.wf (.amoFadd 1 2 0 3 false) = false ∧ Instr.wf (.amoCas 56 2 1 2 2 false) = true := by decide +kernel
theorem wf_resize : Instr.wf (.resize 13) = false ∧ Instr.wf (.resize 12) = true := by decide +kernel
theorem wf_types : Instr.wf (.vaddInt 1 2 3 .f32 0) = false ∧ Instr.wf (.vabsInt 1 2 .ui8 0) = false ∧ Instr.wf (.vaddFp 1 2 3 .i32 0) = false
    ∧ Instr.wf (.vand 1 2 3 .bf16 0) = false ∧ Instr.wf (.vcvt 1 2 .f16 0 .f16) = false ∧ Instr.wf (.vminInt 1 2 3 .ui8 0) = true := by decide +kernel
theorem wf_indexed : Instr.wf (.vldpx 1 2 false 3 3) = false ∧ Instr.wf (.vstpx 1 2 false 3 3) = false ∧ Instr.wf (.vldpx 1 2 false 3 2) = true := by decide +kernel
theorem wf_cist : Instr.wf (.cist 0 1 2 false false) = false ∧ Instr.wf (.cist 59 1 2 false false) = true := by decide +kernel
theorem wf_commands : Instr.wf (.cpPush (cmd 1 0)) = false ∧ Instr.wf (.cpPush (cmd 0 2)) = false ∧ Instr.wf (.cpPushAdd (cmd 0 0)) = false ∧ Instr.wf (.cpX24 (cmd 0 2)) = false
    ∧ Instr.wf (.mma (cmd 1 1)) = false ∧ Instr.wf (.mma (cmd 0 0)) = false ∧ Instr.wf (.colRed (cmd 2 16)) = false ∧ Instr.wf (.mtest (cmd 2 0)) = false
    ∧ Instr.wf (.cpPushAdd (cmd 2 2)) = true ∧ Instr.wf (.mremap (cmd 3 0)) = true := by decide +kernel

/-! ### Words written out from the encodings of the manual decode to their instructions (R36 to R64 and the examples beside the instructions) -/

theorem word_alu : decode .a true [0x05455628] = .ok (.mix 20 21 22 false false) ∧ decode .v true [0x0441C01C] = .ok (.clz 4 7 false)
    ∧ decode .e true [0x04310521] = .ok (.sel 3 4 5 false false) ∧ decode .a true [0x04000000] = .ok (.add 0 0 0 false false) := by decide +kernel
theorem word_immediates : decode .a true [0x2051883F] = .ok (.srai 5 6 false 63) ∧ decode .a true [0x24512345] = .ok (.lui 5 0x12345)
    ∧ decode .v true [0x2C518203] = .ok (.bfx 5 6 false 8 3) := by decide +kernel
theorem word_flow : decode .a true [0x44100064] = .ok (.jal 1 100) ∧ decode .e true [0x48004000] = .ok (.jalr 0 1 false 0) ∧ decode .a true [0x4C014002] = .ok (.loopR 5 false 2)
    ∧ decode .a true [0x50004001] = .ok (.loopi 4 1) ∧ decode .e true [0x56400E40] = .ok (.repI 8 0 1 6 1) := by decide +kernel
theorem word_states : decode .a true [0x6C900000] = .ok (.feClr 9) ∧ decode .a true [0x6C424002] = .ok (.feTest 4 9) := by decide +kernel
theorem word_system : decode .a true [0xB0000005] = .ok (.sys 5) ∧ decode .a true [0xB0000400] = .ok (.brk 0) ∧ decode .a true [0xB0001000] = .ok .rte
    ∧ decode .a true [0xB0519800] = .ok (.ctxKill 5 6 false) := by decide +kernel
theorem word_threads : decode .a true [0x64000000] = .ok .endThread ∧ decode .a true [0x64040000] = .ok .yield ∧ decode .a true [0x64580000] = .ok (.selfId 5)
    ∧ decode .v true [0x7C001000] = .ok .home := by decide +kernel
theorem word_messages : decode .a true [0x61414600] = .ok (.send 20 5 6 false false) ∧ decode .a true [0x68014002] = .ok (.gbar 5 false) := by decide +kernel
theorem word_parcels : decode .a true [0x70014600] = .ok (.pqPut 5 6 false false) ∧ decode .a true [0x70A00001] = .ok (.pqTake 10) ∧ decode .e true [0x7002C002] = .ok (.pqDone 11 false)
    ∧ decode .a true [0x70C00003] = .ok (.pqCnt 12) ∧ decode .a true [0x70824004] = .ok (.pqSteal 8 9) := by decide +kernel
theorem word_order : decode .a true [0x74000101] = .ok (.fenceRel 1) ∧ decode .a true [0x74000202] = .ok (.fenceAr 2) ∧ decode .a true [0x74000900] = .ok .cpsync := by decide +kernel
theorem word_memory : decode .a true [0x34708C02] = .ok (.stD 7 2 false 2) ∧ decode .a true [0x38020400] = .ok (.ldqD 8 false 0)
    ∧ decode .a true [0x7851800A] = .ok (.amoFadd 5 6 0 0 false) ∧ decode .v true [0x78A30109] = .ok (.amoCas 10 12 0 0 1 false)
    ∧ decode .a true [0x7851A500] = .ok (.amoAdd 5 6 2 1 1 false) := by decide +kernel
theorem word_float : decode .e true [0x58518700] = .ok (.fadd 5 6 7 false false) ∧ decode .a true [0x58424004] = .ok (.fsqrt 4 9 false)
    ∧ decode .a true [0x58A2CC05] = .ok (.fma 10 11 12 false false) ∧ decode .a true [0x5842400B] = .ok (.fclass 4 9 false)
    ∧ decode .a true [0x5C714007] = .ok (.fcvtTf8F32 7 5 false) := by decide +kernel
theorem word_vector : decode .e true [0x80432507] = .ok (.vdot 2 3 4 0) ∧ decode .e true [0x84220207] = .ok (.vsqrt 1 2 .bf16 0) ∧ decode .e true [0x88221C05] = .ok (.vshr 1 2 3 .i16 0)
    ∧ decode .e true [0x90221B00] = .ok (.vperm 1 2 3 .i32 0) ∧ decode .e true [0x94A30000] = .ok (.vredsum 5 3 .f32 0) ∧ decode .e true [0x98220100] = .ok (.vcvt 1 2 .f16 0 .f32)
    ∧ decode .e true [0x9C820504] = .ok (.pcnt 4 2 .i8 0) ∧ decode .e true [0xA6050000] = .ok (.vbcast 16 5 .f32 0) ∧ decode .e true [0xA4C32302] = .ok (.vins 6 3 4 .i32 0)
    ∧ decode .e true [0xA4EB4001] = .ok (.vext 7 11 8 .f32) ∧ decode .e true [0x85048002] = .ok (.vmulFp 8 4 16 .f32 0) := by decide +kernel
theorem word_partner : decode .a true [0xA0320002] = .ok (.vldp 3 8 false 2) ∧ decode .a true [0xA0324400] = .ok (.vstp 3 9 false 0) ∧ decode .a true [0xA0324800] = .ok (.vstpNt 3 9 false 0)
    ∧ decode .a true [0xA0428CA0] = .ok (.vldpx 4 10 false 5 0) ∧ decode .a true [0xA04290A8] = .ok (.vstpx 4 10 false 5 1) := by decide +kernel
theorem word_cistern : decode .v true [0xAD455600] = .ok (.cist 20 21 22 false false) ∧ decode .v true [0xAC518001] = .ok (.cerrRd 5 6 false)
    ∧ decode .v true [0xAC00C402] = .ok (.cistLd 3 4 false false) ∧ decode .e true [0xA8518003] = .ok (.mmapRd 5 6 false) := by decide +kernel
theorem word_commands : decode .e true [0xFCC00800, 0, 0, 0, 0, 0, 0, 0] = .ok (.mtest (cmd 1 0)) ∧ decode .e true [0xFCC04800, 0, 0, 0, 0, 0, 0, 0] = .ok (.mremap (cmd 1 0)) := by decide +kernel

/-- A word of an unassigned opcode, of another core's opcode, of a bad field and of a command word off its boundary are refused by name (R40, R41, R61). -/
theorem word_refused : decode .a true [0] = .illegal 1 ∧ decode .a true [0x85048002] = .illegal 2 ∧ decode .a true [0x7C001001] = .illegal 5
    ∧ decode .e false [0xFCC00800, 0, 0, 0, 0, 0, 0, 0] = .illegal 7 := by decide +kernel

/-- Encoding and decoding agree on the rows that the four last tests name. -/
theorem round_trips : decode .a true (encode (.amoMinu 5 6 2 1 1 true)) = .ok (.amoMinu 5 6 2 1 1 true) ∧ decode .v true (encode (.amoMaxu 59 1 3 2 0 false)) = .ok (.amoMaxu 59 1 3 2 0 false)
    ∧ decode .a true (encode (.cpX24 (cmd 2 1))) = .ok (.cpX24 (cmd 2 1)) ∧ decode .a true (encode (.cpC24 (cmd 0 4))) = .ok (.cpC24 (cmd 0 4)) := by decide +kernel
/-! ### Worked examples of the manual -/

/-- The table of R66. -/
theorem ex_division : divS 7 (-2) = -3 ∧ remS 7 (-2) = 1 ∧ divU 7 (-2) = 0 ∧ remU 7 (-2) = 7 ∧ divS (-7) 2 = -3 ∧ remS (-7) 2 = -1 ∧ divU (-7) 2 = 0x7FFFFFFFFFFFFFFC
    ∧ divS (-5) 0 = -1 ∧ remS (-5) 0 = -5 ∧ divS 0x8000000000000000 (-1) = 0x8000000000000000 ∧ remS 0x8000000000000000 (-1) = 0 := by decide +kernel
/-- R67: `mix` of two zeros is 0; R70: the worked `lui`; R68: `sltiu d, a, 1` is 1 exactly for 0. -/
theorem ex_alu : result (.mix 20 21 22 false false) (on 0 id) 20 = 0 ∧ result (.lui 5 0x12345) (on 0 id) 5 = 0x12345000 ∧ result (.sltiu 5 6 false 1) (on 0 id) 5 = 1
    ∧ result (.bfx 5 6 false 8 3) (on 0 (reg 6 0xABCD)) 5 = 0xB := by decide +kernel
/-- The conversions of R101. -/
theorem ex_tf8 : cvtTf8 .f32 0x40533333 = ⟨0x5A, flInexact⟩ ∧ cvtTf8 .f32 0x3F333333 = ⟨0x3B, flInexact⟩ ∧ cvtTf8 .f32 0x41740000 = ⟨0x7E, flInexact⟩
    ∧ cvtTf8 .f32 0x41A00000 = ⟨0x7F, flOverflow + flInexact⟩ ∧ cvtTf8 .f32 0x80000000 = ⟨0, 0⟩ ∧ cvtTf8 .f32 0x35000000 = ⟨0, flUnderflow + flInexact⟩ := by decide +kernel
/-- The example of R239: 1 + 2^-24 is 1. -/
theorem ex_fadd : amoNew .fadd 4 0x3F800000 0x33800000 0 = some 0x3F800000 := by decide +kernel
/-- The word of `sys 5` traps SYS on the handler of the tenant (R359). -/
theorem ex_sys : ((after (.sys 5) (on 0 user)).ctx (ctxKey 0 0)).tcause = 0x0C ∧ ((after (.sys 5) (on 0 user)).ctx (ctxKey 0 0)).priv = .supervisor := by decide +kernel
/-! ### States that meet the hypotheses of the statements -/

theorem wit_issues : (on 0 id).issues ⟨[(5, false), (6, true)], [], [7], []⟩ = true ∧ (on 0 id).issues ⟨[(0, false), (59, false)], [], [0], []⟩ = true
    ∧ (on 1 id).issues ⟨[(59, false)], [(7, false)], [59], [8]⟩ = true ∧ (on 256 id).issues ⟨[], [], [], []⟩ = true := by decide +kernel
/-- Ports as operands: an E-core whose partner has filled its queue reads `pin` and writes `pout`. -/
theorem wit_port_issues : ((on 1 id).setPinQ (ctxKey 1 0) [⟨0, true, 9, false⟩]).issues ⟨[(60, false), (5, false)], [], [61], []⟩ = true
    ∧ ((on 1 id).setPinQ (ctxKey 1 0) [⟨0, true, 9, false⟩]).val 60 = 9 := by decide +kernel
/-- A thread of tile 1 with chain links to tile 0 on both sides, whose neighbour links back, reads `up` and writes `dn`. -/
theorem wit_chain_issues : (((({ on 2 (fun x => { x with chain := 0x1011 }) with
    ctxs := [(ctxKey 0 0, { Ctx.free with occ := true, chain := 0x31 }), (ctxKey 2 0, { Ctx.free with occ := true, chain := 0x1011 })] } : State).setUpQ (ctxKey 2 0) [⟨0, true, 4, false⟩])).issues
      ⟨[(62, false)], [], [63], []⟩) = true := by decide +kernel
theorem wit_completion : encode (.add 1 2 3 false false) = [0x04108300] ∧ (on 0 id).self.loops = [] ∧ (on 0 (looping 2)).self.loops = [⟨0, 0, 2⟩] ∧ (on 0 (looping 1)).self.pc = 0 := by decide +kernel
theorem wit_branches : (on 0 (reg 5 3)).issues ⟨[], [(5, false), (6, false)], [], []⟩ = true ∧ (on 256 (reg 5 3)).issues ⟨[], [(5, false)], [], []⟩ = true := by decide +kernel
theorem wit_jalr : (on 0 (reg 5 8)).issues ⟨[], [(5, false)], [5], []⟩ = true ∧ ((on 0 (reg 5 8)).val 5 + BitVec.ofInt 64 (4 : Int)).extractLsb' 0 2 = 0
    ∧ ((on 0 (reg 5 8)).val 5 + BitVec.ofInt 64 (2 : Int)).extractLsb' 0 2 ≠ 0 := by decide +kernel
/-- Loops: depth 4, an end beyond the frame around it, and a fetched end with a count of 0 and of 1. -/
theorem wit_loops : (on 0 (fun x => { x with loops := List.replicate 4 ⟨0, 8, 1⟩ })).self.loops.length = 4 ∧ (on 0 (looping 1)).self.loops.head?.any (fun f => decide (f.stop < 4)) = true
    ∧ (match (withLine (mapped 0xC (on 0 id))).fetch 0 with | .line b _ => b.length == 128 | _ => false) = true ∧ (on 0 (reg 5 1)).issues ⟨[], [(5, false)], [], []⟩ = true := by decide +kernel
theorem wit_full_empty : (on 0 id).issues ⟨[], [], [], [9]⟩ = true ∧ (on 0 id).issues ⟨[], [], [4], []⟩ = true ∧ heldWrite (on 0 id) (on 0 id).me 9 = false
    ∧ ((on 0 (fun x => x.pend 9)).self.cell 9).st = .pending := by decide +kernel

/-- The first and the last byte that a user may store to and load from, and the last of the local memory (R21). -/
theorem wit_local : (on 0 user).localFree localBase 8 true ∧ (on 0 user).localFree (localBase + 0xCDF8) 8 true ∧ (on 0 user).localFree (localBase + 0xCFF8) 8 false
    ∧ (on 0 id).localFree (localBase + 0xFFF8) 8 true ∧ (on 256 user).localFree (localBase + 0xCFF8) 8 true :=
  ⟨localFree_of _ _ _ _ (by decide +kernel) (by decide +kernel) (by decide +kernel), localFree_of _ _ _ _ (by decide +kernel) (by decide +kernel) (by decide +kernel),
   localFree_of _ _ _ _ (by decide +kernel) (by decide +kernel) (by decide +kernel), localFree_of _ _ _ _ (by decide +kernel) (by decide +kernel) (by decide +kernel),
   localFree_of _ _ _ _ (by decide +kernel) (by decide +kernel) (by decide +kernel)⟩
theorem wit_local_issues : (on 0 (reg 5 0xF000000000000000)).issues ⟨[], [(5, false)], [], [6]⟩ = true ∧ (on 0 (reg 5 0xF000000000000000)).issues ⟨[], [(5, false), (6, false)], [], []⟩ = true
    ∧ (on 0 (reg 5 0xF000000000000000)).issues ⟨[(5, false), (6, false)], [], [], []⟩ = true := by decide +kernel
theorem wit_tile : isTile ((on 0 id).access 0xF800000000000000 8 8 false true) 0 0 = true ∧ isTile ((on 0 id).access 0xF800000000000000 8 8 true false) 0 0 = true
    ∧ (on 0 id).rangeHeld 0 (windowSpan 0 0 8).1 (windowSpan 0 0 8).2 = none := by decide +kernel
/-- Mapped accesses, uncached and cached, and one that another launch holds. -/
theorem wit_mapped : isVirt ((mapped 0xC (on 0 user)).access 0x40 8 8 true false) 0x40 0x40 0xC = true ∧ (mapped 0xC (on 0 id)).movesTo 0x40 0xC = none ∧ (mapped 0xC (on 0 id)).ntConflict 0x40 = none
    ∧ (mapped 0xC (on 0 id)).caches 0 0xC = false ∧ (mapped 0xC (on 0 id)).heldByOther 0 0 = false ∧ (mapped 0x1C (on 0 id)).caches 0 0x1C = false := by decide +kernel
/-- A tile cache of 2 ways with line 0 in way 0, sector 0 valid, dirty or not. -/
def cached (d : Nat) (s : State) : State := s.setTile 0 { s.tile 0 with n := 2, lines := [⟨0, 0, 0, 1, d, 0x1C, 0⟩] }

/-- Another launch holds line 0. -/
def held (s : State) : State := { s with journal := [{ vault := 0, guard := true, tenant := 0, launch := 9, num := 9, line := 0, la := 0, attr := 0x4C, old := List.replicate 128 0, bad := 0 }] }

theorem wit_mapped_more : (held (mapped 0xC (on 0 id))).heldByOther 0 0 = true ∧ (cached 1 (mapped 0x1C (on 0 id))).caches 0 0x1C = true
    ∧ isVirt ((cached 1 (mapped 0x1C (on 0 id))).access 0x40 8 8 true false) 0x40 0x40 0x1C = true ∧ (cached 1 (mapped 0x1C (on 0 id))).ntConflict 0x40 = none := by decide +kernel
theorem wit_cached_hit : (cached 1 (mapped 0x1C (on 0 id))).ownPending 0 8 = false ∧ ((cached 1 (on 0 id)).tile (tileOf 0)).find 0 = some ⟨0, 0, 0, 1, 1, 0x1C, 0⟩
    ∧ CLine.has ⟨0, 0, 0, 1, 1, 0x1C, 0⟩ (sectorOf 8) = true := by decide +kernel
theorem wit_nontemporal : (on 0 id).nt = [] ∧ ((on 0 id).ntLines 0).length < 4 := by decide +kernel
/-- A queue with room and one without, and a filled entry to take. -/
theorem wit_queues : hasPartner 0 0 = true ∧ hasPartner 255 7 = true ∧ ((on 0 id).pinQ (on 0 id).poutKey).length < 32
    ∧ 32 ≤ (((on 0 id).setPinQ (on 0 id).poutKey (List.replicate 32 ⟨0, true, 0, false⟩)).pinQ (on 0 id).poutKey).length
    ∧ ((on 0 id).setPinQ (on 0 id).me [⟨0, true, 5, true⟩]).pinQ (on 0 id).me = [⟨0, true, 5, true⟩] := by decide +kernel
/-- Atomics: widths of 4, 8 and 16 bytes with their registers, the release part not asked for, waited for and done at once. -/
theorem wit_atomics : (on 0 id).issues ⟨[], (5, false) :: amoSrcs .cas 16 56, [], amoDsts 16 56⟩ = true ∧ (on 0 id).issues ⟨[], (5, true) :: amoSrcs .fadd 4 6, [], amoDsts 4 6⟩ = true
    ∧ smGet false (on 0 id).bad (localKey 0 0 / 16) = false ∧ ((on 0 id).releaseStart 0).reqsOf (on 0 id).agent = [] := by decide +kernel
theorem wit_released : (on 0 id).released (on 0 id) false 0 ∧ (on 0 (fun x => { x with memo := [1] })).released (on 0 (fun x => { x with memo := [1] })) true 2
    ∧ (on 0 id).released ((on 0 id).releaseStart 1) true 1 :=
  ⟨.inl ⟨rfl, rfl⟩, .inr (.inl ⟨rfl, by decide +kernel, rfl⟩), .inr (.inr ⟨rfl, by decide +kernel, rfl, by decide +kernel⟩)⟩
/-- The checks of an access, each failing or passing where the one before it does not (R72). -/
theorem wit_access : (5 % 8 ≠ 0) ∧ (localBase + 0xCE00) % 8 = 0 ∧ (on 0 user).self.xfault = none ∧ (mapped 0xC (on 0 user)).tlbHit 0 0 0 = some { tenant := 0, page := 0, size := 65536, pa := 0, attr := 0xC }
    ∧ (mapped 0x100C (on 0 user)).tlbHit 0 0 0xFFF8 = some { tenant := 0, page := 0, size := 65536, pa := 0, attr := 0x100C } ∧ (mapped 0xC (on 0 user)).home 0 = some (0, 0) ∧ kindOf 1 = .e := by decide +kernel
theorem wit_fences : (inFlight .load (on 0 id)).reqsOf (on 0 id).agent ≠ [] ∧ ((inFlight .load (on 0 id)).reqsOf (on 0 id).agent).filter (·.reads) ≠ []
    ∧ ((inFlight .store (on 0 id)).reqsOf (on 0 id).agent).filter (·.reads) = [] ∧ ((inFlight .store (on 0 id)).reqsOf (on 0 id).agent).filter (fun r => r.kind == .store) ≠ [] := by decide +kernel
theorem wit_fence_parts : kindOf (cached 1 (on 0 id)).cur.1 = .a ∧ kindOf (on 1 id).cur.1 ≠ .a ∧ bitAt (((cached 1 (on 0 id)).tile 0).lines.headD ⟨0, 0, 0, 0, 0, 0, 0⟩).dirty 0 = true := by decide +kernel
theorem wit_maintenance : isVirt ((cached 1 (mapped 0x1C (on 0 (reg 5 0x40)))).access 0 1 1 true false) 0 0 0x1C = true ∧ ((on 0 (reg 5 0x40)).val 5).toNat / 128 * 128 / 2 ^ 60 ≠ 15
    ∧ (cached 1 (mapped 0x1C (on 0 id))).storesTo 0 = [] ∧ isVirt ((mapped 0x18 (on 0 (reg 5 0x40))).access 0 1 1 false false) 0 0 0x18 = true := by decide +kernel
/-- A semaphore with a value, with someone waiting, and one that the context has been given. -/
def sem (v : Nat) (o : List SemWait) (g : List Nat) (s : State) : State := s.setSem 3 { val := v, order := o, taken := g }
theorem wit_semaphores : ((sem 4 [] [] (on 0 (reg 5 4))).sem 3).order = [] ∧ ((on 0 (reg 5 4)).val 5).toNat ≤ ((sem 4 [] [] (on 0 (reg 5 4))).sem 3).val
    ∧ ((sem 3 [] [] (on 0 (reg 5 4))).sem 3).val < 4 ∧ (on 0 id).me ∈ ((sem 0 [] [ctxKey 0 0] (on 0 (reg 5 4))).sem 3).taken ∧ 2 ^ 32 ≤ ((on 0 (reg 5 0x100000000)).val 5).toNat
    ∧ (on 0 (reg 5 4)).issues ⟨[(5, false)], [], [], []⟩ = true := by decide +kernel
/-- A timeline with 3 issued commands of which 2 are done. -/
theorem wit_timelines : (on 0 (fun x => { x with tls := [(0, ⟨3, 2, []⟩)] })).self.timeline 0 = ⟨3, 2, []⟩ ∧ (on 1 id).reps = [] ∧ ((on 1 id).core 1).ring = [] := by decide +kernel
theorem wit_resize : ((cached 0 (on 0 id)).tile 0).n = 2 ∧ ((on 0 id).tile 0).n = 0 ∧ (on 0 id).memOk = true ∧ (on 0 id).cmds = [] := by decide +kernel
/-- Traps: with a handler, without one, in the first fetch of one, as a moth, in firmware mode; of the steward; and a consumption in a cluster. -/
theorem wit_traps : ((on 0 user).tenant ((on 0 user).ctx (ctxKey 0 0)).tenant).tvec ≠ 0 ∧ (consumes ((on 0 user).ctx (ctxKey 0 0)) 0x0C 0 && inCluster (on 0 user) 0 ((on 0 user).ctx (ctxKey 0 0))) = false
    ∧ ((on 0 user).tenant 5).tvec = 0 ∧ ((on 0 (fun x => { x with entering := true })).ctx (ctxKey 0 0)).entering = true ∧ ((on 0 (fun x => { x with priv := .firmware })).ctx (ctxKey 0 0)).priv = .firmware
    ∧ ((on 256 (fun x => { x with home := some ⟨0, 0, 0⟩ })).ctx (ctxKey 256 0)).home ≠ none := by decide +kernel
/-- A thread of launch 1 in a cluster that owns tile 0. -/
def clustered (s : State) : State := s.setTile 0 { s.tile 0 with owner := some 1 }
theorem wit_consumption : (consumes ((clustered (on 0 (fun x => { x with launch := 1 }))).ctx (ctxKey 0 0)) 0x09 0
    && inCluster (clustered (on 0 (fun x => { x with launch := 1 }))) 0 ((clustered (on 0 (fun x => { x with launch := 1 }))).ctx (ctxKey 0 0))) = true := by decide +kernel
/-- `rte`: saved modes 0 to 3, a misaligned and an aligned tpc, user mode. -/
theorem wit_rte : bits (on 0 (fun x => { x with tcause := 0x0C })).self.tcause.toNat 11 10 = 0 ∧ bits (on 0 (fun x => { x with tcause := 0x40C })).self.tcause.toNat 11 10 = 1
    ∧ bits (on 0 (fun x => { x with tcause := 0x80C })).self.tcause.toNat 11 10 = 2 ∧ bits (on 0 (fun x => { x with tcause := 0xC0C })).self.tcause.toNat 11 10 = 3
    ∧ (on 0 (fun x => { x with tpc := 2 })).self.tpc.toNat % 4 ≠ 0 ∧ (on 0 id).cur.2 ≠ 8 ∧ (on 0 user).self.priv = .user := by decide +kernel
/-- R362 undoes R359: `sys` from user mode and `rte` give the mode, the pc behind `sys` and the loop frames back. -/
theorem ex_rte : ((after .rte { after (.sys 5) (on 0 (fun x => { x with priv := .user, pc := 0x40 })) with cur := (0, 0) }).ctx (ctxKey 0 0)).pc = 0x44
    ∧ ((after .rte (after (.sys 5) (on 0 user))).ctx (ctxKey 0 0)).priv = .user := by decide +kernel
theorem wit_sig : (on 0 (fun x => { x with sigctl := 0x10000, sig := 7 })).self.sigctl.getLsbD 16 = true ∧ (on 0 (fun x => { x with sigctl := 0x10000, sig := 7 })).self.sig ≠ 8
    ∧ (on 0 id).self.sigctl.getLsbD 16 = false ∧ (on 0 id).self.loops = [] := by decide +kernel
theorem wit_special : (on 0 id).issues ⟨[(5, false)], [], [], []⟩ = true ∧ (on 0 id).issues ⟨[], [], [5], []⟩ = true ∧ (on 0 user).self.priv = .user ∧ (on 0 id).self.priv ≠ .user
    ∧ bits ((on 0 (reg 5 0xC00)).val 5).toNat 11 10 = 3 ∧ bits ((on 0 (reg 5 9)).val 5).toNat 3 0 = 9 ∧ bits ((on 0 (reg 5 8)).val 5).toNat 31 4 = 0 := by decide +kernel
/-- The value of `cpuid` number 0 of a firmware read and the pc that register 0 gives (R15, R486). -/
theorem ex_rdsr : result (.rdsr 5 0) (on 0 (fun x => { x with pc := 0x48 })) 5 = 0x48 ∧ result (.rdsr 5 2) (on 3 id) 5 = 0x30 := by decide +kernel
theorem wit_chain_write : (on 0 id).chainBad 0 0 0 = false ∧ (on 0 id).chainBad 0 0 0x100000 = true ∧ (on 0 id).self.ctxsel.toNat % 16 = 0 := by decide +kernel
theorem wit_injection : einjBad ({ on 256 id with arg := { EvArg.zero with a := 0, w := 0x200001 } } : State).arg.w.toNat = false ∧ (0x200001 : Word).getLsbD 0 = true := by decide +kernel

/-- Counter 3 of core 0, owned by tenant 0, with a mailbox of one slot at 0x400 and a count, changed by f. -/
def ctr (f : Counter → Counter) (s : State) : State := s.setCounter (ctrKey 0 3) (f { Counter.zero with owner := some 0, count := 2, reload := 1, base := 0x400, cap := 1, mask := false })

/-- A pending activation. -/
def pend : PendAct := { aid := 5, uid := 0, msgs := 0, first := 0, entry := 0, prio := 0, tenant := 0, job := 0, launch := 0, group := 0, rect := 0, byLaunch := false }

theorem wit_counters : ((ctr id (on 0 (reg 5 3))).counter (ctrKey 0 3)).owner = some 0 ∧ isLaunchCtr (ctrKey 0 3) = false ∧ isLaunchCtr (ctrKey 0 63) = true ∧ isLaunchCtr (ctrKey 300 63) = false
    ∧ (ctr id (on 0 (reg 5 3))).issues ⟨[(5, false), (6, false)], [], [], []⟩ = true ∧ ((ctr id (on 0 id)).counter (ctrKey 0 3)).running = [] ∧ ((on 0 (reg 6 (0xF000000000000000 + 0x10))).val 6).toNat = localBase + 0x10 := by decide +kernel
/-- A decrement below the count, one that reaches it, a full mailbox, 127 pending activations, and another tenant's counter. -/
theorem wit_counter_application : 1 < ((ctr id (on 0 id)).counter (ctrKey 0 3)).count ∧ ((ctr (fun c => { c with ring := [(0, false)] }) (on 0 id)).counter (ctrKey 0 3)).cap ≤ 1
    ∧ ((ctr (fun c => { c with pending := List.replicate 127 pend }) (on 0 id)).counter (ctrKey 0 3)).pending.length = 127 ∧ ((ctr id (on 0 id)).counter (ctrKey 0 3)).owner ≠ some 1
    ∧ ((ctr id (on 0 id)).applyCtr (ctrKey 0 3) 0 0 none 2).1 = 0 ∧ ((ctr id (on 0 id)).applyCtr (ctrKey 0 3) 1 0 none 2).1 = 6 := by decide +kernel
/-- R129: a decrement of more than the count makes one activation, and the count becomes the reload value. -/
theorem ex_counter : (((ctr id (on 0 id)).applyCtr (ctrKey 0 3) 0 0 none 200).2.counter (ctrKey 0 3)).count = 1 ∧ (((ctr id (on 0 id)).applyCtr (ctrKey 0 3) 0 0 none 200).2.counter (ctrKey 0 3)).pending.length = 1 := by decide +kernel
/-- A header of one word to counter 0 of a core, and one to a register. -/
theorem wit_send : bits (0x80000000 : Word).toNat 48 46 + 1 = 1 ∧ (on 0 (reg 5 0x80000000)).issues ⟨[(5, false), (6, false)], [], [7], []⟩ = true ∧ bits (0x80000000 : Word).toNat 53 52 ≠ 2
    ∧ smGet 0 ((on 0 id).core 0).dir (dirKey 0 (0x80000000 % 2 ^ 32)) = 0 ∧ bits (0x0000000580000000 : Word).toNat 37 32 = 5
    ∧ (match (mapped 0xC (on 0 (reg 6 0x40))).resolve ((on 0 (reg 6 0x40)).val 6).toNat with | .virt _ p _ => p == 0x40 | _ => false) = true := by decide +kernel

/-- A packet of core 0 for counter 3 of core 0, changed by f. -/
def packet (f : Packet → Packet) : Packet :=
  f { id := 50, kind := .message, req := 60, scube := 0, score := 0, src := 7, tenant := 0, job := 0, hdr := 0x0000004000000000, words := [9], cube := 0, core := 0, hops := 0, asked := false, target := 4, firm := [] }
def carrying (p : Packet) (s : State) : State := { s with net := [p], arg := { EvArg.zero with a := 50 } }

theorem wit_packets : (carrying (packet id) (ctr id (on 0 id))).net.find? (fun q => q.id == 50) = some (packet id) ∧ (carrying (packet id) (on 0 id)).cancelled 0 0 = false
    ∧ ({ carrying (packet id) (on 0 id) with filters := [⟨0, 0, 0, none, 0, false⟩] } : State).cancelled 0 0 = true ∧ (on 0 id).fenceOver 0 = false
    ∧ ((on 0 id).setTile 0 { (on 0 id).tile 0 with fence := true }).fenceOver 0 = true ∧ (packet id).target ≠ 0 ∧ isStewardEnd ((packet id).hdr.toNat % 2 ^ 32) = false ∧ (packet id).cube = (on 0 id).cube := by decide +kernel
/-- A fill of an empty register of the thread with the name 0x80000000. -/
theorem wit_fill : isThreadEnd 0x80000000 = true ∧ isStewardEnd 0x80000000 = false ∧ (on 0 (fun x => { x with name := 0x80000000 })).residentNamed 0 0x80000000 = some (ctxKey 0 0)
    ∧ ((on 0 (fun x => x.setCell 5 ⟨0, .idle, false⟩)).self.cell 5).st = .idle ∧ ((on 0 id).self.cell 5).st ≠ .idle := by decide +kernel
theorem wit_directory : smGet 0 ((on 0 id).tenant 0).dir 4 = 0 ∧ (on 0 id).peers = [] ∧ ((on 0 id).setCore 0 { (on 0 id).core 0 with stubs := [⟨4, 0, 3, 0⟩] }).stubOf 0 4 = some ⟨4, 0, 3, 0⟩
    ∧ ({ on 0 id with notices := [⟨0, 4, 2 ^ 41⟩] } : State).notices = [⟨0, 4, 2 ^ 41⟩] ∧ ((on 0 id).core 0).dir.length < 64 := by decide +kernel

/-- Group 5 of tenant 0 with the thread as member of rank 0, in generation 1, changed by f. -/
def grp (f : Group → Group) (s : State) : State := { s with groups := [f { newGroup 0 5 with members := [⟨0, 17, 0⟩, ⟨1, 18, 0⟩], gen := 1 }] }
theorem wit_groups : ((grp id (on 0 (reg 5 5))).group 0 5).isSome = true ∧ (((grp id (on 0 id)).group 0 5).bind (·.member (on 0 id).agent)).isSome = false ∧ (on 0 id).self.groups.length < 4
    ∧ ((grp (fun g => { g with members := [⟨0, (on 0 id).agent, 0⟩] }) (on 0 id)).group 0 5).any (fun g => g.member (on 0 id).agent == some ⟨0, (on 0 id).agent, 0⟩ && !g.waits ⟨0, (on 0 id).agent, 0⟩) = true
    ∧ (on 0 id).group 0 5 = none := by decide +kernel
/-- R157: the worked record: offsets 0, 80 and 160 (held as one more) have the median 80, and the member that left does not count. -/
theorem ex_straggler : (Crossing.mk 5 [(0, 1), (1, 81), (2, 161), (3, leftCode)]).median = 81 := by decide +kernel

theorem wit_float : (on 0 id).issues ⟨[(10, false), (11, false), (12, false)], [], [10], []⟩ = true ∧ Fmt.f32.val 0x7FC00BAD = .poison ∧ Fmt.f32.val 0x7F800001 = .snan ∧ Fmt.f32.val 0x7FC00000 = .qnan
    ∧ Fmt.f32.val 0xFF800000 = .inf true ∧ Fmt.f32.val 0x80000000 = .num ⟨true, 0, -149⟩ ∧ Fmt.f16.val 0x3C00 = .num ⟨false, 1024, -10⟩ := by decide +kernel
/-- 1 + 1 = 2, 1 / 0 = infinity with the flag of R105, and the root of 4. -/
theorem ex_float : fpAdd .f32 0 0x3F800000 0x3F800000 = ⟨0x40000000, 0⟩ ∧ fpDiv .f32 0 0x3F800000 0 = ⟨0x7F800000, flDivZero⟩ ∧ fpSqrt .f32 0 0x40800000 = ⟨0x40000000, 0⟩ := by decide +kernel
/-! ### Threads, parcels, launches, requests -/

theorem wit_end : (on 0 id).cur.2 ≠ 8 ∧ (∃ r ∈ (on 0 (fun x => x.pend 5)).self.regs, r.2.st = .pending) ∧ ((on 0 id).setSelf { ((on 0 id).self.feed .endThread).issuedAt 0 with ending := true, park := some .drained }).endReady (on 0 id).me = true := by decide +kernel

/-- Launch 1 of tenant 0 over tiles 0 and 1, as an LPB of two tiles side by side makes it, changed by f. -/
def launch (f : Launch → Launch) (s : State) : State :=
  { s with launches := [f { ({ on 0 id with nid := 1 } : State).newLaunch 0 [0x100000000, 0x1000, 0, 0x0040002200000004, 0, 0, 0, 0x40] none with st := .running, placed := true, w := 2, h := 1, tiles := [0, 1] }]
           tenants := [(0, { Tenant.zero with live := true, tvec := 0x2000, tiles := 3 })] }
/-- Its tiles. -/
def owned (s : State) : State := (launch id s).setTile 0 { s.tile 0 with owner := some 1 }

theorem wit_self : ((owned (on 0 id)).tile (tileOf 0)).owner = some 1 ∧ (((owned (on 0 id)).launch 1).map (·.w)) = some 2 ∧ ((on 0 id).tile (tileOf 0)).owner = none := by decide +kernel
/-- Counter 3 with a pending activation of no cancelled job starts; all eight contexts are free but the first. -/
def pending1 (s : State) : State := { (ctr (fun c => { c with pending := [pend] }) s) with arg := { EvArg.zero with a := 0 } }
theorem wit_activation : ((pending1 (on 0 id)).bestCtr 0).map (·.1) = some 3 ∧ ((on 0 id).bestCtr 0) = none ∧ (pending1 (on 0 id)).cancelled 0 0 = false
    ∧ ({ pending1 (on 0 id) with filters := [⟨0, 0, 0, none, 0, false⟩] } : State).cancelled 0 0 = true := by decide +kernel
theorem wit_allocatable : ({ pending1 (on 0 id) with ctxs := (upTo 7).map (fun i => (ctxKey 0 i, { Ctx.free with occ := true })) } : State).allocatable 0 = [7] := by decide +kernel
/-- A thread parked on s5 with a lower priority than the activation can be spilled. -/
def parked (s : State) : State := { s with ctxs := (upTo 8).map (fun i => (ctxKey 0 i, ({ Ctx.free with occ := true, uid := 7 + i, prio := 1, park := some (.reg 5), live := 0x20 } : Ctx).setCell 5 ⟨0, .idle, false⟩)) }
theorem wit_spill : (parked (pending1 (on 0 id))).spillable (ctxKey 0 0) = true ∧ (parked (pending1 (on 0 id))).spillVictim 0 0 = some 0 ∧ ((parked (pending1 (on 0 id))).freeSlots 0).head? = some 0
    ∧ (parked (pending1 (on 0 id))).ntOf 7 = [] ∧ (liveRegs (on 0 id).self.live).length ≤ 64 := by decide +kernel
/-- A spilled thread whose register has become full is reloaded. -/
def spilled (s : State) : State :=
  { s with ctxs := (upTo 7).map (fun i => (ctxKey 0 (i + 1), { Ctx.free with occ := true })), stored := [{ core := 0, goal := 0, slot := 0, frame := false, held := false, ready := true, reg := 5, ret := false, recOf := 0, msgs := [], pins := 0, vops := [], rep := none, ctx := { Ctx.free with occ := true, uid := 70 } }] }
theorem wit_reload : ((spilled (on 0 id)).bestReady 0).isSome = true ∧ (spilled (on 0 id)).allocatable 0 = [0] := by decide +kernel

/-- A parcel of launch 1 in slot 0, changed by f. -/
def parcel (f : Parcel → Parcel) : Parcel := f { slot := 0, e := 5, p := 0xC0000000, st := .queued, order := 1, since := 0, owner := 0, borrowed := none, launch := 1 }
def withParcels (l : List Parcel) (s : State) : State := (owned s).setTile 0 { (owned s).tile 0 with parcels := l }
theorem wit_parcels : ((withParcels [parcel id] (on 0 id)).takeable 0).map (·.slot) = some 0 ∧ (withParcels [] (on 0 id)).takeable 0 = none ∧ (withParcels [] (on 0 id)).workLeft 1 = true
    ∧ (owned (on 0 (reg 6 0))).issues ⟨[(5, false), (6, false)], [], [], []⟩ = true ∧ 6 ≤ bits (0x38000000 : Word).toNat 29 27 ∧ bits (0x00000000 : Word).toNat 63 56 = 0
    ∧ ((withParcels [parcel (fun p => { p with st := .taken (on 0 id).agent })] (on 0 id)).mine 0).map (·.2.slot) = some 0 := by decide +kernel
/-- A tile without a free slot (R162). -/
theorem wit_full_tile : ∀ i, i < 256 → ∃ q ∈ (withParcels ((upTo 256).map (fun j => parcel (fun p => { p with slot := j }))) (on 0 id) |>.tile 0).parcels, q.slot = i := by
  intro i hi
  have h : (List.range 256).all (fun i => ((withParcels ((upTo 256).map (fun j => parcel (fun p => { p with slot := j }))) (on 0 id)).tile 0).parcels.any (fun q => q.slot == i)) = true := by decide +kernel
  simpa using List.all_eq_true.mp h i (List.mem_range.mpr hi)
theorem wit_steal : ((grp (fun g => { g with cubes := [0, 3], members := [⟨0, (on 0 id).agent, 0⟩] }) (owned (on 0 (reg 5 0x300000005)))).group 0 5).any (fun g => g.cubes != [] && (g.member (on 0 id).agent).isSome) = true
    ∧ ((on 0 (reg 5 0x300000005)).val 5).toNat / 2 ^ 32 ≠ (on 0 id).cube := by decide +kernel
theorem wit_moving : ({ owned (on 0 id) with moving := [(0, parcel id)] } : State).moving = [(0, parcel id)] ∧ ∀ q ∈ ((owned (on 0 id)).tile 0).parcels, q.slot ≠ 0 := by decide +kernel
theorem wit_backlog : ((launch id (on 0 id)).launch 1).any (fun l => l.moved.isEmpty && decide (l.next < l.count)) = true ∧ (owned (on 0 id)).feedTile 1 0 = some 0 := by decide +kernel

/-- Launches: a good LPB, one with an id of 0, one that is refused for its count, and a cancelled one. -/
theorem wit_accept : ((launch (fun l => { l with lid := 9 }) (on 0 id)).accept 0 [0x100000000, 0x1000, 0, 0x0040002200000004, 0, 0, 0, 0x40] none).launches.map (·.st) = [.running, .waiting]
    ∧ ((launch id (on 0 id)).accept 0 [0x000000000, 0x1000, 0, 0x0040002200000004, 0, 0, 0, 0x40] none).launches.map (·.status) = [0, 3]
    ∧ ((launch (fun l => { l with lid := 9 }) (on 0 id)).accept 0 [0x100000000, 0x1000, 0, 0x0040002201000000, 0, 0, 0, 0x40] none).launches.map (·.status) = [0, 1] := by decide +kernel
def scanning (f : Launch → Launch) (s : State) : State := { launch (fun l => f { l with st := .placing, placed := false, tiles := [], w := 0, h := 0 }) s with arg := { EvArg.zero with a := 1 } }
theorem wit_launches : ((launch (fun l => { l with st := .waiting }) (on 0 id)).launch 1).any (fun l => l.st == .waiting && l.prereqs.all (fun p => p == 0)) = true
    ∧ (scanning id (on 0 id)).engines < 4 ∧ ((scanning id (on 0 id)).launch 1).any (fun l => l.st == .placing && !l.engine && decide (l.width * l.height = 2)) = true
    ∧ ((scanning (fun l => { l with engine := true, left := 9 }) (on 0 id)).launch 1).any (fun l => l.engine && l.backoff.isNone && decide (0 < l.left) && decide (l.tiles.length < l.width * l.height)) = true
    ∧ (scanning id (on 0 id)).tileOpen 0 0 = true ∧ (scanning id (on 0 id)).tileOpen 0 2 = false := by decide +kernel
theorem wit_commit : ((scanning (fun l => { l with engine := true, tiles := [0, 1] }) (on 0 id)).launch 1).any (fun l => l.reservedAll && decide l.tiles.Nodup) = true := by decide +kernel
theorem wit_completion_of_launch : ((launch (fun l => { l with st := .completing, phase := 1 }) (on 0 id)).launch 1).any (fun l => l.active && l.guard == .none) = true ∧ (launch id (on 0 id)).launchWrites 1 = false
    ∧ ((launch (fun l => { l with st := .rejected, status := 3 }) (on 0 id)).launch 1).any (fun l => l.phase == 0 && !l.dup) = true
    ∧ (match (launch id (on 0 id)).xlate 0 0x40 false true with | .fault c _ => c == 6 | _ => false) = true := by decide +kernel

/-- A write to the line of another launch is not placed, one to a free line is. -/
def put (l : Nat) : HomeWrite := { line := 0, la := 0x10, bytes := [(0, 7), (15, 9)], bad := false, tenant := 0, attr := 0xC, launch := l }
theorem wit_home : ((on 0 id).placeWrite (put 0)).isSome = true ∧ ((held (on 0 id)).placeWrite (put 0)).isNone = true ∧ ((held (on 0 id)).heldRec 0).map (·.launch) = some 9 ∧ ((put 0).bytes.map (·.1)).Nodup
    ∧ smGet 0 (on 0 id).ecc 1 = 0 ∧ (on 0 id).heldRec 0 = none := by decide +kernel
/-- A request of the thread with a result, and one to perform. -/
def req1 (f : Req → Req) (s : State) : State := { s with reqs := [f { s.newReq 50 .load (.reg 5 ⟨8, false⟩) 0x40 8 0xC with agent := s.agent }], arg := { EvArg.zero with a := 50 } }
theorem wit_requests : ((req1 (fun r => { r with sampled := true }) (on 0 id)).req 50).any (fun r => r.sampled && r.acq == 0) = true ∧ (on 0 id).ctxOfAgent (on 0 id).agent = some (ctxKey 0 0)
    ∧ ((req1 id (mapped 0xC (on 0 id))).req 50).any (fun r => !r.sampled && !r.sent && r.mask.isEmpty) = true ∧ (mapped 0xC (on 0 id)).isRemote 0x40 = false
    ∧ ((req1 (fun r => { r with kind := .store, mask := [0] }) (on 0 id)).req 50).any (fun r => r.kind == .store) = true := by decide +kernel
theorem wit_waits : ((on 0 (fun x => { x with park := some (.guard 0 0x40) })).ctx (ctxKey 0 0)).park = some (.guard 0 0x40)
    ∧ ({ on 0 id with ivals := [(ivalKey 0 0, { Ival.zero with st := .draining })] } : State).largestDrain 0 = some (0, 0) := by decide +kernel
/-- A walk whose root is 0 faults, and one of a table with a leaf at the last level ends. -/
theorem wit_walks : ((on 0 id).tenant 3).xroot = 0 ∧ (match (on 0 id).readEntry 0 with | .noRegion => true | _ => false) = true ∧ (match (mapped 0xC (on 0 id)).readEntry 0 with | .val e => e == 0 | _ => false) = true
    ∧ ({ on 0 id with walks := [⟨0, 0x10000, [0], [ctxKey 0 0], [], false⟩] } : State).walks.find? (fun q => q.tenant == 0 && q.va / 65536 == 1) = some ⟨0, 0x10000, [0], [ctxKey 0 0], [], false⟩ := by decide +kernel
/-- A moth on its way, one refused, one in an inbox, and one that comes back. -/
def moth (slot : Nat) (ret : Bool) (s : State) : State := { s with stored := [{ core := 256, goal := 256, slot := slot, frame := false, held := false, ready := true, reg := 0, ret := ret, recOf := 0, msgs := [], pins := 0, vops := [], rep := none, ctx := { Ctx.free with occ := true, uid := 7 } }], arg := { EvArg.zero with a := 7 } }
theorem wit_moths : (moth 25 false (on 0 (fun x => { x with park := some .reloc }))).departing 7 = some (ctxKey 0 0) ∧ (moth 25 true (on 0 (fun x => { x with park := some .away }))).heldHome 7 = some (ctxKey 0 0)
    ∧ (moth 24 false (on 0 id)).stored.any (fun u => u.slot == 24 && u.ctx.uid == 7) = true ∧ (on 0 id).self.home = none ∧ (on 256 (fun x => { x with home := some ⟨0, 0, 0⟩ })).self.home ≠ none := by decide +kernel

/-! ### Vectors, partner transfers, commands, arrays, cisterns -/

/-- A bank whose registers 1 and 2 hold words, with predicate 1 selecting lane 0. -/
def bank : VBank := { v := [(1, ⟨7, false⟩), (2, ⟨5, false⟩)], p := [(1, 1)], tag := none, fresh := true, bad := [] }
/-- R189: a merged-out lane keeps its value, and a lane of the predicate is written. -/
theorem ex_vector : bank.lane 1 (vwidth .i32) 0 = 7 ∧ (vecEval (.vaddInt 3 1 2 .i32 0) bank [] 0).lane 32 0 = 12 ∧ (vecEval (.vsubInt 2 2 1 .i32 1) bank [] 0).lane 32 0 = 2 ^ 32 - 2
    ∧ (vecEval (.vaddInt 2 1 2 .i32 1) bank [] 0).lane 32 1 = 0 := by decide +kernel
theorem wit_predicates : vwidth .i32 = 32 ∧ bitAt (({ bank with p := [(1, 1), (2, 5)] } : VBank).pred 1) 0 = true ∧ (0 : Nat) < vlanes .i32 ∧ bitAt (bank.pred 2) 0 = false
    ∧ (vecEval (.pfirst 4 2 .i32 1) { bank with p := [(1, 1), (2, 5)] } [] 0).s = some (4, 0) ∧ (vecEval (.pfirst 4 2 .i32 1) bank [] 0).s = some (4, BitVec.allOnes 64) ∧ VTy.isInt .i32 = true
    ∧ (vecEval (.vredmax 4 1 .i32 1) bank [] 0).s = some (4, 7) := by decide +kernel

/-- A vector instruction that waits, one that runs and its ring entry. -/
def vop (out : Option VOut) : VOp := { id := 50, core := 1, ctx := 0, agent := (on 1 id).agent, seq := 0, pc := 0, instr := .vaddInt 3 1 2 .i32 0, scalars := [], isPass := false, ord := 0, rm := 0, out := out }
def entry (f : Option Late) : RingEntry := { agent := (on 1 id).agent, ctx := 0, name := 0, tenant := 0, seq := 0, pass := 0, pc := 0, word := 0, kind := 4, user := false, fault := f, orphan := false }
def rings (l : List RingEntry) (s : State) : State := s.setCore 1 { s.core 1 with ring := l }
def vecOn (o : VOp) (b : VBank) : State := rings [entry none] { on 1 id with vops := [o], vbanks := [(ctxKey 1 0, b)], arg := { EvArg.zero with a := 50 } }
theorem wit_dispatch : (on 1 id).issues ⟨[], [], [], []⟩ = true ∧ ((on 1 id).vbank (on 1 id).me).tag = none ∧ ((on 1 id).core 1).ring.length < 64 ∧ (on 1 id).vwork (on 1 id).me = []
    ∧ 64 ≤ ((rings (List.replicate 64 (entry none)) (on 1 id)).core 1).ring.length ∧ 16 ≤ ((({ on 1 id with vops := List.replicate 16 (vop none) } : State).vwork (on 1 id).me).filter (fun o => !o.isPass && o.out.isNone)).length
    ∧ (on 1 (reg 5 1)).issues ⟨[], [5].map (fun r => (r, false)), [], []⟩ = true := by decide +kernel
theorem wit_vector_work : (vecOn (vop none) bank).vops.find? (fun q => q.id == 50) = some (vop none) ∧ (vecOn (vop none) bank).vopPoisoned (vop none) = false
    ∧ ((vecOn (vop none) bank).ctx (ctxKey 1 0)).fmode.toNat % 4 = 0 ∧ scalarEval (fun _ => 0) (vop none).instr = none ∧ (vecOn (vop none) { bank with v := [(1, ⟨7, true⟩)] }).vopPoisoned (vop none) = true
    ∧ (scalarEval (fun _ => 3) (.add 1 2 3 false false)).isSome = true ∧ (vecOn (vop (some VOut.none)) bank).vops.head?.bind (·.out) = some VOut.none
    ∧ ((rings [entry (some ⟨0x10, 1, 0⟩)] (on 1 id)).lateFault 1 0).bind (·.fault) = some ⟨0x10, 1, 0⟩ := by decide +kernel
/-- A `rep` at pc 0 over the word after it, and its pass. -/
def repOn : Rep := { key := ctxKey 1 0, word := 0, pc := 0, n := 2, body := encode (.vaddInt 3 1 2 .i32 0), stride := 1, fields := 1, window := 4, pass := 1, pos := 0, seq0 := 0, id := 60, rm := 0, user := false }
theorem wit_reps : (repOn.passInstr 1 (repOn.body.getD 0 0)).isSome = true ∧ repOn.running = true ∧ (on 1 (reg 5 3)).issues ⟨[], [(5, false)], [], []⟩ = true ∧ ((on 1 (reg 5 65536)).val 5).toNat = 65536
    ∧ ((withLine (mapped 0xC (on 1 id))).capture 4 1 []).1 = [0] ∧ ((withLine (mapped 0xC (on 1 id))).capture 4 1 []).2.1 = none ∧ repOn.field 1 1 3 = 0 ∧ repOn.field 1 2 3 = 3 := by decide +kernel

/-- An address register and a partner context, for the transfers of R230 to R232. -/
def withPartner (s : State) : State := { s with ctxs := s.ctxs ++ [(s.partnerKey, { Ctx.free with occ := true })] }
theorem wit_partner : (withPartner (on 0 (reg 5 (BitVec.ofNat 64 localBase)))).issues ⟨[], [(5, false)], [], []⟩ = true ∧ (withPartner (on 0 id)).bankTagged (on 0 id).partnerKey = false
    ∧ ((withPartner (on 0 id)).ctx (on 0 id).partnerKey).occ = true ∧ (withPartner (on 0 id)).vwriters (on 0 id).partnerKey 3 = [] ∧ ((withPartner (on 0 id)).partnerCell 3).poison = false
    ∧ (({ withPartner (on 0 id) with vbanks := [((on 0 id).partnerKey, { bank with v := [(3, ⟨0, true⟩)] })] } : State).partnerCell 3).poison = true
    ∧ ((on 0 (reg 5 (BitVec.ofNat 64 localBase))).val 5 + BitVec.ofInt 64 (128 * (1 : Int))).toNat % 128 = 0 ∧ ((on 0 (reg 5 8)).val 5 + BitVec.ofInt 64 (0 : Int)).toNat % 128 ≠ 0 := by decide +kernel
theorem wit_partner_local : (on 0 id).localFree localBase 128 false ∧ (on 0 id).localFree (localBase + 0xFF80) 128 true ∧ (on 0 id).localFree (localBase + 0xFFFC) 4 true :=
  ⟨localFree_of _ _ _ _ (by decide +kernel) (by decide +kernel) (by decide +kernel), localFree_of _ _ _ _ (by decide +kernel) (by decide +kernel) (by decide +kernel), localFree_of _ _ _ _ (by decide +kernel) (by decide +kernel) (by decide +kernel)⟩

/-- A push command of 16 bytes from local offset 64 to local offset 0, changed by f. -/
def pushCmd (f : Cmd → Cmd) : Cmd := f { id := 50, cls := .push, unit := 0, opc := 0, core := 0, ctx := 0, agent := (on 0 id).agent, name := 0, tenant := 0, job := 0, launch := 0, user := false, tl := 0, num := 1, seq := 0, flags := 0, slots := [BitVec.ofNat 64 (localBase + 64), BitVec.ofNat 64 localBase, 0, 16, 0], st := .queued, waited := 0, flip := 0, after := [], pos := 0, fault := none, work := [], ranges := [], secs := [] }
def withCmd (c : Cmd) (s : State) : State := { s with cmds := [c], arg := { EvArg.zero with a := 50 } }
theorem wit_pushes : (on 0 id).cmds.filter (fun q => q.unit == unitOf 0 && q.cls == .push && q.st == .queued) = [] ∧ (((on 1 id).setArray 0 { (on 1 id).array 0 with owner := some ((on 1 id).agent, 0) }).array (tileOf 1)).owner.any (fun o => o.1 == (on 1 id).agent) = true
    ∧ 32 ≤ (({ on 0 id with cmds := List.replicate 32 (pushCmd id) } : State).cmds.filter (fun q => q.unit == unitOf 0 && q.cls == .push && q.st == .queued)).length := by decide +kernel
theorem wit_ends : ([pushCmd id, pushCmd (fun c => { c with id := 51, flags := 1 })].map (·.id)).Nodup ∧ (on 0 id).ctxOfAgent (pushCmd id).agent = some (ctxKey 0 0) ∧ ((on 0 id).ctx (ctxKey 0 0)).ending = false ∧ (pushCmd id).tl ≠ 4 := by decide +kernel
theorem wit_push_commands : (withCmd (pushCmd id) (on 0 id)).cmd 50 = some (pushCmd id) ∧ (pushCmd id).total = 16 ∧ (pushCmd (fun c => { c with opc := 2 })).total = 0 ∧ (withCmd (pushCmd id) (on 0 id)).pushFaults (pushCmd id) = []
    ∧ (pushCmd (fun c => { c with slots := [1, 2, 3, 4, 0] })).slot 0 = 1 ∧ ((withCmd (pushCmd (fun c => { c with opc := 7 })) (on 0 id)).groupFaults (pushCmd (fun c => { c with opc := 7, slots := [0, 0, 0, 0, 4] }))).length ≠ 0
    ∧ (pushCmd id).slot 1 = localBase ∧ (pushCmd id).slot 0 = localBase + 64 ∧ (pushCmd id).slot 2 = 0 ∧ (match (withCmd (pushCmd id) (on 0 id)).destAt (pushCmd id) ((pushCmd id).slot 1) with | some (.host _) => false | _ => true) = true := by decide +kernel
/-- R279, R290: the copy places its 16 bytes, and the command then completes. -/
theorem ex_push : ((after .pushCompletion { withCmd (pushCmd (fun c => { c with st := .started })) (on 0 id) with mem := [(localKey 0 0 + 64, 9)] }).mem) = [(localKey 0 0, 9), (localKey 0 0 + 64, 9)]
    ∧ (after .pushCompletion (withCmd (pushCmd (fun c => { c with st := .started, pos := 16 })) (on 0 id))).cmds = [] := by decide +kernel

/-- Arrays of tile 0: free, owned by the thread, by another, and waited for. -/
def arrayOn (o : Option (Nat × Nat)) (w : List Nat) (s : State) : State := s.setArray 0 { s.array 0 with owner := o, waiting := w }
theorem wit_arrays : ((on 1 id).array 0).owner = none ∧ ((arrayOn (some ((on 1 id).agent, 0)) [77] (on 1 id)).array 0).owner = some ((on 1 id).agent, 0) ∧ ((arrayOn (some (77, 0)) [] (on 1 id)).array 0).owner = some (77, 0) ∧ (on 1 id).agent ≠ 77
    ∧ kindOf 1 = .e ∧ (pushCmd (fun c => { c with cls := .matrix, agent := (on 1 id).agent })).cls = .matrix ∧ (on 1 (reg 5 0xFFFF)).issues ⟨[(5, false)], [], [6], []⟩ = true ∧ ((dimMap []).length, (dimMap (List.range 66)).length, (dimMap [3]).length) = (64, 0, 64) := by decide +kernel
/-- A `cist` with entry 0, cistern set 1 and a block at the start of local memory; with the queue full; a bank number and a bad one. -/
theorem wit_cisterns : (on 256 (fun x => (x.write 5 1).write 6 (BitVec.ofNat 64 localBase))).issues ⟨[], [(5, false), (6, false)], [], [7]⟩ = true ∧ ((on 256 (reg 5 0)).val 5).toNat % 2 ^ 48 = 0
    ∧ (on 256 id).invs = [] ∧ (on 256 (reg 5 447)).issues ⟨[(5, false)], [], [6], []⟩ = true ∧ (447 % 256 = 191) ∧ (on 256 (fun x => { x with priv := .firmware })).self.priv = .firmware
    ∧ 0x100 / 2 ^ 8 % 2 ^ 9 = 1 ∧ 0x20100 / 2 ^ 17 % 2 = 1 ∧ (on 256 user).self.priv = .user := by decide +kernel
theorem wit_removal : (on 0 (reg 5 0x10000)).issues ⟨[(5, false)], [], [], []⟩ = true ∧ 0x10000 % 2 ^ 16 = 0 ∧ (on 0 (reg 5 0x8000000000000000)).val 5 = 0x8000000000000000 ∧ (on 0 (fun x => { x with memo := [1] })).self.memo = [1] ∧ (on 0 id).reqs = [] ∧ (on 0 id).tiles = [] := by decide +kernel
theorem wit_kill : (on 0 (reg 5 3)).issues ⟨[(5, false)], [], [6], []⟩ = true ∧ (on 0 id).findThread 3 = none ∧ (on 0 id).peers = [] ∧ isStewardEnd 0x80000000 = false ∧ isStewardEnd 0xFFFFFFFF = false
    ∧ (match ({ on 0 id with ctxs := [(ctxKey 0 1, { Ctx.free with occ := true, name := 9 })] } : State).findThread 9 with | some (.ctx k) => k == 1 | _ => false) = true := by decide +kernel

/-! ### Engines, the steward, groups over cubes, pre-emption -/

/-- A matrix or health command of tile 0. -/
def mxCmd (cls : EngClass) (opc : Nat) (l : List Word) (f : Cmd → Cmd) : Cmd := pushCmd (fun c => f { c with cls := cls, opc := opc, core := 1, slots := l })
theorem wit_matrix : (withCmd (mxCmd .matrix 2 [0, 0, 0, 0, 0] id) (on 1 id)).matrixFree (mxCmd .matrix 2 [0, 0, 0, 0, 0] id) = true ∧ (withCmd (mxCmd .matrix 2 [0, 0, 0, 0, 0] id) (on 1 id)).matrixFault (mxCmd .matrix 2 [0, 0, 0, 0, 0] id) = none
    ∧ ((withCmd (mxCmd .matrix 2 [1, 0, 0, 0, 0] id) (on 1 id)).matrixFault (mxCmd .matrix 2 [1, 0, 0, 0, 0] id)).isSome = true ∧ (mxCmd .matrix 2 [0, 0, 0, 0, 0] id).matrixSteps = 1 ∧ (mxCmd .matrix 2 [0, 0, 0, 0, 0x80] id).slot 4 / 2 ^ 7 % 4 = 1
    ∧ ((on 1 id).sem 0).order = [] ∧ 0 < (mxCmd .matrix 0 [0, 0, 1, 0, 0] id).matrixSteps ∧ (mxCmd .matrix 0 [0, 0, 0, 0, 0] id).m ≤ (dimMap (ArraySt.zero).retRows).length ∧ pairFlags 0 0 = 0 ∧ pairFlags 0 1 = 1 ∧ pairFlags 2 1 = 2 := by decide +kernel
/-- R310, R311: an INT32 element saturates, and a FP32 one is added with one rounding. -/
theorem ex_matrix : smGet 0 (({ ArraySt.zero with acc := [(0, 0x7FFFFFFF)] } : ArraySt).mmaBlock (mxCmd .matrix 0 [0, 0, 0, 0, 0x400000] id) { ps := [1], fa := [0], fb := [0], ea := [127], eb := [127] }).acc 0 = 0x7FFFFFFF
    ∧ smGet 0 (({ ArraySt.zero with acc := [(0, 0x3F800000)] } : ArraySt).mmaBlock (mxCmd .matrix 0 [0, 0, 0, 0, 0] id) { ps := [2], fa := [0], fb := [0], ea := [127], eb := [127] }).acc 0 = 0x40400000 := by decide +kernel
theorem wit_health : (mxCmd .health 0 [0, 0, 0, 0, 0] id).badHealth = false ∧ ((on 1 id).array 0).cand = none ∧ (({ ArraySt.zero with cand := some ([3], []) } : ArraySt).remapped [3] []).retRows = [3] ∧ (mxCmd .health 1 [1, 0, 0, 0, 0] id).slot 0 ≠ 0 := by decide +kernel

/-- An invocation of entry 0 of vault 0 over one cistern, changed by f. -/
def invOn (f : Inv → Inv) : Inv := f { id := 50, req := 60, core := 256, agent := (on 256 id).agent, name := 0, ctx := 0, tenant := 0, job := 0, launch := 0, user := false, seq := 0, entry := 0, set := 1, args := [0, 1024, 0, 16, 0, 0, 0, 0], st := .queued, after := [], pages := [], pos := 0, ca := [], x := [], xbad := [], bad := none, got := [], outs := [], push := 0, result := none, seqs := [], fault := none, since := 0, asked := false, last := 0 }
def withInv (n : Inv) (s : State) : State := { s with invs := [n], arg := { EvArg.zero with a := 50 } }
theorem wit_invocations : (withInv (invOn id) (on 256 id)).entryValid (invOn id) = true ∧ (withInv (invOn id) (on 256 id)).entryValid (invOn (fun n => { n with entry := 9 })) = false ∧ (withInv (invOn id) (on 256 id)).invFormat (invOn id) = false
    ∧ (withInv (invOn id) (on 256 id)).invFormat (invOn (fun n => { n with args := [0, 1024, 0, 16, 0, 0, 0, 1] })) = true ∧ (invOn (fun n => { n with args := [32, 1024, 0, 16, 0, 0, 0, 0] })).offAlign = true
    ∧ (withInv (invOn id) (on 256 id)).loadedEntry (invOn id) = none ∧ (invOn id).fmt = 0 ∧ 0 < (2 * (invOn id).n + 31) / 32 ∧ (on 256 id).ctxOfAgent (invOn id).agent = some (ctxKey 256 0)
    ∧ (invOn (fun n => { n with ca := [(0, List.replicate 16 0x3F800000)] })).fold = 0x41800000 ∧ (match (withInv (invOn id) (on 256 id)).invCheck (invOn (fun n => { n with entry := 9 })) with | .fault t _ => t == 3 | _ => false) = true := by decide +kernel

/-- A collective command of a member of group 5 over cubes 0 and 3, and its instance. -/
def collGrp (s : State) : State := grp (fun g => { g with cubes := [0, 3], live := true, members := [⟨0, (on 0 id).agent, 0⟩] }) s
def collCmd (f : Cmd → Cmd) : Cmd := pushCmd (fun c => f { c with cls := .collective, opc := 0, slots := [BitVec.ofNat 64 localBase, BitVec.ofNat 64 localBase, 5, 4, 0], work := [0, 0, 0] })
theorem wit_collectives : ((collGrp (on 0 id)).group 0 5).any (fun g => g.multi) = true ∧ (collCmd (fun c => { c with slots := [0, 0, 5, 0, 0] })).slot 3 % 2 ^ 20 = 0 ∧ (withCmd (collCmd id) (on 0 id)).collFaults (collCmd id) = [0x10]
    ∧ (withCmd (collCmd id) (collGrp (on 0 id))).collFaults (collCmd id) = [] ∧ (collCmd id).handle = 5 ∧ (collGrp (on 0 id)).coll 0 5 0 = none
    ∧ ({ collGrp (on 0 id) with colls := [{ Coll.open 0 5 0 with cmd := some 50 }] } : State).collOf (collCmd id) = some { Coll.open 0 5 0 with cmd := some 50 }
    ∧ ({ Coll.open 0 5 0 with params := [0, 1, 0, 0, 0, 0, 0, 0], leaf := some [0], vals := [(1, [0])] } : Coll).value 0 2 = some [0] ∧ receives [0, 0, 0, 0, 0, 0, 0, 0] 0 = true ∧ receives [0, 0, 0, 0, 0, 0, 0, 1] 0 = false
    ∧ parentRank 3 < 3 ∧ (collNode [0, 1, 0, 0, 0, 0, 0, 0] [0x3F800000] [0x3F800000]) = [0x40000000] := by decide +kernel

/-- A firmware command at the steward of core 0: number c, operands w; and an event of a tenant at the head of the queue. -/
def cmdOn (c : Nat) (w : List Word) (f : State → State) : State := { (f (on 0 id)).setCore 0 { (f (on 0 id)).core 0 with event := some { StewEvent.of 0 0x20 0 0 with fw := true, cmd := c, words := 0 :: w } } with arg := EvArg.zero }
def queued (e : StewEvent) (f : State → State) : State := { (f (on 0 id)).setCore 0 { (f (on 0 id)).core 0 with queue := [e] } with arg := EvArg.zero }
theorem wit_steward : ((cmdOn 3 [9] id).core 0).event.any (fun e => e.fw && e.cmd == 3) = true ∧ ((queued (StewEvent.of 0 0x21 0 9) id).core 0).queue = [StewEvent.of 0 0x21 0 9] ∧ ((queued (StewEvent.of 0 0x21 0 9) id).tenant 0).tvec ≠ 0
    ∧ ((on 0 id).tenant 4).tvec = 0 ∧ smGet 0 ((on 0 id).setCore 0 { (on 0 id).core 0 with compare := [(0, 5)] } |>.core 0).compare 0 = 5 ∧ (on 0 user).self.barked = false ∧ (on 0 user).self.park = none := by decide +kernel
/-- R368: the event that a due compare raises enters the handler at tvec + 0x80. -/
theorem ex_steward : ((after .stewardEvent (queued (StewEvent.of 0 0x21 0 9) id)).ctx (ctxKey 0 8)).pc = 0x2080 ∧ ((after .stewardEvent (queued (StewEvent.of 0 0x21 0 9) id)).ctx (ctxKey 0 8)).tval = 9 := by decide +kernel
theorem wit_group_commands : (cmdOn 5 [7, 0, 0, 0] id).anyGroup 0 7 = none ∧ (cmdOn 5 [5] (grp id)).anyGroup 0 5 ≠ none ∧ (cmdOn 5 [7] id).groupCount 0 < 1024 ∧ 1024 ≤ ({ on 0 id with groups := List.replicate 1024 (newGroup 0 9) } : State).groupCount 0
    ∧ ((cmdOn 6 [5] (grp id)).group 0 5).any (fun g => g.cubes == [] && g.tenant == 0 && g.handle == 5) = true ∧ (cmdOn 6 [6] (grp id)).group 0 6 = none
    ∧ ((grp (fun g => { g with live := false, cubes := [0, 3] }) (on 0 id)).anyGroup 0 5).any (fun g => !g.live && g.cubes != []) = true := by decide +kernel
theorem wit_barriers : ((collGrp (on 0 id)).group 0 5).any (fun g => g.rank == 0 && !g.nodeFull && !g.cut && !g.cubeDue) = true
    ∧ ((grp (fun g => { g with cubes := [0, 3], members := [⟨0, 17, 0⟩], cubesIn := [(0, 4), (1, 5)] }) (on 0 id)).group 0 5).any (fun g => g.nodeFull && decide (g.rank ≤ 1) && decide (1 < nodeEnd g.rank g.cubes.length) && g.tenant == 0 && g.handle == 5) = true := by decide +kernel
theorem wit_grants : ((cmdOn 7 [0, 4] id).counter (ctrKey 0 4)).owner = none ∧ ((cmdOn 8 [0, 3] (ctr id)).counter (ctrKey 0 3)).owner = some 0 ∧ ((cmdOn 8 [0, 3] (ctr (fun c => { c with running := [7] }))).counter (ctrKey 0 3)).running ≠ []
    ∧ ((cmdOn 9 [1] (fun s => launch (fun l => { l with lid := 1 }) s)).launches.find? (fun l => l.tenant == 0 && l.lid == 1 && l.placed)).isSome = true := by decide +kernel
/-- Threads to suspend: resident, spilled, held and stopped; and one without free slots. -/
def named (n : Nat) (s : State) : State := s.setCtx (ctxKey 0 1) { Ctx.free with occ := true, uid := 70, name := n }
theorem wit_preempt : (cmdOn 1 [9] (named 9)).residentNamed 0 9 = some (ctxKey 0 1) ∧ (cmdOn 1 [9] (named 9)).mayStop (ctxKey 0 1) = true ∧ (match (cmdOn 1 [9] (named 9)).victim 0 0 9 with | .ctx k => k == ctxKey 0 1 | _ => false) = true
    ∧ (cmdOn 1 [9] (named 9)).preemptDrained (ctxKey 0 1) = true ∧ (cmdOn 1 [9] (named 9)).freePair 0 = some 0 ∧ ((spilled (on 0 id)).spilledNamed 0 0).any (fun t => !t.held && t.ctx.tenant == 0) = true
    ∧ (cmdOn 1 [8] id).residentNamed 0 8 = none ∧ (cmdOn 1 [8] id).spilledNamed 0 8 = none ∧ (cmdOn 2 [8] id).heldNamed 0 8 = none ∧ (cmdOn 1 [9] (named 9)).pinQ (ctxKey 0 1) = []
    ∧ ({ on 0 id with stored := (upTo 12).map (fun i => { core := 0, goal := 0, slot := 2 * i, frame := false, held := false, ready := true, reg := 5, ret := false, recOf := 0, msgs := [], pins := 0, vops := [], rep := none, ctx := Ctx.free }) } : State).freePair 0 = none := by decide +kernel
/-- R374: a frame gives back the pc and a live register. -/
theorem ex_frame : (({ Ctx.free with regs := [] } : Ctx).fromFrame 0 (({ Ctx.free with pc := 0x48, live := 0x20, regs := [(5, ⟨3, .full, false⟩)] } : Ctx).frameBytes 0 0)).pc = 0x48
    ∧ (({ Ctx.free with regs := [] } : Ctx).fromFrame 0 (({ Ctx.free with pc := 0x48, live := 0x20, regs := [(5, ⟨3, .full, false⟩)] } : Ctx).frameBytes 0 0)).cell 5 = ⟨3, .full, false⟩ := by decide +kernel

/-! ### Checkpoints, containment, the fabric, stealing, the host, the cube -/

/-- A thread whose descriptor at local offset 0 names group 5, of which it is a member, with memory words 5, 2^16, 5 and 0. -/
def ckptOn (s : State) : State := { grp (fun g => { g with members := [⟨0, (on 1 id).agent, 0⟩] }) s with mem := [(localKey 1 0, 5), (localKey 1 0 + 10, 1), (localKey 1 0 + 16, 5)] }
theorem wit_ckpt : (ckptOn (on 1 (reg 5 (BitVec.ofNat 64 localBase)))).issues ⟨[], [(5, false)], [6], []⟩ = true ∧ ((ckptOn (on 1 id)).memberOf 5).any (fun m => m.1.gen ≥ m.2.since && m.1.opened.isNone && m.1.tenant == 0 && m.1.handle == 5) = true
    ∧ ofBytes (Memory.read (ckptOn (on 1 id)).mem (localKey 1 0 + 8) 8) = 2 ^ 16 ∧ (ckptOn (on 1 id)).copWork 1 (on 1 id).me (on 1 id).agent = false ∧ kindOf 1 ≠ .a ∧ (on 1 id).ntOf (on 1 id).agent = [] ∧ (on 1 id).reqsOf (on 1 id).agent = []
    ∧ (on 1 (fun x => { x with memo := [5, 0, 5] })).self.memo = [5, 0, 5] ∧ (on 1 (fun x => { x with memo := [6] })).self.memo = [6] ∧ ((grp id (on 1 id)).group 0 5).any (fun g => decide (0 < g.gen)) = true := by decide +kernel
/-- A cut generation of group 5 that is complete. -/
def cutOn (f : Group → Group) : State := { grp (fun g => f { g with cut := true, opened := some 1, arrived := [(0, 1), (1, 2)], cutBase := 0x10000, cutShare := 0 }) (on 0 id) with arg := { EvArg.zero with b := 5 } }
theorem wit_cut : ((cutOn id).group 0 5).any (fun g => g.cut && g.complete && g.cubes == []) = true ∧ (cutOn id).cutFree 0 = true ∧ (cutOn id).mapsFull 0 = false ∧ ((cutOn id).group 0 5).any (fun g => !(cutOn id).cutCancelled g) = true
    ∧ ((cutOn (fun g => { g with arrived := [] })).group 0 5).any (fun g => !g.complete) = true ∧ ((cutOn (fun g => { g with cut := false })).group 0 5).any (fun g => !g.cut) = true := by decide +kernel
/-- R398: the cut takes the next number, and vault 0 drains with the default share of 5. -/
theorem ex_cut : smGet 0 (after .checkpointCut (cutOn id)).ckpts 0 = 1 ∧ ((after .checkpointCut (cutOn id)).ival (ivalKey 0 0)).st = .draining ∧ ((after .checkpointCut (cutOn id)).ival (ivalKey 0 63)).share = 5 := by decide +kernel
def drainOn (l : List Nat) : State := { on 0 id with ivals := [(ivalKey 0 0, { Ival.zero with st := .draining, prev := l, k := 1 })], arg := EvArg.zero }
theorem wit_drain : ((drainOn []).ival (ivalKey 0 0)).st = .draining ∧ ((drainOn []).ival (ivalKey 0 0)).left (sortNats (distinct [])) = [] ∧ (match (drainOn [3]).writeChunk 0 0 [3] with | .fault => true | _ => false) = true
    ∧ sortNats (distinct [3, 1, 3]) = [1, 3] ∧ (held (on 0 id)).heldRec 0 ≠ none ∧ ((on 0 id).setPage 0 { (on 0 id).page 0 with rst := .running } |>.page 0).rst = .running := by decide +kernel
/-- A restore whose checkpoint is number 0 ends FAILED: no manifest is full. -/
theorem wit_restore : (match (on 0 id).leaves 5 0 0 [] with | .ok _ _ => true | _ => false) = true ∧ (match (on 0 id).manifests 0 0 [] 16 0 with | .ok ms _ _ => ms.all (fun m => !m.full) | _ => false) = true
    ∧ ((after .restore ({ (on 0 id).setPage 0 { (on 0 id).page 0 with rst := .running } with arg := EvArg.zero })).page 0).rst = .failed := by decide +kernel
theorem wit_containment : ({ owned (on 0 id) with contain := [(0, 0, 9)] } : State).consumedIn 0 0 = some 1 ∧ ((owned (on 0 id)).launch 1).any (fun l => l.guard == .none) = true ∧ ((on 0 id).consumedIn 0 0).bind (on 0 id).launch = none
    ∧ (owned (on 0 id)).cluster 1 = [0] ∧ (on 0 id).cmds = [] := by decide +kernel
theorem wit_scrub : ((on 0 id).setTile 3 { (on 0 id).tile 3 with fence := true, scrubbing := true }).scrubDue 3 = true ∧ (on 0 id).scrubDue 3 = false ∧ (on 0 id).memOk = true ∧ (511 : Nat) / 2 = 255 := by decide +kernel

/-- A delivery context to cube 3 with one unacknowledged packet. -/
def sent1 : Sent := { num := 4, ev := ⟨.peerLost, EvArg.zero⟩, next := 0, timer := 16000 }
def pdcOn (l : List Sent) (a b d : Nat) : State := { on 0 id with pdcs := [{ peer := 3, mode := 2, sent := l, since := 0, used := 0 }], arg := { EvArg.zero with a := a, b := b, c := 2, d := d } }
theorem wit_delivery : (pdcOn [sent1] 3 0 4).pdcs.length < 65536 ∧ (pdcOn [sent1] 3 0 4).pdcs.all (fun p => p.peer == 3 && p.mode == 2 && p.sent == [sent1]) = true ∧ sent1.num = 4
    ∧ (after .retransmission (pdcOn [sent1] 3 0 4)).pdcs.map (fun p => p.sent.map (·.timer)) = [[32000]] ∧ (after .retransmission (pdcOn [sent1] 3 1 4)).pdcs.map (·.sent) = [[]] ∧ (after .pdcFree { pdcOn [] 3 0 0 with time := 1000000 }).pdcs = []
    ∧ ({ on 0 id with pdcWait := [(2, ⟨.moved, { EvArg.zero with peer := some 3 }⟩)] } : State).pdcWait.head?.bind (fun e => e.2.arg.peer) = some 3 := by decide +kernel
/-- A request of cube 3 that reads, writes, and waits. -/
def arrived (f : EvArg → EvArg) : State := { mapped 0xC (on 0 id) with arrivals := [f { EvArg.zero with a := 9, c := 3, w := 0x40, words := [0, 0, 0, 0xFFFF, 0], bytes := List.replicate 16 1, far := [0], peer := some 3 }], settab := [(0, State.reset.cube)], arg := EvArg.zero }
theorem wit_remote : (arrived id).arrivals[0]?.any (fun g => g.peer == some 3 && g.words.getD 4 0 == 0 && g.far == [0]) = true ∧ (arrived id).frozenAt 0x40 = false ∧ (arrived id).home 0x40 = some (State.reset.cube, 0x40) ∧ (arrived id).cube = State.reset.cube
    ∧ (held (arrived id)).heldBy 0 ≠ none ∧ (arrived id).localAddr 0x40 % 16 = 0 ∧ (after .remoteRequest (arrived (fun g => { g with c := 1 }))).mem.length = 16 ∧ (on 0 id).home 0x40 = none := by decide +kernel
theorem wit_lost : (on 0 id).lost.contains 3 = false ∧ ({ State.reset with peers := [3] } : State).reqs = [] ∧ State.reset.ctxs = [] ∧ State.reset.groups = [] ∧ State.reset.mapJob = none ∧ (on 0 id).ctxOfAgent (req1 id (on 0 id) |>.reqs.head?.map (·.agent) |>.getD 0) = some (ctxKey 0 0)
    ∧ (req1 id (on 0 id)).reqs.all (fun r => r.acq == 0 && decide (r.agent < 2 ^ 50) && r.kind == .load) = true ∧ ({ on 0 id with told := [(3, 0)] } : State).told.contains (3, 0) = true := by decide +kernel
theorem wit_links : ((on 0 id).setPort 2 { Port.zero with up := true } |>.port 2).up = true ∧ ((on 0 id).port 2).up = false ∧ smGet 0 ({ on 0 id with mesh := [(4, 8)] } : State).mesh 4 = 8 ∧ smGet 0 (on 0 id).mesh 4 < 8 := by decide +kernel
theorem wit_time : (on 0 id).isMaster = true ∧ ({ on 0 id with peers := [0], power := true } : State).cube = (on 0 id).cube ∧ (after .timeExchange { on 0 id with arg := EvArg.zero }).timeSent = (on 0 id).time := by decide +kernel
/-- A descriptor of 16 stripes of 4 KiB on one cube, and a region that moves to it. -/
def desc : Stripes := { Stripes.zero with valid := true, n := 1, size := 16 }
def moving (f : Region → Region) (s : State) : State := { s with regions := [(0, f { Region.zero with cur := desc, next := some { desc with lb := 0x10000 }, moving := true })], settab := [(0, s.cube)], mapJob := some 0, arg := EvArg.zero }
theorem wit_map : stripesOf (2 ^ 63) (16 + 2 ^ 42) 0 = some desc ∧ stripesOf (2 ^ 63 + 2 ^ 52) 0 0 = none ∧ (on 0 id).mapBusy = false ∧ (on 0 id).mapRefuses 0 desc = false ∧ (moving id (on 0 id)).mapBusy = true ∧ (on 0 id).peers = [] ∧ desc.n ≠ 0 ∧ desc.k ≤ 18 := by decide +kernel
theorem wit_stripes : (moving id (on 0 id)).cursorHomes ((moving id (on 0 id)).region 0) = some (((on 0 id).cube, 0), ((on 0 id).cube, 0x10000)) ∧ (moving id (on 0 id)).stripeQuiet ((moving id (on 0 id)).region 0) = true ∧ ((moving (fun r => { r with next := some desc }) (on 0 id)).cursorHomes ((moving (fun r => { r with next := some desc }) (on 0 id)).region 0)) = some (((on 0 id).cube, 0), ((on 0 id).cube, 0))
    ∧ ((moving (fun r => { r with cursor := 16 }) (on 0 id)).region 0).cursor = 16 ∧ ({ on 0 id with draining := [3], time := 100000 } : State).mapLast + 100000 ≤ 100000 := by decide +kernel

/-- A victim cube 0 of group 5 over cubes 0 and 3, flagged, with one parcel that may be stolen. -/
def victim (f : Parcel → Parcel) : State := { (withParcels [parcel (fun p => f { p with p := 0xC0000000 ||| 0x80000000 })] (on 0 id)) with arg := { EvArg.zero with a := 3, b := 9, c := 1, d := 50, e := 5, words := [0, 0, 64, 64] } }
theorem wit_steals : (victim id).cancelled 0 0 = false ∧ (victim id).group 0 5 = none ∧ (victim (fun p => { p with st := .lent 3 50 1 100 })).lentMatch 0 1 100 1 0 ≠ none ∧ (victim id).lentMatch 0 1 100 1 0 = none
    ∧ ((victim (fun p => { p with borrowed := some { cube := 3, tile := 0, slot := 0, lend := 1, due := 9, lid := 1 } })).tile 0).parcels.any (fun p => p.borrowed.any (fun l => decide (l.due ≤ 9))) = true ∧ (parcel (fun p => { p with st := .held 9 })).st = .held 9 := by decide +kernel

/-- Host accesses: to a device without a tenant, in the control page, between, and in the aperture. -/
theorem wit_host : ((on 0 id).tenant 3).live = false ∧ ((on 0 id).tenant 0).live = true ∧ (match (on 0 id).xlate 0 0 false false with | .fault c _ => c == 6 | _ => false) = true ∧ (mapped 0xC (on 0 id)).isRemote 0x40 = false
    ∧ ((mapped 0xC (on 0 id)).unitRead 0 0x40 64).isSome = true ∧ ((mapped 0xC (on 0 id)).placeHost (hostSectors { EvArg.zero with e := 1, bytes := [7] } 0x40)).isSome = true ∧ (1 : Nat).testBit (16 * 0 + 0) = true := by decide +kernel
theorem wit_window : (on 0 id).bufferFull 0 = false ∧ ({ on 0 id with launches := List.replicate 64 (({ on 0 id with nid := 1 } : State).newLaunch 0 [] none) } : State).bufferFull 0 = true := by decide +kernel
theorem wit_control : ((on 0 id).page 0).rst ≠ .running ∧ ((on 0 id).page 0).busy = false ∧ (0x8000000000000005 : Word).toNat / 2 ^ 24 % 2 ^ 39 = 0 ∧ (0x8000000000000005 : Word).toNat.testBit 63 = true ∧ 0x100 + 8 * 15 = 0x178 := by decide +kernel
def filterOn (f : Filter → Filter) (t : Nat) : State := { on 0 id with filters := [f { tenant := 0, job := 4, since := 0, done := some 0, coord := 3, acked := false }], time := t, arg := { EvArg.zero with b := 4 } }
theorem wit_cancel : (on 0 id).cancelled 0 4 = false ∧ (filterOn id 0).cancelled 0 4 = true ∧ (filterOn id 0).jobRuns 0 4 = false ∧ (filterOn id 100000).jobHere 0 4 = false ∧ ((on 0 id).ctxs.map (·.1)).Nodup ∧ (on 0 id).jobRuns 0 0 = true
    ∧ (after .filterEntryExpiry (filterOn id 100000)).filters = [] ∧ (after .filterEntryExpiry (filterOn id 99999)).filters.length = 1 := by decide +kernel
theorem wit_tenant : (on 0 id).fw.st = .ready ∧ ((on 0 id).tenant 1).live = false ∧ (0x1000 : Nat) % 4096 = 0 ∧ (0x2000 : Nat) % 8192 = 0 ∧ (after .tenantDestroy { on 0 id with arg := EvArg.zero }).tenant 0 = Tenant.zero := by decide +kernel
/-- Boot: an image without the magic number fails its checks; one that passes cannot be shown here, since the digest and the signature are free (log entries of Config). -/
theorem wit_boot : State.reset.fw.st = .booting ∧ bootImage [] = none ∧ State.reset.fw.bootsel = false ∧ ({ State.reset with fw := { State.reset.fw with st := .started } } : State).fw.st = .started := by decide +kernel
theorem wit_power : (on 0 id).fw.withheld = (0, 0, 0) ∧ 400 ≤ 500 ∧ 500 ≤ 900 ∧ withhold (32, 32, 31) = (32, 32, 32) ∧ giveBack (1, 0, 0) = (0, 0, 0) := by decide +kernel

/-- A machine on which only core 0 may issue: `mix` at pc 0 in its instruction cache (R34). -/
def ready1 : State := (mapped 0xC (on 0 id)).setCore 0 { (on 0 id).core 0 with icache := [⟨0, toBytes 0x05455628 128⟩] }
theorem wit_step : ready1.power = true ∧ ready1.inputs = [] ∧ ready1.selected 0 (ready1.candidates 0) = some 0 ∧ ready1.self.home = none ∧ ready1.self.entering = false
    ∧ (match ready1.fetch 0 with | .line b _ => fetchedWords b 0 == 0x05455628 :: List.replicate 31 0 | _ => false) = true ∧ (match ready1.choices with | [.core c] => c == 0 | _ => false) = true ∧ (match State.reset.choices with | [.event e] => e == ev .boot 0 0 0 | _ => false) = true ∧ State.reset.inputs = [] ∧ ({ on 0 id with inputs := [ev .getId 0 0 0] } : State).takes (ev .getId 0 0 0) = true := by decide +kernel
theorem wit_encode : (Instr.addi 1 2 false 3).wf = true ∧ encode (.addi 1 2 false 3) ≠ [] ∧ (Instr.mix 20 21 22 false false).wf = true := by decide +kernel
/-- `lui` s5, 0x12345 as the first instruction: the step writes the register and passes the instruction. -/
theorem ex_first_step : decodeTableWord 32 0x24512345 = some (.lui 5 0x12345)
    ∧ (match step (State.reset.withFetchWord 32 0x24512345) with | .next t => (t.ctx (ctxKey 0 0)).pc == 4 && (t.ctx (ctxKey 0 0)).cell 5 == ⟨0x12345000, .full, false⟩ | _ => false) = true := by decide +kernel

/-! ### More states that meet hypotheses, one theorem for each group of statements -/

/-- Launch 1 of tenant 0 with a guard that holds. -/
def guarded (s : State) : State := launch (fun l => { l with guard := .hold }) s
/-- A page table at DRAM address 0x1000 whose three entries map the first gigabyte of virtual addresses to physical address 0 for all modes, cacheable or not by attr, and region 0 over this cube. -/
def tabled (attr : Nat) (s : State) : State :=
  { s with
    mem := Memory.write (Memory.write (Memory.write [] 0x1000 (toBytes 0x2001 8)) 0x2000 (toBytes 0x3001 8)) 0x3000 (toBytes (attr + 3) 8)
    tenants := [(0, { Tenant.zero with live := true, tvec := 0x2000, xroot := 0x1000, tiles := 3, spill := 0x8000 })]
    regions := [(0, { Region.zero with cur := { Stripes.zero with valid := true, n := 1, size := 65536 } })] }
theorem wit_table : (tabled 0xC (on 0 id)).memOk = true ∧ (match (tabled 0xC (on 0 id)).xlate 0 0x40 false true with | .ok pa a => pa == 0x40 && a == 0xF | _ => false) = true
    ∧ (match (tabled 0xC (on 0 id)).walk 0 0x40 [] with | .leaf pa z a => pa == 0x40 && z == 2 ^ 30 && a == 0xF | _ => false) = true
    ∧ (match (tabled 0xC (on 0 id)).readEntry 0x1000 with | .val e => e == 0x2001 | _ => false) = true := by decide +kernel
/-- R220: one level down; a leaf of level 3; an entry with a reserved bit; a leaf at level 2. -/
theorem wit_levels : (match (tabled 0xC (on 0 id)).readEntry 0x3000 with | .val e => e == 0xF && e % 2 == 1 && bits e 11 9 == 0 && bitAt e 1 && bits e 51 16 * 65536 % 2 ^ 30 == 0 | _ => false) = true
    ∧ (match (tabled 0x200 (on 0 id)).readEntry 0x3000 with | .val e => e % 2 == 1 && bits e 11 9 != 0 | _ => false) = true
    ∧ (match (tabled 0x10000 (on 0 id)).readEntry 0x3000 with | .val e => bitAt e 1 && bits e 51 16 * 65536 % 2 ^ 30 != 0 | _ => false) = true
    ∧ (match (on 0 id).readEntry 0x3000 with | .noRegion => true | _ => false) = true := by decide +kernel
/-- A walk that `tlb.inv` has made stale, and one that is not. -/
def walking (l : List Nat) (s : State) : State := { tabled 0xC s with walks := [⟨0, 0x40, [0], [ctxKey 0 0], l, false⟩], arg := EvArg.zero }
theorem wit_walk_events : (walking [0] (on 0 id)).walks.all (fun w => w.hit (2 ^ 30) && w.hit 65536) = true ∧ (walking [] (on 0 id)).walks.all (fun w => !w.hit (2 ^ 30) && !w.hit 65536) = true
    ∧ ((walking [] (on 0 (fun x => { x with park := some (.walk 0 0) }))).ctx (ctxKey 0 0)).park = some (.walk 0 0)
    ∧ (match ({ walking [] (on 0 id) with tenants := [] } : State).walk 0 0x40 [] with | .fault n => n == 1 | _ => false) = true := by decide +kernel

/-- Loads and stores that another launch's guard holds, in the tile cache and at home; and a cached store that stays in order. -/
theorem wit_held_stores : ((cached 1 (mapped 0x5C (guarded (on 0 id)))).setTile 0 { ((cached 1 (mapped 0x5C (guarded (on 0 id)))).tile 0) with lines := [⟨0, 0, 0, 1, 1, 0x5C, 1⟩] }).storeHeld 0x40 0x5C = true
    ∧ (held (mapped 0xC (on 0 id))).storeHeld 0x40 0xC = true ∧ (cached 0 (mapped 0x1C (on 0 id))).storeHeld 8 0x1C = false ∧ (cached 0 (mapped 0x1C (on 0 id))).guardBehind 100 8 0x1C 0 = false
    ∧ (guarded (on 0 id)).guarding 1 = true ∧ (on 0 id).guarding 0 = false := by decide +kernel
/-- Releases: earlier reads first, then the writes; a write-out of the combining buffer. -/
theorem wit_release : (inFlight .load (on 0 id)).readsOut 1 ≠ [] ∧ (inFlight .store (on 0 id)).readsOut 1 = [] ∧ ((inFlight .store (on 0 id)).releaseStart 1).relReqs ((inFlight .store (on 0 id)).agent) 0 1 ≠ []
    ∧ (({ on 0 id with reqs := [{ (on 0 id).newReq 50 .store .none 0 8 0 with agent := (on 0 id).agent, nt := true }] } : State).writeOutAll (on 0 id).agent).reqs.any (·.nt) = true := by decide +kernel
/-- `resize`: issued behind another thread's, with a running command on scratch, alone, and its last step. -/
theorem wit_resizes : (({ (on 0 id) with ctxs := (on 0 (fun x => { x with memo := [1] })).ctxs ++ [(ctxKey 0 1, { Ctx.free with occ := true, uid := 9, park := some .hold })] } : State).setTile 0 { (on 0 id).tile 0 with resizers := [9] }).resizing 0 = [9]
    ∧ (on 0 id).agent ≠ 9 ∧ (on 0 id).resizing 0 = [] ∧ (on 0 id).tileBacks 0 = [] ∧ (on 0 (fun x => { x with memo := [1] })).self.memo = [1]
    ∧ (pushCmd (fun c => { c with st := .started, slots := [0xF800000000000000, 0, 0, 16, 0] })).onScratch = true ∧ (pushCmd (fun c => { c with st := .started })).onScratch = false := by decide +kernel
/-- A late fault of a thread that enters a handler, and one that waits in a semaphore's order. -/
theorem wit_late : ((on 1 (fun x => { x with entering := true })).ctx (ctxKey 1 0)).entering = true ∧ (on 1 id).lateFault 1 0 = none
    ∧ ((rings [entry (some ⟨0x10, 2, 0⟩)] (on 1 id)).lateFault 1 0).isSome = true := by decide +kernel

/-- A counter descriptor in local memory: a mailbox of one slot at 0x400. -/
theorem wit_descriptor : ofBytes (Memory.read [(localKey 0 0 + 13, (4 : Byte))] (localKey 0 0 + 8) 8) = 0x40000000000 ∧ bits 0x40000000000 47 32 = 0x400 ∧ bits 0x40000000000 63 59 = 0 ∧ bits 0x40000000000 55 54 = 0
    ∧ bits 0x40000000000 47 32 + 64 * (bits 0x40000000000 53 48 + 1) ≤ 0xCE00 ∧ (on 0 id).self.act = none ∧ ((on 0 (reg 6 0xF000000000000000)).val 6).toNat = localBase + 0 := by decide +kernel
theorem wit_spawn : (mapped 0xC (on 0 id)).home 0x40 = some (State.reset.cube, 0x40) ∧ (0x500000000 : Nat) % 2 ^ 32 = 0 ∧ bits (0x500000000 : Word).toNat 45 38 = 0 ∧ (1 : Nat) + 1 - 1 ≤ 59 := by decide +kernel
/-- A fill for a register of the thread, from its own and from another tenant. -/
theorem wit_fills : (carrying (packet (fun p => { p with kind := .fill, hdr := 0x0000000580000000 })) (on 0 (fun x => { x.setCell 5 ⟨0, .idle, false⟩ with name := 0x80000000 }))).residentNamed 0 (0x0000000580000000 % 2 ^ 32) = some (ctxKey 0 0)
    ∧ bits 0x0000000580000000 37 32 = 5 ∧ isThreadEnd (0x0000000580000000 % 2 ^ 32) = true ∧ (packet (fun p => { p with tenant := 1 })).tenant ≠ (on 0 id).self.tenant := by decide +kernel
/-- A directory entry for a counter of core 2; stubs at 3 hops and at 4. -/
theorem wit_directories : 2 ^ 40 ≤ 2 ^ 40 + ((on 0 id).cube * 512 + 2) * 64 + 5 ∧ 2 ^ 40 + ((on 0 id).cube * 512 + 2) * 64 + 5 < 2 ^ 50 ∧ (2 ^ 40 + ((on 0 id).cube * 512 + 2) * 64 + 5 - 2 ^ 40) / 64 / 512 = (on 0 id).cube
    ∧ (packet (fun p => { p with hdr := 0x4000000003 })).hdr.toNat % 2 ^ 32 = 3 ∧ isThreadEnd 3 = false ∧ (packet (fun p => { p with scube := 9 })).scube ≠ (on 0 id).cube ∧ (packet (fun p => { p with hops := 4 })).hops = 4
    ∧ ((on 0 id).setTile 0 { (on 0 id).tile 0 with fence := true }).fenceOver 1 = true := by decide +kernel
/-- Barriers and queries of groups. -/
theorem wit_group_queries : ((grp (fun g => { g with record := [Crossing.mk 7 [(0, 1), (1, 6)]] }) (on 0 id)).group 0 5).any (fun g => (g.record[0]?).any (fun c => c.gen == 7)) = true
    ∧ (on 0 (fun x => { x with memo := [5, 1, 5] })).self.memo = [5, 1, 5] ∧ ((grp (fun g => { g with gen := 2 }) (on 0 id)).group 0 5).any (fun g => decide (1 < g.gen)) = true
    ∧ (0x100000000 : Nat) < 2 ^ 34 ∧ bits 0x100000000 33 32 = 1 := by decide +kernel
/-- One free context and an activation that starts in it. -/
theorem wit_starts : ({ pending1 (on 0 id) with ctxs := (upTo 7).map (fun i => (ctxKey 0 i, { Ctx.free with occ := true })) } : State).bestCtr 0 = some (3, pend) ∧ pend.group = 0 := by decide +kernel
/-- A thread's vector state goes into its save record. -/
def saving : State :=
  { tabled 0xC (on 1 id) with
    stored := [{ core := 1, goal := 1, slot := 0, frame := true, held := true, ready := false, reg := 0, ret := false, recOf := ctxKey 1 0, msgs := [], pins := 0, vops := [], rep := none, ctx := { Ctx.free with occ := true, uid := 70 } }]
    vbanks := [(ctxKey 1 0, { bank with tag := some 70, p := [] })], arg := { EvArg.zero with a := ctxKey 1 0 } }
theorem wit_saving : (saving.vbank (ctxKey 1 0)).tag = some 70 ∧ (saving.storedOf 70).isSome = true ∧ (match saving.recordAt 0 1 0 true with | .ok pa attr => (saving.putParts ⟨0, 0⟩ pa attr (bankParts (saving.vbank (ctxKey 1 0)) 0 [] none)).isSome | _ => false) = true := by decide +kernel
/-- Parcels: one that the thread has taken on another tile, and a tile queue without room for stolen ones. -/
theorem wit_far_parcel : ((on 0 id).setTile 1 { (on 0 id).tile 1 with parcels := [parcel (fun p => { p with st := .taken (on 0 id).agent })] } |>.mine 0).map (·.1) = some 1
    ∧ min 32 (256 - ((withParcels ((upTo 256).map (fun j => parcel (fun p => { p with slot := j }))) (on 0 id)).tile 0).parcels.length) = 0
    ∧ ((owned (on 0 id)).enqueue 0 ((owned (on 0 id)).parcelOf 1 0 0)).isSome = true := by decide +kernel
/-- Launches: a dependence on one that failed; the head of the line; a candidate that is not open, one already owned; a message's LPB read. -/
theorem wit_admission : (({ launch (fun l => { l with st := .waiting, lpb := l.lpb.set 4 8 }) (on 0 id) with history := [⟨0, 8, 0, 6⟩] } : State).prereq 0 8) = some 6 ∧ (launch (fun l => { l with lid := 8 }) (on 0 id)).prereq 0 8 = none ∧ (on 0 id).prereq 0 8 = some 0
    ∧ (scanning (fun l => { l with engine := true, left := 9, cand := 1 }) (on 0 id)).tileOpen 0 2 = false ∧ ((scanning (fun l => { l with engine := true, left := 9, cand := 1 }) (on 0 id)).launch 1).any (fun l => (l.rectAt l.cand).contains 2) = true
    ∧ ((tabled 0xC (on 0 id)).unitRead 0 0x40 64).any (fun r => !r.1.2) = true ∧ (launch (fun l => { l with head := true, st := .placing }) (on 0 id)).launches.all (·.head) = true := by decide +kernel
theorem wit_record : (launch (fun l => { l with st := .completing, phase := 1, guard := .none }) (inFlight .load (on 0 id))).launchWrites 1 = false
    ∧ ({ launch id (on 0 id) with reqs := [{ (on 0 id).newReq 50 .store .none 0 8 0 with launch := 1 }] } : State).launchWrites 1 = true
    ∧ ((tabled 0xC (on 0 id)).unitWrite ⟨0, 0⟩ 0x4000 0xF (List.replicate 64 0) false).isSome = true ∧ ({ launch id (on 0 id) with ctxs := [] } : State).cluster 1 = [] := by decide +kernel
/-- A guarded launch's first write to a line. -/
theorem wit_guard_write : (guarded (tabled 0x4C (on 0 id))).guarding 1 = true ∧ attrG (put 1).attr = false ∧ attrG 0x4C = true ∧ ((guarded (tabled 0x4C (on 0 id))).placeWrite { put 1 with attr := 0x4C }).isSome = true
    ∧ ({ guarded (tabled 0x4C (on 0 id)) with jsize := [(0, 1)] } : State).jguards 0 < ({ guarded (tabled 0x4C (on 0 id)) with jsize := [(0, 1)] } : State).jguard 0 := by decide +kernel

/-- Requests: a pair of registers, a queue entry, an atomic whose home line is free and clean, a remote one, one refused; and an old buffer line. -/
theorem wit_request_kinds : ((req1 (fun r => { r with sampled := true, dest := .pair 5 }) (on 0 id)).req 50).any (fun r => r.acq == 0 && !r.denied) = true
    ∧ ((req1 id (on 0 id)).setCtx (ctxKey 0 0) ((on 0 id).self.setCell 5 ⟨1, .full, false⟩)).ctxOfAgent (on 0 id).agent = some (ctxKey 0 0)
    ∧ ((req1 (fun r => { r with sampled := true, dest := .queue false (ctxKey 1 0) ⟨8, false⟩ }) (on 0 id)).req 50).any (fun r => !r.denied) = true
    ∧ ((req1 (fun r => { r with kind := .amo .add, data := toBytes 1 16 }) (mapped 0xC (on 0 id))).req 50).any (fun r => r.kind == .amo .add) = true ∧ (mapped 0xC (on 0 id)).lineBad 0x40 = 0
    ∧ (match (mapped 0xC (on 0 id)).readHome 0x40 0x40 8 0 with | ((b, bad), _) => b.length == 8 && !bad) = true ∧ amoNew .cas 8 0 1 2 = none ∧ amoNew .add 8 0 1 0 = some 1 ∧ (held (on 0 id)).heldByOther 0 0 = true
    ∧ (({ on 0 id with nt := [⟨0, 0, 7, 0, 0, [(0, 1)], 0, 0, 0xC⟩], cycle := 4096, arg := EvArg.zero } : State).nt.find? (fun m => decide (m.when_ + 4096 ≤ 4096))).isSome = true := by decide +kernel
theorem wit_denied : (5 : Nat) < 2 ^ 50 ∧ ((req1 (fun r => { r with kind := .store, remote := true, sent := true }) (on 0 id)).req 50).any (fun r => decide (r.agent < 2 ^ 50)) = true := by decide +kernel
/-- A full inbox, a departing thread with room, and a moth's arrival. -/
theorem wit_inbox : 16 ≤ (({ on 0 id with stored := (List.replicate 16 0).flatMap (fun _ => (moth 24 false (on 0 id)).stored) } : State).stored.filter (fun u => u.core == 256 && u.slot == 24)).length
    ∧ ((moth 25 false (on 0 id)).stored.filter (fun u => u.core == 256 && u.slot == 24)).length < 16 ∧ ((moth 25 false (on 0 id)).stored.map (fun t => (t.ctx.tenant, t.ctx.job))) = [(0, 0)] ∧ (on 0 id).cancelled 0 0 = false
    ∧ (({ on 0 id with ctxs := (upTo 7).map (fun i => (ctxKey 256 i, { Ctx.free with occ := true })) } : State).freeCtxs 256) = [7] ∧ (moth 25 true (on 0 id)).stored.all (fun t => t.ctx.trapHome.isNone) = true := by decide +kernel
/-- `rep` over the word after it: a good body, and one that is no vector instruction. -/
theorem wit_rep_body : repOn.firstFault = none ∧ ({ repOn with body := [0] } : Rep).firstFault = some (0, 3) ∧ (on 1 id).reps = [] ∧ ((on 1 id).vbank (on 1 id).me).tag = none := by decide +kernel
/-- A vector register whose parity no longer fits (R187), and one that a partner store refuses (R232). -/
theorem wit_parity : (vecOn (vop none) { bank with bad := [(1, true)] }).vopParity (vop none) = true ∧ (vecOn (vop none) { bank with bad := [(1, true)] }).vopFault (vop none) = some 2 ∧ (vecOn (vop none) { bank with v := [(1, ⟨7, true⟩)] }).vopFault (vop none) = some 1
    ∧ (vecOn (vop none) bank).vopFault (vop none) = none ∧ ({ bank with bad := [(3, true)] } : VBank).marked 3 = true ∧ bank.marked 3 = false ∧ (withPartner (on 0 id)).self.planeLeft = none := by decide +kernel
theorem wit_vldpx_words : (0x400 : Nat) % 4 = 0 ∧ ((withPartner (on 0 id)).vwriters (on 0 id).partnerKey 0) = [] ∧ (on 0 id).reqs = [] ∧ (∀ r ∈ (on 0 id).reqs, r.id < (on 0 id).nid) := by decide +kernel

/-- Commands at work: a copy and a combining copy that go on, a source that is here, a flipped one, an `mma` one sector short of its pass, and a health command with a candidate. -/
theorem wit_work : (withCmd (pushCmd id) (on 0 id)).sourceWants (pushCmd id) = none ∧ ((withCmd (pushCmd id) (on 0 id)).askShape (pushCmd id)).isNone = true ∧ (pushCmd id).pos < (pushCmd id).total ∧ (pushCmd (fun c => { c with flags := 2 })).flags / 2 % 2 = 1
    ∧ (pushCmd id).secs = [] ∧ (on 0 id).bad = [] ∧ (mxCmd .matrix 0 [0, 0x5000, 1, 0, 0x24000] (fun c => { c with flip := 1 })).flip ≠ 0
    ∧ ((mxCmd .matrix 0 [0, 0x5000, 1, 0, 0] id).passSectors 0 0).length = 4 ∧ (((mxCmd .matrix 0 [0, 0x5000, 1, 0, 0] id).passSectors 0 0).drop 3).length = 1 ∧ 0 < (mxCmd .matrix 0 [0, 0x5000, 1, 0, 0] id).matrixSteps
    ∧ ((on 1 id).setArray 0 { (on 1 id).array 0 with cand := some ([3], [4]) } |>.array 0).cand = some ([3], [4]) ∧ (mxCmd .matrix 4 [0, 0, 0, 0, 0] id).opc = 4 ∧ (mxCmd .matrix 4 [0, 0, 0, 0, 0] id).win ≠ 6 := by decide +kernel

/-- Invocations: one whose columns are still to be read, one that has them, one at its end with one cistern's accumulator, and one that writes at a held line. -/
theorem wit_columns : ((withInv (invOn (fun n => { n with st := .running })) (on 256 id)).invReads (invOn id)).find? (fun w => !((invOn id).unread w).isEmpty) = some 0
    ∧ (invOn (fun n => { n with got := [(0, List.replicate 16 0, false), (16, List.replicate 16 0, false), (1024, List.replicate 16 0, false), (1040, List.replicate 16 0, false)] })).unread 1024 = []
    ∧ (2 * (invOn id).n + 31) / 32 ≤ (invOn (fun n => { n with pos := 1 })).pos ∧ (on 256 id).flippedUse (invOn id) = false
    ∧ (match (withInv (invOn id) (on 256 id)).invTurn (invOn id) 0 with | .ok _ => true | _ => false) = true ∧ (match (withInv (invOn id) (on 256 id)).invTurn (invOn (fun n => { n with pos := 1 })) 0 with | .done _ d => d == 0 | _ => false) = true
    ∧ (match (held (on 256 id)).invTurn (invOn (fun n => { n with entry := 2, outs := [(0, [1])], pages := [(0, 0, 0x4C)] })) 0 with | .blocked h v => h && v == 0 | _ => false) = true := by decide +kernel

/-- Collectives: a destination whose table is here, and one whose table lies on another cube; gathered packets. -/
theorem wit_coll_wants : (withCmd (collCmd id) (collGrp (on 0 id))).collWants (collCmd id) = none
    ∧ (withCmd (collCmd (fun c => { c with slots := [BitVec.ofNat 64 localBase, 0x40, 5, 4, 0] })) (collGrp { tabled 0xC (on 0 id) with settab := [(0, 3)] })).collWants (collCmd (fun c => { c with slots := [BitVec.ofNat 64 localBase, 0x40, 5, 4, 0] })) = some 0x1000
    ∧ (Coll.open 0 5 0).gather 8193 0 1 [7] = (some [7], Coll.open 0 5 0) ∧ ((Coll.open 0 5 0).gather 8193 0 2 [7]).1 = none ∧ (Coll.open 0 5 0).params = [] := by decide +kernel

/-- The steward: a message at the head of the queue; a watchdog that is due; a claimed and a releasing counter. -/
theorem wit_steward_events : ((on 0 id).setCore 0 { (on 0 id).core 0 with limit := [(0, 10)] } |>.core 0).limit = [(0, 10)] ∧ 6 * 10 ≤ 5 * (100 - (on 0 id).self.issued) ∧ (on 0 id).self.park ≠ some .away ∧ ((on 0 id).ctx (ctxKey 0 0)).occ = true ∧ ctxKey 0 0 % 16 ≠ 8
    ∧ ((queued { StewEvent.of 0 0x20 0 9 with fw := true } id).core 0).queue.all (·.fw) = true ∧ ((queued (StewEvent.of 4 0x21 0 9) id).tenant 4).tvec = 0 := by decide +kernel
theorem wit_group_creation : (2 : Nat) ^ 63 ≤ (0x8000000000000000 : Word).toNat ∧ (1 : Word).toNat < 2 ∧ ((grp (fun g => { g with live := false, cubes := [0, 3], since := 0 }) (on 0 id)).anyGroup 0 5).any (fun g => decide (g.since + 10000000 ≤ 10000000)) = true
    ∧ ((grp (fun g => { g with cubes := [0, 3], live := true, opened := some 0 }) (on 0 id)).group 0 5).any (fun g => !g.cubeDue && !g.nodeFull) = true ∧ (on 0 id).anyGroup 0 9 = none := by decide +kernel
/-- A starved parcel of the pool, which PARCEL-DROP takes: the array of the launch's tile is too small for it. -/
def starving (s : State) : State :=
  let t : State := launch (fun l => { l with lid := 1, next := 4, moved := [(0x38000000, 0)] }) s
  (t.setTile 0 { t.tile 0 with owner := some 1 }).setArray 0 { ArraySt.zero with retRows := upTo 60, retCols := upTo 60 }
theorem wit_drop : ((cmdOn 9 [1] starving).launches.find? (fun l => l.tenant == 0 && l.lid == 1 && l.placed)).any (fun l => !((cmdOn 9 [1] starving).fwEnd 0).undealtStarved l) = true := by decide +kernel
/-- Pre-emption: a victim that has stopped and drained with a free pair, one that a semaphore has chosen, one whose 100 µs are over, and spilled threads of another tenant and held. -/
theorem wit_preemption : ((cmdOn 1 [9] (fun s => (named 9 s).setCtx (ctxKey 0 1) { Ctx.free with occ := true, uid := 70, name := 9, stopped := some 0 })).ctx (ctxKey 0 1)).stopped ≠ none
    ∧ (cmdOn 1 [9] (named 9)).semTaken (ctxKey 0 1) = false ∧ (sem 0 [] [ctxKey 0 1] (cmdOn 1 [9] (named 9))).semTaken (ctxKey 0 1) = true ∧ 600000 ≤ 5 * (120000 - ((1 : Nat) - 1))
    ∧ ((spilled (on 0 id)).spilledNamed 0 0).any (fun t => t.ctx.tenant == 0 && !t.held) = true ∧ (((cmdOn 1 [9] (named 9)).suspendInvs 70).leaveSems (ctxKey 0 1)).freePair 0 = some 0 ∧ (BitVec.allOnes 64 : Word) = 0xFFFFFFFFFFFFFFFF := by decide +kernel
theorem wit_frames : ({ Ctx.free with pc := 4, live := 0x20 } : Ctx).pc.toNat % 4 = 0 ∧ (0x20 : Word).toNat < 2 ^ 60 ∧ ({ Ctx.free with pc := 4 } : Ctx).loops.length ≤ 4 ∧ ({ Ctx.free with pc := 4 } : Ctx).prio < 4 := by decide +kernel
/-- A chunk that is written, and one whose table lies elsewhere; the closing of a drain; a full map of drains. -/
def drainTo (s : State) (l : List Nat) : State := { s with ivals := [(ivalKey 0 0, { Ival.zero with st := .draining, prev := l, k := 1, base := 0 })], arg := EvArg.zero }
theorem wit_chunks : (match (drainTo { tabled 0xC (on 0 id) with settab := [(0, 3)] } [3]).writeChunk 0 0 [3] with | .wait _ => true | _ => false) = true ∧ ((drainTo (on 0 id) [3]).ival (ivalKey 0 0)).left (sortNats (distinct [3])) = [3]
    ∧ ([3] : List Nat).take 481 = [3] ∧ ({ on 0 id with ivals := [(ivalKey 0 0, { Ival.zero with st := .recording, done := true })] } : State).ival (ivalKey 0 1) = Ival.zero := by decide +kernel
theorem wit_cut_refusals : ({ cutOn id with filters := [⟨0, 0, 0, none, 0, false⟩], ctxs := [(ctxKey 0 0, { Ctx.free with occ := true, uid := 17 })] } : State).cutCancelled (newGroup 0 5) = false
    ∧ ({ cutOn id with ivals := (upTo 4).map (fun t => (ivalKey (t + 1) 0, { Ival.zero with st := .draining })) } : State).mapsFull 0 = true := by decide +kernel
theorem wit_contained : ({ owned (on 0 id) with contain := [(0, 0, 9)], cmds := [mxCmd .health 1 [0, 0, 0, 0, 0] (fun c => { c with st := .started })] } : State).cmds.any (fun c => ((owned (on 0 id)).cluster 1).contains c.unit && c.opc == 1 && c.st == .started) = true := by decide +kernel

/-- The fabric: a packet behind another that waits for the same peer and class, one for a free class, a context with one packet, all contexts in use. -/
theorem wit_class_order : (∃ w ∈ ({ on 0 id with pdcWait := [(2, ⟨.moved, { EvArg.zero with peer := some 3 }⟩)] } : State).pdcWait, w.1 = 2 ∧ w.2.arg.peer = some 3) ∧ (on 0 id).pdcWait = []
    ∧ (∃ p ∈ (pdcOn [sent1] 3 0 4).pdcs, p.peer = 3 ∧ p.mode = 2 ∧ p.sent = [sent1]) ∧ sent1.num = 4 := by decide +kernel
theorem wit_full_fabric : 65536 ≤ (List.replicate 65536 ({ peer := 9, mode := 0, sent := [sent1], since := 0, used := 0 } : Pdc)).length ∧ (∀ p ∈ List.replicate 65536 ({ peer := 9, mode := 0, sent := [sent1], since := 0, used := 0 } : Pdc), p.sent ≠ [] ∧ (p.peer ≠ 3 ∨ p.mode ≠ 2)) :=
  ⟨List.length_replicate.ge, fun p hp => (List.mem_replicate.mp hp).2 ▸ by decide⟩
/-- Requests of another cube that have waited at a held line, that move, and that are frozen. -/
theorem wit_requests_of_cubes : (held (arrived (fun g => { g with c := 1, far := [0], words := [0, 0, 0, 0xFFFF, 1] }))).heldBy 0 = some 9 ∧ (0 : Word).toNat + 1000000 ≤ ({ arrived id with time := 1000000 } : State).time
    ∧ ({ arrived id with settab := [(0, 3)] } : State).home 0x40 = some (3, 0x40) ∧ (3 : Nat) ≠ (arrived id).cube
    ∧ ({ arrived id with regions := [(0, { Region.zero with cur := { Stripes.zero with valid := true, n := 1, size := 16 }, frozen := true, copied := 4096 })] } : State).frozenAt 0x40 = true := by decide +kernel
/-- A lost peer: a read of this cube to it, and a tenant already told. -/
theorem wit_lost_reads : (∃ r ∈ (req1 (fun r => { r with remote := true, sent := true }) (on 0 id)).reqs, r.kind = .load ∧ r.dest = .reg 5 ⟨8, false⟩ ∧ r.acq = 0 ∧ r.agent < 2 ^ 50) ∧ ({ State.reset with peers := [3, 4] } : State).peers = [3, 4]
    ∧ ({ on 0 id with asks := [ev .pageWalk 0 0 3] } : State).asks.length = 1 := by decide +kernel
/-- Ports: in training within and beyond 100 ms, a frame that is replayed, and a split one. -/
theorem wit_ports : ((on 0 id).setPort 2 { Port.zero with training := true, since := 0 } |>.port 2).training = true ∧ ({ Port.zero with training := true } : Port).since + 100000000 ≤ 100000000 ∧ ((on 0 id).setPort 2 { Port.zero with replaying := true } |>.port 2).replaying = true
    ∧ ((on 0 id).setPort 8 { Port.zero with split := true } |>.port 8).split = true ∧ ((on 0 id).port 2).training = false ∧ ((on 0 id).port 2).split = false := by decide +kernel
/-- Training that a port has begun brings it up, and records the far end of a torus port. -/
theorem ex_training : ((after .linkRetrain { (on 0 id).setPort 2 { Port.zero with training := true } with arg := { EvArg.zero with a := 2, b := 1, c := 7 } }).port 2).peer = some 7
    ∧ ((after .linkRetrain { on 0 id with arg := { EvArg.zero with a := 2, b := 1, c := 7 } }).port 2).up = false := by decide +kernel
theorem wit_clocks : ({ on 0 id with peers := [0], cube := 5 } : State).isMaster = false ∧ (on 0 id).joined = false ∧ (on 0 id).time ≤ (9 : Word).toNat := by decide +kernel
theorem wit_map_steps : ((moving (fun r => { r with moving := false }) (on 0 id)).region 0).moving = false ∧ (moving id (on 0 id)).mapJob = some 0 ∧ (moving id (on 0 id)).mapWait = [] ∧ ((moving (fun r => { r with moving := false, next := none }) (on 0 id)).region 0).next = none
    ∧ ((moving (fun r => { r with frozen := true, copied := 4096 }) (on 0 id)).region 0).copied = 2 ^ (12 + desc.k) ∧ (on 0 id).draining = [] ∧ 0x10000 % 4096 = 0 := by decide +kernel

/-- Steals: a group with a cube that may steal, and a parcel that may be taken. -/
def victimGrp : State := grp (fun g => { g with cubes := [0, 3], live := true, l := 0, m := 0, members := [⟨0, (on 0 id).agent, 0⟩] }) ((victim id).setPort 1 { Port.zero with up := true, peer := some 3 })
theorem wit_victim : (victimGrp.group 0 5).any (fun g => g.multi && g.flagged 0 g.rank && victimGrp.inStealSet g 3) = true ∧ victimGrp.eligible 0 0 0 0 (parcel (fun p => { p with p := 0xC0000000 ||| 0x80000000 })) = true
    ∧ victimGrp.tiles.length = 1 ∧ (∃ g, victimGrp.group 0 5 = some g ∧ g.cubes ≠ [] ∧ 3 ∈ g.cubes) := by decide +kernel
theorem wit_thief : (∃ e ∈ ((on 0 id).setTile 0 { (on 0 id).tile 0 with parcels := [parcel (fun p => { p with st := .held 50 })] }).tiles, ∃ p ∈ e.2.parcels, p.st = .held 50)
    ∧ (∃ r ∈ (req1 id (on 0 id)).reqs, r.id = 50) ∧ ((victim (fun p => { p with st := .lent 3 50 1 100 })).lentMatch 0 1 100 1 0).isSome = true := by decide +kernel

/-- The host: an aperture line that translates, one that does not, and a full line mask; registers while a command runs. -/
theorem wit_aperture : (match (tabled 0xC (on 0 id)).xlate 0 0x40 false true with | .ok pa _ => !(tabled 0xC (on 0 id)).isRemote pa | _ => false) = true ∧ ((tabled 0xC (on 0 id)).unitRead 0 0x40 64).isSome = true
    ∧ ((tabled 0xC (on 0 id)).placeHost (hostSectors { EvArg.zero with e := 2 ^ 64 - 1, bytes := List.replicate 64 1 } 0x40)).isSome = true ∧ ((on 0 id).setPage 0 { (on 0 id).page 0 with busy := true, job := 4, pending := [(on 0 id).cube] } |>.page 0).busy = true
    ∧ (on 0 id).filters.length < 64 ∧ 64 ≤ (List.replicate 64 ({ tenant := 0, job := 4, since := 0, done := none, coord := 3, acked := false } : Filter)).length := by decide +kernel
theorem wit_tenants : (0x1000 : Word).toNat < 2 ^ 52 ∧ ((on 0 id).tenant 0).live = true ∧ (State.reset).fw.st ≠ .ready := by decide +kernel
/-- A reset while a stripe-map change runs, and the two power limits. -/
theorem wit_resets : ({ on 0 id with mapJob := some 4 } : State).fw.st = .ready ∧ ((after .warmReset { on 0 id with mapJob := some 4 }).outbox.map (fun e => (e.arg.a, e.arg.b))) = [(4, 4)] ∧ (after .warmReset (on 0 id)).fw.st = .booting
    ∧ averageOver [1001, 1001] 1000 = true ∧ averageOver [999] 1000 = false ∧ averageLow [100, 100] 900 = true := by decide +kernel

/-- Inputs: one that a cube without power loses, and a packet of another cube that is taken, comes twice, or is ahead of its order (R248, R419). -/
def getId : Ev := ⟨.getId, EvArg.zero⟩
def numbered (mode n : Nat) : Ev := ⟨.moved, { EvArg.zero with peer := some 3, seq := some (mode, n, 0) }⟩
theorem wit_inputs : ({ on 0 id with power := false } : State).takes getId = false ∧ (on 0 id).takes getId = true ∧ ((on 0 id).receive getId).1 = true ∧ ((on 0 id).receive (numbered 2 0)).1 = true
    ∧ (((on 0 id).receive (numbered 2 0)).2.receive (numbered 2 0)).1 = false ∧ ((on 0 id).receive (numbered 1 1)).1 = false ∧ ({ on 0 id with time := 50001 } : State).receive (numbered 2 0) = (false, { on 0 id with time := 50001 }) := by decide +kernel

end Sys2Proof.Tests
end

section

/-! SUPPORT and THEOREMS. The scalar instructions (R9, R21, R22, R62 to R91, R212, R216, R222, R225, R233, R360, R362): the values of their rows,
what they leave in the running context, in the port queues and in memory, and the theorems that settle O1, O2, O4, O6, O7, O8 and O16. -/

namespace Sys2Proof.ScalarProofs
open Sys2Proof.Machine

/-! ### Bits, bytes and signs of numbers -/

theorem bitAt_eq_testBit (x n : Nat) : bitAt x n = x.testBit n := by
  rw [Nat.testBit_eq_decide_div_mod_eq]; rfl

theorem toBytes_length (x n : Nat) : (toBytes x n).length = n := by
  induction n generalizing x with
  | zero => rfl
  | succ n ih => simp [toBytes, ih]

theorem toBytes_getElem? (x n k : Nat) (hk : k < n) : (toBytes x n)[k]? = some (BitVec.ofNat 8 (x / 256 ^ k)) := by
  induction n generalizing x k with
  | zero => omega
  | succ n ih =>
    cases k with
    | zero => simp [toBytes]
    | succ k =>
      simp only [toBytes, List.getElem?_cons_succ, ih (x / 256) k (by omega), Nat.div_div_eq_div_mul]
      rw [Nat.pow_succ']

theorem ofBytes_lt (l : List Byte) : ofBytes l < 256 ^ l.length := by
  induction l with
  | nil => simp [ofBytes]
  | cons b l ih =>
    have hb : b.toNat < 256 := b.isLt
    simp only [ofBytes, List.length_cons, Nat.pow_succ]
    omega

/-- Byte k of a number is the k-th of its little-endian bytes (R23). -/
theorem ofBytes_div_mod (l : List Byte) (k : Nat) : ofBytes l / 256 ^ k % 256 = (l.getD k 0).toNat := by
  induction l generalizing k with
  | nil => simp [ofBytes]
  | cons b l ih =>
    have hb : b.toNat < 256 := b.isLt
    cases k with
    | zero => simp only [ofBytes, Nat.pow_zero, Nat.div_one, List.getD_cons_zero]; omega
    | succ k =>
      have hq : (b.toNat + 256 * ofBytes l) / 256 = ofBytes l := by omega
      rw [ofBytes, Nat.pow_succ', ← Nat.div_div_eq_div_mul, hq, List.getD_cons_succ, ih]

/-- Byte k of a word is the k-th of its little-endian bytes (R23). -/
theorem toBytes_getD (v : Word) (n k : Nat) (hk : k < n) : (toBytes v.toNat n).getD k 0 = v.extractLsb' (8 * k) 8 := by
  have h256 : (256 : Nat) ^ k = 2 ^ (8 * k) := by rw [Nat.pow_mul]
  rw [List.getD_eq_getElem?_getD, toBytes_getElem? _ _ _ hk, h256]
  apply BitVec.eq_of_toNat_eq
  simp [BitVec.extractLsb'_toNat, Nat.shiftRight_eq_div_pow]

/-- Sign extension of the low n bits of a number is the two's-complement value of those bits. -/
theorem sextInt_eq (x n : Nat) (hn : n ≠ 0) : sextInt x n = (BitVec.ofNat n x).toInt := by
  obtain ⟨m, rfl⟩ := Nat.exists_eq_succ_of_ne_zero hn
  have hp : 2 ^ (m + 1) = 2 * 2 ^ m := Nat.pow_succ'
  simp only [sextInt, BitVec.toInt_eq_toNat_cond, BitVec.toNat_ofNat, Nat.succ_eq_add_one, Nat.add_sub_cancel]
  by_cases h : 2 ^ m ≤ x % 2 ^ (m + 1)
  · rw [if_pos ⟨Nat.succ_ne_zero m, h⟩, if_neg (by omega)]; push_cast; rfl
  · rw [if_neg (fun hc => h hc.2), if_pos (by omega)]

theorem wrapN_word (i : Int) : BitVec.ofNat 64 (wrapN i 64) = BitVec.ofInt 64 i := by
  apply BitVec.eq_of_toNat_eq
  simp only [wrapN, BitVec.toNat_ofNat, BitVec.toNat_ofInt]
  omega

theorem sext64_eq (x n : Nat) (hn : n ≠ 0) : sext64 x n = BitVec.ofInt 64 (BitVec.ofNat n x).toInt := by
  rw [sext64, wrapN_word, sextInt_eq x n hn]

/-- The first number that a predicate holds of, from i on: no earlier one has it. -/
theorem firstFrom_some {p : Nat → Bool} {i n j : Nat} (h : firstFrom p i n = some j) :
    i ≤ j ∧ j < i + n ∧ p j = true ∧ ∀ k, i ≤ k → k < j → p k = false := by
  induction n generalizing i with
  | zero => simp [firstFrom] at h
  | succ n ih =>
    rw [firstFrom] at h
    split at h
    next hp =>
      obtain rfl : i = j := Option.some.inj h
      exact ⟨le_refl i, by omega, hp, fun k h1 h2 => by omega⟩
    next hp =>
      obtain ⟨h1, h2, h3, h4⟩ := ih h
      refine ⟨by omega, by omega, h3, fun k hk hkj => ?_⟩
      rcases Nat.eq_or_lt_of_le hk with rfl | hk
      · simpa using hp
      · exact h4 k hk hkj

theorem firstFrom_none {p : Nat → Bool} {i n : Nat} (h : firstFrom p i n = none) : ∀ k, i ≤ k → k < i + n → p k = false := by
  induction n generalizing i with
  | zero => intro k h1 h2; omega
  | succ n ih =>
    rw [firstFrom] at h
    split at h
    next => cases h
    next hp =>
      intro k hk hkn
      rcases Nat.eq_or_lt_of_le hk with rfl | hk
      · simpa using hp
      · exact ih h k hk (by omega)

theorem popCount_eq (x n : Nat) : popCount x n = ((List.range n).filter x.testBit).length := by
  induction n generalizing x with
  | zero => rfl
  | succ n ih =>
    have hs : x.testBit ∘ Nat.succ = (x / 2).testBit := funext fun k => Nat.testBit_succ x k
    rw [popCount, ih, List.range_succ_eq_map, List.filter_cons, List.filter_map, hs]
    rcases Nat.mod_two_eq_zero_or_one x with h | h <;> simp [Nat.testBit_zero, h, Nat.add_comm]

theorem reverseBits_lt (x n : Nat) : reverseBits x n < 2 ^ n := by
  induction n generalizing x with
  | zero => simp [reverseBits]
  | succ n ih =>
    have h := ih (x / 2)
    rw [reverseBits, Nat.pow_succ']
    rcases Nat.mod_two_eq_zero_or_one x with hx | hx <;> rw [hx] <;> omega

theorem reverseBits_testBit (x n k : Nat) (hk : k < n) : (reverseBits x n).testBit k = x.testBit (n - 1 - k) := by
  induction n generalizing x k with
  | zero => omega
  | succ n ih =>
    rw [reverseBits, Nat.mul_comm, Nat.testBit_two_pow_mul_add _ (reverseBits_lt _ _)]
    split
    next h =>
      have he : n + 1 - 1 - k = (n - 1 - k) + 1 := by omega
      rw [ih _ _ h, he, Nat.testBit_succ]
    next h =>
      have he : k = n := by omega
      subst he
      simp [Nat.testBit_zero]

/-! ### The values of the ALU functions (R65 to R67) -/

theorem shiftLeft_eq_ofNat (a : Word) (n : Nat) : a <<< n = BitVec.ofNat 64 (a.toNat * 2 ^ n) := by
  apply BitVec.eq_of_toNat_eq
  simp [BitVec.toNat_shiftLeft, Nat.shiftLeft_eq]

theorem ushiftRight_eq_ofNat (a : Word) (n : Nat) : a >>> n = BitVec.ofNat 64 (a.toNat / 2 ^ n) := by
  apply BitVec.eq_of_toNat_eq
  rw [BitVec.toNat_ushiftRight, Nat.shiftRight_eq_div_pow, BitVec.toNat_ofNat, Nat.mod_eq_of_lt]
  exact Nat.lt_of_le_of_lt (Nat.div_le_self _ _) a.isLt

theorem sshiftRight_eq_ofInt (a : Word) (n : Nat) : a.sshiftRight n = BitVec.ofInt 64 (a.toInt / 2 ^ n) := by
  rw [BitVec.sshiftRight, Int.shiftRight_eq_div_pow]; push_cast; rfl

theorem rotateLeft_eq (a : Word) (n : Nat) (hn : n < 64) : a.rotateLeft n = a <<< n ||| a >>> (64 - n) := by
  rw [BitVec.rotateLeft, Nat.mod_eq_of_lt hn, BitVec.rotateLeftAux]

theorem rotateRight_eq (a : Word) (n : Nat) (hn : n < 64) : a.rotateRight n = a >>> n ||| a <<< (64 - n) := by
  rw [BitVec.rotateRight, Nat.mod_eq_of_lt hn, BitVec.rotateRightAux]

theorem amount_lt (b : Word) : amount b < 64 := Nat.mod_lt _ (by decide)

theorem mulHigh_eq (a b : Int) : mulHigh a b = (BitVec.ofInt 128 (a * b)).extractLsb' 64 64 := by
  apply BitVec.eq_of_toNat_eq
  rw [mulHigh, BitVec.toNat_ofInt, BitVec.extractLsb'_toNat, BitVec.toNat_ofInt, Nat.shiftRight_eq_div_pow]
  generalize a * b = p
  omega

theorem fMulhu_eq (a b : Word) : fMulhu a b = (BitVec.ofNat 128 (a.toNat * b.toNat)).extractLsb' 64 64 := by
  rw [fMulhu, mulHigh_eq, ← Nat.cast_mul, BitVec.ofInt_natCast]

theorem fMul_eq (a b : Word) : fMul a b = BitVec.ofNat 64 (a.toNat * b.toNat) := by
  simp [fMul, BitVec.ofNat_mul]

theorem eq_allOnes_iff (b : Word) : b = BitVec.allOnes 64 ↔ b.toInt = -1 := by
  have h : (BitVec.allOnes 64).toInt = -1 := by decide
  rw [← h, BitVec.toInt_inj]

/-- `div` truncates toward zero, with all ones for a zero divisor and the dividend on overflow (R66). -/
theorem fDiv_eq (a b : Word) : fDiv a b = if b = 0 then 0xFFFFFFFFFFFFFFFF
    else if a = 0x8000000000000000 ∧ b.toInt = -1 then 0x8000000000000000 else BitVec.ofInt 64 (a.toInt.tdiv b.toInt) := by
  simp only [fDiv, divS, eq_allOnes_iff]; rfl

/-- `rem` has the sign of the dividend, with the dividend for a zero divisor and 0 on overflow (R66). -/
theorem fRem_eq (a b : Word) : fRem a b = if b = 0 then a
    else if a = 0x8000000000000000 ∧ b.toInt = -1 then 0 else BitVec.ofInt 64 (a.toInt - b.toInt * a.toInt.tdiv b.toInt) := by
  simp only [fRem, remS, eq_allOnes_iff]; rfl

theorem fDivu_eq (a b : Word) : fDivu a b = if b = 0 then 0xFFFFFFFFFFFFFFFF else BitVec.ofNat 64 (a.toNat / b.toNat) := rfl

theorem fMin_eq (a b : Word) : fMin a b = if a.toInt ≤ b.toInt then a else b := by simp [fMin, BitVec.sle]
theorem fMax_eq (a b : Word) : fMax a b = if a.toInt ≥ b.toInt then a else b := by simp [fMax, BitVec.sle]
theorem fMinu_eq (a b : Word) : fMinu a b = if a.toNat ≤ b.toNat then a else b := by simp [fMinu, BitVec.ule]
theorem fMaxu_eq (a b : Word) : fMaxu a b = if a.toNat ≥ b.toNat then a else b := by simp [fMaxu, BitVec.ule]
theorem flag64_slt (a b : Word) : flag64 (a.slt b) = if a.toInt < b.toInt then 1 else 0 := by simp [flag64, BitVec.slt]
theorem flag64_ult (a b : Word) : flag64 (a.ult b) = if a.toNat < b.toNat then 1 else 0 := by simp [flag64, BitVec.ult]
theorem fSeq_eq (a b : Word) : fSeq a b = if a = b then 1 else 0 := by simp [fSeq, flag64]
theorem fSne_eq (a b : Word) : fSne a b = if a ≠ b then 1 else 0 := by simp [fSne, flag64]

/-- The rounds of the mix hash (R67). -/
theorem fMix_eq (a b : Word) : ∃ x y z : Word, x = a + (b <<< 32 ||| b >>> 32) ∧ y = (x ^^^ (x >>> 31)) * 0xC3A59D1746E28B5B
    ∧ z = (y ^^^ (y >>> 29)) * 0x8F1D6B2735C9E4A3 ∧ fMix a b = z ^^^ (z >>> 32) := by
  refine ⟨_, _, _, rfl, rfl, rfl, ?_⟩
  rw [fMix, mix64, rotateLeft_eq b 32 (by decide)]; rfl

theorem fClz_eq (a : Word) : (fClz a).toNat ≤ 64 ∧ (a = 0 → fClz a = 64)
    ∧ (a ≠ 0 → (fClz a).toNat < 64 ∧ a.getLsbD (63 - (fClz a).toNat) = true)
    ∧ ∀ k, k < (fClz a).toNat → a.getLsbD (63 - k) = false := by
  by_cases ha : a = 0
  · subst ha; simp [fClz, clz64]
  · have hne : a.toNat ≠ 0 := fun h => ha (BitVec.eq_of_toNat_eq h)
    have hlog : a.toNat.log2 < 64 := (Nat.log2_lt hne).mpr a.isLt
    have hv : (fClz a).toNat = 63 - a.toNat.log2 := by
      rw [fClz, clz64, if_neg ha, BitVec.toNat_ofNat]; omega
    refine ⟨by omega, fun h => absurd h ha, fun _ => ⟨by omega, ?_⟩, fun k hk => ?_⟩
    · have he : 63 - (fClz a).toNat = a.toNat.log2 := by omega
      rw [he, BitVec.getLsbD, Nat.testBit_log2 hne]
    · refine Nat.testBit_lt_two_pow (Nat.lt_of_lt_of_le Nat.lt_log2_self ?_)
      exact Nat.pow_le_pow_right (by decide) (by omega)

theorem fCtz_eq (a : Word) : (fCtz a).toNat ≤ 64 ∧ (a = 0 → fCtz a = 64)
    ∧ (a ≠ 0 → (fCtz a).toNat < 64 ∧ a.getLsbD (fCtz a).toNat = true)
    ∧ ∀ k, k < (fCtz a).toNat → a.getLsbD k = false := by
  have hbit (k : Nat) : bitAt a.toNat k = a.getLsbD k := bitAt_eq_testBit _ _
  cases hf : firstFrom (fun i => bitAt a.toNat i) 0 64 with
  | some j =>
    obtain ⟨-, hj, hset, hlow⟩ := firstFrom_some hf
    rw [hbit] at hset
    have hv : (fCtz a).toNat = j := by simp only [fCtz, ctz64, hf, Option.getD_some, BitVec.toNat_ofNat]; omega
    rw [hv]
    refine ⟨by omega, ?_, fun _ => ⟨by omega, hset⟩, fun k hk => hbit k ▸ hlow k (Nat.zero_le k) hk⟩
    rintro rfl; simp at hset
  | none =>
    have hall := firstFrom_none hf
    have hv : fCtz a = 64 := by simp [fCtz, ctz64, hf]
    have hz : a = 0 := BitVec.eq_of_getLsbD_eq fun k hk => by
      rw [← hbit, hall k (Nat.zero_le k) (by omega)]; simp
    rw [hv]
    exact ⟨by decide, fun _ => rfl, fun h => absurd hz h, fun k _ => by simp [hz]⟩

theorem fPopc_eq (a : Word) : (fPopc a).toNat = ((List.range 64).filter (fun k => a.getLsbD k)).length := by
  have hle : ((List.range 64).filter a.toNat.testBit).length ≤ 64 := by
    simpa using List.length_filter_le a.toNat.testBit (List.range 64)
  rw [fPopc, BitVec.toNat_ofNat, popCount_eq]
  exact Nat.mod_eq_of_lt (by omega)

theorem fBswap_eq (a : Word) (k : Nat) (hk : k < 8) : (fBswap a).extractLsb' (8 * k) 8 = a.extractLsb' (8 * (7 - k)) 8 := by
  have hlen : (toBytes a.toNat 8).length = 8 := toBytes_length _ _
  have hlt : ofBytes (toBytes a.toNat 8).reverse < 2 ^ 64 := by simpa [hlen] using ofBytes_lt (toBytes a.toNat 8).reverse
  have hrev : (toBytes a.toNat 8).reverse.getD k 0 = (toBytes a.toNat 8).getD (7 - k) 0 := by
    rw [List.getD_eq_getElem?_getD, List.getD_eq_getElem?_getD, List.getElem?_reverse (by omega), hlen]
  rw [← toBytes_getD a 8 (7 - k) (by omega), ← hrev]
  apply BitVec.eq_of_toNat_eq
  rw [← ofBytes_div_mod, BitVec.extractLsb'_toNat, fBswap, bswap64, BitVec.toNat_ofNat, Nat.mod_eq_of_lt hlt,
    Nat.shiftRight_eq_div_pow, Nat.pow_mul]

theorem fBrev_eq (a : Word) (k : Nat) (hk : k < 64) : (fBrev a).getLsbD k = a.getLsbD (63 - k) := by
  rw [fBrev, BitVec.getLsbD_ofNat, reverseBits_testBit _ _ _ hk]
  simp [hk, BitVec.getLsbD]

theorem sext64_low (a : Word) (n : Nat) (hn : n ≠ 0) : sext64 a.toNat n = (a.extractLsb' 0 n).signExtend 64 := by
  rw [sext64_eq _ _ hn]; rfl

theorem ofNat_mod_low (a : Word) (n : Nat) : BitVec.ofNat 64 (a.toNat % 2 ^ n) = (a.extractLsb' 0 n).zeroExtend 64 := by
  apply BitVec.eq_of_toNat_eq
  simp [BitVec.extractLsb'_toNat]


/-! ### O1: one row of the table at a time -/

/-- A row of R65 for two sources: the instruction completes with a value that the row allows. -/
def Completes2 (r : (Reg → Reg → Reg → Bool → Bool → Instr) × (Word → Word → Word → Prop)) : Prop :=
  ∀ (s : State) (d a b : Reg) (t u : Bool), s.issues ⟨[(a, t), (b, u)], [], [d], []⟩ = true →
    ∃ v, r.2 (s.val a) (s.val b) v ∧ exec (r.1 d a b t u) s = .next (s.retire (r.1 d a b t u) ⟨[(a, t), (b, u)], [], [d], []⟩ d v)

/-- A row of R65 for one source: the instruction completes with a value that the row allows. -/
def Completes1 (r : (Reg → Reg → Bool → Instr) × (Word → Word → Prop)) : Prop :=
  ∀ (s : State) (d a : Reg) (t : Bool), s.issues ⟨[(a, t)], [], [d], []⟩ = true →
    ∃ v, r.2 (s.val a) v ∧ exec (r.1 d a t) s = .next (s.retire (r.1 d a t) ⟨[(a, t)], [], [d], []⟩ d v)

theorem run2_issued {s : State} {d a b : Reg} {t u : Bool} (h : s.issues ⟨[(a, t), (b, u)], [], [d], []⟩ = true) (i : Instr) (f : Word → Word → Word) :
    s.run2 i d a b t u f = s.retire i ⟨[(a, t), (b, u)], [], [d], []⟩ d (f (s.val a) (s.val b)) := State.issue_go h _

theorem run1_issued {s : State} {d a : Reg} {t : Bool} (h : s.issues ⟨[(a, t)], [], [d], []⟩ = true) (i : Instr) (f : Word → Word) :
    s.run1 i d a t f = s.retire i ⟨[(a, t)], [], [d], []⟩ d (f (s.val a)) := State.issue_go h _

/-- An instruction that runs a function of two sources completes its row when the function's value is as the row says. -/
theorem completes2_of_run2 {i : Reg → Reg → Reg → Bool → Bool → Instr} {P : Word → Word → Word → Prop} (f : Word → Word → Word)
    (hv : ∀ a b, P a b (f a b)) (hx : ∀ d a b t u s, exec (i d a b t u) s = .next (s.run2 (i d a b t u) d a b t u f) := by intros; rfl) :
    Completes2 (i, P) :=
  fun s d a b t u h => ⟨f (s.val a) (s.val b), hv _ _, by rw [hx, run2_issued h]⟩

/-- An instruction that runs a function of one source completes its row when the function's value is as the row says. -/
theorem completes1_of_run1 {i : Reg → Reg → Bool → Instr} {P : Word → Word → Prop} (f : Word → Word)
    (hv : ∀ a, P a (f a)) (hx : ∀ d a t s, exec (i d a t) s = .next (s.run1 (i d a t) d a t f) := by intros; rfl) : Completes1 (i, P) :=
  fun s d a t h => ⟨f (s.val a), hv _, by rw [hx, run1_issued h]⟩

/-- Settles O1, row by row: each instruction runs the function whose value its row gives. -/
theorem aluResults : Obligations.AluResults := by
  refine ⟨List.forall_iff_forall_mem.mp ?_, List.forall_iff_forall_mem.mp ?_⟩
  · exact ⟨
      completes2_of_run2 fAdd (fun _ _ => rfl),
      completes2_of_run2 fSub (fun _ _ => rfl),
      completes2_of_run2 fAnd (fun _ _ => rfl),
      completes2_of_run2 fOr (fun _ _ => rfl),
      completes2_of_run2 fXor (fun _ _ => rfl),
      completes2_of_run2 fAndn (fun _ _ => rfl),
      completes2_of_run2 fOrn (fun _ _ => rfl),
      completes2_of_run2 fShl (fun a b => shiftLeft_eq_ofNat a (amount b)),
      completes2_of_run2 fShr (fun a b => ushiftRight_eq_ofNat a (amount b)),
      completes2_of_run2 fSra (fun a b => sshiftRight_eq_ofInt a (amount b)),
      completes2_of_run2 fRol (fun a b => rotateLeft_eq a (amount b) (amount_lt b)),
      completes2_of_run2 fRor (fun a b => rotateRight_eq a (amount b) (amount_lt b)),
      completes2_of_run2 fMul fMul_eq,
      completes2_of_run2 fMulh (fun a b => mulHigh_eq a.toInt b.toInt),
      completes2_of_run2 fMulhu fMulhu_eq,
      completes2_of_run2 fMulhsu (fun a b => mulHigh_eq a.toInt b.toNat),
      completes2_of_run2 fDiv fDiv_eq,
      completes2_of_run2 fDivu fDivu_eq,
      completes2_of_run2 fRem fRem_eq,
      completes2_of_run2 fRemu (fun _ _ => rfl),
      completes2_of_run2 fMin fMin_eq,
      completes2_of_run2 fMax fMax_eq,
      completes2_of_run2 fMinu fMinu_eq,
      completes2_of_run2 fMaxu fMaxu_eq,
      completes2_of_run2 fSlt flag64_slt,
      completes2_of_run2 fSltu flag64_ult,
      completes2_of_run2 fSeq fSeq_eq,
      completes2_of_run2 fSne fSne_eq,
      completes2_of_run2 fMix fMix_eq⟩
  · exact ⟨
      completes1_of_run1 fClz fClz_eq,
      completes1_of_run1 fCtz fCtz_eq,
      completes1_of_run1 fPopc fPopc_eq,
      completes1_of_run1 fBswap fBswap_eq,
      completes1_of_run1 fBrev fBrev_eq,
      completes1_of_run1 fSextB (fun a => sext64_low a 8 (by decide)),
      completes1_of_run1 fSextH (fun a => sext64_low a 16 (by decide)),
      completes1_of_run1 fSextW (fun a => sext64_low a 32 (by decide)),
      completes1_of_run1 fZextB (fun a => ofNat_mod_low a 8),
      completes1_of_run1 fZextH (fun a => ofNat_mod_low a 16),
      completes1_of_run1 fZextW (fun a => ofNat_mod_low a 32)⟩

/-! ### O2: immediates, `sel` and bit fields (R65, R68 to R71) -/

theorem imm64_eq (i : BitVec 13) : imm64 i = BitVec.ofInt 64 i.toInt := rfl

theorem upper64_eq (i : BitVec 20) : upper64 i = BitVec.ofInt 64 (i.toInt * 4096) := by
  rw [upper64, BitVec.signExtend, BitVec.toInt_append_zero, Int.mul_comm]; rfl

theorem bfx64_eq (l w : Nat) (x : Word) : bfx64 l w x = (x.extractLsb' l (w + 1)).zeroExtend 64 := by
  apply BitVec.eq_of_toNat_eq
  simp [bfx64, BitVec.extractLsb'_toNat, Nat.shiftRight_eq_div_pow]

/-- `bfi` takes the bits of the field from the source and the others from the old value (R71). -/
theorem bfi64_bit (l w : Nat) (o x : Word) (k : Nat) (hk : k < 64) :
    (bfi64 l w o x).getLsbD k = if l ≤ k ∧ k ≤ l + w then x.getLsbD (k - l) else o.getLsbD k := by
  simp only [bfi64, BitVec.getLsbD_or, BitVec.getLsbD_and, BitVec.getLsbD_not, BitVec.getLsbD_ofNat, Nat.testBit_mul_two_pow,
    Nat.testBit_two_pow_sub_one, Nat.testBit_mod_two_pow, hk, decide_true, Bool.true_and]
  by_cases hl : l ≤ k
  · by_cases hw : k - l < w + 1
    · simp [hl, hw, show k ≤ l + w by omega, BitVec.getLsbD]
    · simp [hw, show ¬ k ≤ l + w by omega]
  · simp [hl]

theorem runImm_issued {s : State} {d a : Reg} {t : Bool} (h : s.issues ⟨[(a, t)], [], [d], []⟩ = true) (i : Instr) (f : Word → Word) :
    s.runImm i d a t f = s.retire i ⟨[(a, t)], [], [d], []⟩ d (f (s.val a)) := State.issue_go h _

theorem run0_issued {s : State} {d : Reg} (h : s.issues ⟨[], [], [d], []⟩ = true) (i : Instr) (v : Word) :
    s.run0 i d v = s.retire i ⟨[], [], [d], []⟩ d v := State.issue_go h _

/-- A row of R68: an instruction with a 13-bit immediate completes with the value that the row gives. -/
def CompletesImm (r : (Reg → Reg → Bool → BitVec 13 → Instr) × (Word → Word → Word)) : Prop :=
  ∀ (s : State) (d a : Reg) (t : Bool) (i : BitVec 13), s.issues ⟨[(a, t)], [], [d], []⟩ = true →
    exec (r.1 d a t i) s = .next (s.retire (r.1 d a t i) ⟨[(a, t)], [], [d], []⟩ d (r.2 (s.val a) (BitVec.ofInt 64 i.toInt)))

/-- A row of R69: an instruction with a shift amount completes with the value that the row gives. -/
def CompletesShift (r : (Reg → Reg → Bool → Fin 64 → Instr) × (Word → Nat → Word)) : Prop :=
  ∀ (s : State) (d a : Reg) (t : Bool) (n : Fin 64), s.issues ⟨[(a, t)], [], [d], []⟩ = true →
    exec (r.1 d a t n) s = .next (s.retire (r.1 d a t n) ⟨[(a, t)], [], [d], []⟩ d (r.2 (s.val a) n.val))

theorem completesImm_of_runImm {i : Reg → Reg → Bool → BitVec 13 → Instr} {g : Word → Word → Word} (f : BitVec 13 → Word → Word)
    (hv : ∀ n x, f n x = g x (imm64 n)) (hx : ∀ d a t n s, exec (i d a t n) s = .next (s.runImm (i d a t n) d a t (f n)) := by intros; rfl) :
    CompletesImm (i, g) :=
  fun s d a t n h => by rw [hx, runImm_issued h, hv, imm64_eq]

theorem completesShift_of_runImm {i : Reg → Reg → Bool → Fin 64 → Instr} {g : Word → Nat → Word} (f : Nat → Word → Word)
    (hv : ∀ (n : Fin 64) x, f n.val x = g x n.val)
    (hx : ∀ d a t n s, exec (i d a t n) s = .next (s.runImm (i d a t n) d a t (f n.val)) := by intros; rfl) : CompletesShift (i, g) :=
  fun s d a t n h => by rw [hx, runImm_issued h, hv]

/-- Settles O2: the immediates row by row, `sel` and the bit fields by themselves. -/
theorem immediatesAndFields : Obligations.ImmediatesAndFields := by
  refine ⟨⟨?sel, ?bfx, ?bfi⟩, List.forall_iff_forall_mem.mp ?imm, List.forall_iff_forall_mem.mp ?shift, ?upper⟩
  case sel =>
    intro s d a b t u h
    exact congrArg Host.Outcome.next (State.issue_go h _)
  case bfx =>
    intro s d a t lo w _ h
    rw [← bfx64_eq, ← runImm_issued h]; rfl
  case bfi =>
    intro s d a t lo w _ h
    exact ⟨_, congrArg Host.Outcome.next (State.issue_go h _), fun k hk => bfi64_bit lo.val w.val _ _ k hk⟩
  case imm =>
    exact ⟨
      completesImm_of_runImm fAddi (fun _ _ => rfl),
      completesImm_of_runImm fAndi (fun _ _ => rfl),
      completesImm_of_runImm fOri (fun _ _ => rfl),
      completesImm_of_runImm fXori (fun _ _ => rfl),
      completesImm_of_runImm fSlti (fun i x => flag64_slt x (imm64 i)),
      completesImm_of_runImm fSltiu (fun i x => flag64_ult x (imm64 i))⟩
  case shift =>
    exact ⟨
      completesShift_of_runImm (fun n x => x <<< n) (fun n x => shiftLeft_eq_ofNat x n.val),
      completesShift_of_runImm (fun n x => x >>> n) (fun n x => ushiftRight_eq_ofNat x n.val),
      completesShift_of_runImm (fun n x => x.sshiftRight n) (fun n x => sshiftRight_eq_ofInt x n.val),
      completesShift_of_runImm (fun n x => x.rotateLeft n) (fun n x => rotateLeft_eq x n.val n.isLt)⟩
  case upper =>
    intro s d i h
    exact ⟨by rw [← upper64_eq, ← run0_issued h]; rfl, by rw [← upper64_eq, ← run0_issued h]; rfl⟩

/-! ### The running context after a completion (R84, R85, R383, R385) -/

theorem popFrames_eq (t : Word) (l : List Frame) :
    popFrames t l = l.dropWhile (fun f => !(decide (f.start ≤ t) && decide (t ≤ f.stop))) := by
  induction l with
  | nil => rfl
  | cons f l ih =>
    by_cases h : f.start ≤ t ∧ t ≤ f.stop
    · rw [popFrames, if_pos h, List.dropWhile_cons_of_neg (by simp [h])]
    · rw [popFrames, if_neg h, ih, List.dropWhile_cons_of_pos (by simpa [-not_and, not_and_or] using h)]

theorem feed_of_encode {i : Instr} {w : Nat} {ws : List Nat} (h : encode i = w :: ws) (x : Ctx) :
    x.feed i = { x with sig := sigFeed x.sig w } := by
  simp only [Ctx.feed, h]

/-- A taken transfer forgets the checker, and so the word that it has been fed (R385). -/
theorem jump_feed (x : Ctx) (i : Instr) (t : Word) : (x.feed i).jump t = x.jump t := by
  unfold Ctx.feed
  split <;> rfl

theorem fallThrough_four (x : Ctx) : x.fallThrough 4 =
    { x with loops := (endCheck x.pc x.pc x.loops).1, pc := (endCheck x.pc x.pc x.loops).2.getD (x.pc + 4),
             sig := if (endCheck x.pc x.pc x.loops).2.isSome then 0 else x.sig } := by
  have h0 : x.pc + BitVec.ofNat 64 (4 - 4) = x.pc := by simp
  unfold Ctx.fallThrough
  simp only [h0]
  split <;> next h => simp [h]

theorem endCheck_elsewhere {x : Word} {l : List Frame} (h : ∀ f r, l = f :: r → x ≠ f.stop) : endCheck x x l = (l, none) := by
  cases l with
  | nil => rfl
  | cons f r =>
    rw [endCheck, if_neg fun hc => h f r rfl (BitVec.le_antisymm hc.1 hc.2)]

theorem endCheck_again {f : Frame} (r : List Frame) (h : f.left - 1 ≠ 0) :
    endCheck f.stop f.stop (f :: r) = ({ f with left := f.left - 1 } :: r, some f.start) := by
  rw [endCheck, if_pos ⟨BitVec.le_refl _, BitVec.le_refl _⟩, if_pos h]

/-- An instruction of one word that ends no loop body goes on behind itself (R84). -/
theorem fallThrough_elsewhere {x : Ctx} (h : ∀ f r, x.loops = f :: r → x.pc ≠ f.stop) : x.fallThrough 4 = { x with pc := x.pc + 4 } := by
  rw [fallThrough_four, endCheck_elsewhere h]; rfl

/-- An instruction of one word at the end of a body with passes left goes back to the start (R84, R385). -/
theorem fallThrough_again {x : Ctx} {f : Frame} {r : List Frame} (hl : x.loops = f :: r) (hp : x.pc = f.stop) (hn : f.left - 1 ≠ 0) :
    x.fallThrough 4 = { x with loops := { f with left := f.left - 1 } :: r, pc := f.start, sig := 0 } := by
  rw [fallThrough_four, hl, hp, endCheck_again r hn]; rfl

/-- Replacing the running context changes nothing else. -/
theorem setSelf_frame (s : State) (x : Ctx) :
    s.setSelf x = { s with ctxs := (s.setSelf x).ctxs } ∧ ∀ k, k ≠ s.me → (s.setSelf x).ctx k = s.ctx k :=
  ⟨rfl, State.ctx_setSelf_ne s x⟩

/-! ### O4: branches and jumps (R79 to R81) -/

theorem target_eq (pc : Word) (n : Nat) (off : BitVec n) : target pc n off = pc + BitVec.ofInt 64 (4 * off.toInt) := by
  rw [target, BitVec.ofInt_mul]; rfl

theorem branch_taken_self (s : State) (i : Instr) (t : Word) : (s.branch i true t).self = { s.self.afterIssue s.cycle with
    pc := t, sig := 0, loops := s.self.loops.dropWhile (fun f => !(decide (f.start ≤ t) && decide (t ≤ f.stop))) } := by
  simp only [State.branch, if_true, State.self_setSelf, ← popFrames_eq]
  unfold Ctx.feed
  split <;> rfl

theorem branch_untaken_self (s : State) (i : Instr) (t : Word) {w : Nat} {ws : List Nat} (h : encode i = w :: ws) :
    (s.branch i false t).self = ({ s.self with sig := crcBit (sigFeed s.self.sig w) false }.fallThrough 4).issuedAt s.cycle := by
  simp [State.branch, feed_of_encode h]

theorem finishJump_self (s : State) (i : Instr) (t : Word) : (s.finishJump i t).self = { s.self.afterIssue s.cycle with
    pc := t, sig := 0, loops := s.self.loops.dropWhile (fun f => !(decide (f.start ≤ t) && decide (t ≤ f.stop))) } := by
  rw [State.finishJump, State.self_setSelf, jump_feed, ← popFrames_eq]; rfl

/-- A row of R79: a comparing branch branches as the row's condition says. -/
def BranchesOn (r : (Reg → Reg → BitVec 11 → Instr) × (Word → Word → Bool)) : Prop :=
  ∀ (s : State) (a b : Reg) (off : BitVec 11), s.issues ⟨[], [(a, false), (b, false)], [], []⟩ = true →
    exec (r.1 a b off) s = .next (s.branch (r.1 a b off) (r.2 (s.val a) (s.val b)) (s.self.pc + BitVec.ofInt 64 (4 * off.toInt)))

theorem branchesOn_of_runBr {i : Reg → Reg → BitVec 11 → Instr} {g : Word → Word → Bool} (c : Word → Word → Bool)
    (hc : ∀ x y, c x y = g x y) (hx : ∀ a b o s, exec (i a b o) s = .next (s.runBr (i a b o) a b o c) := by intros; rfl) : BranchesOn (i, g) :=
  fun s a b o h => by rw [hx, State.runBr, State.issue_go h, hc, target_eq]

theorem runBrBit_issued {s : State} {a : Reg} (h : s.issues ⟨[], [(a, false)], [], []⟩ = true) (i : Instr) (n : Fin 64) (o : BitVec 11) (want : Bool) :
    s.runBrBit i a n o want = s.branch i ((s.val a).getLsbD n.val == want) (s.self.pc + BitVec.ofInt 64 (4 * o.toInt)) := by
  rw [State.runBrBit, State.issue_go h, target_eq, bitAt_eq_testBit]; rfl

theorem low_two_bits (t : Word) : t.extractLsb' 0 2 = 0 ↔ t.toNat % 4 = 0 := by
  rw [← BitVec.toNat_inj]; simp [BitVec.extractLsb'_toNat]

theorem jalr_issued {s : State} {d a : Reg} {tr : Bool} (h : s.issues ⟨[], [(a, tr)], [d], []⟩ = true) (imm : BitVec 13) :
    exec (.jalr d a tr imm) s = .next (if (s.val a + BitVec.ofInt 64 imm.toInt).toNat % 4 ≠ 0 then s.trap 0x04 0 (s.val a + BitVec.ofInt 64 imm.toInt)
      else (s.put d (s.self.pc + 4)).finishJump (.jalr d a tr imm) (s.val a + BitVec.ofInt 64 imm.toInt)) :=
  congrArg Host.Outcome.next (State.issue_go h _)

/-- Settles O4: the conditions row by row, then what a decided branch and a jump leave in the context. -/
theorem branchesAndJumps : Obligations.BranchesAndJumps := by
  refine ⟨⟨List.forall_iff_forall_mem.mp ?compare, ?bit⟩, ?branch, ?jal, ?jalr, ?jump⟩
  case compare =>
    exact ⟨
      branchesOn_of_runBr (fun x y => x == y) (fun x y => Bool.beq_eq_decide_eq x y),
      branchesOn_of_runBr (fun x y => x != y) (fun x y => by simp [bne, Bool.beq_eq_decide_eq]),
      branchesOn_of_runBr (fun x y => x.slt y) (fun _ _ => rfl),
      branchesOn_of_runBr (fun x y => y.sle x) (fun _ _ => rfl),
      branchesOn_of_runBr (fun x y => x.ult y) (fun _ _ => rfl),
      branchesOn_of_runBr (fun x y => y.ule x) (fun _ _ => rfl)⟩
  case bit =>
    intro s a n off h
    constructor
    · exact congrArg Host.Outcome.next ((runBrBit_issued h _ n off true).trans (by rw [beq_true]))
    · exact congrArg Host.Outcome.next ((runBrBit_issued h _ n off false).trans (by rw [beq_false]))
  case branch =>
    intro s i t w ws henc
    refine ⟨fun c => setSelf_frame s _, branch_taken_self s i t, ?_⟩
    intro c hc
    rw [branch_untaken_self s i t henc, ← hc]
    refine ⟨fun h => ?_, fun f l hl hp hn => ?_⟩
    · rw [fallThrough_elsewhere (x := { s.self with sig := c }) h]; rfl
    · rw [fallThrough_again (x := { s.self with sig := c }) hl hp hn]; rfl
  case jal =>
    intro s d off h
    rw [← target_eq]
    exact congrArg Host.Outcome.next (State.issue_go h _)
  case jalr =>
    rintro s d a tr imm t h rfl
    rw [jalr_issued h]
    refine ⟨fun ht => ?_, fun ht => ?_⟩
    · rw [if_neg (not_not.mpr ((low_two_bits _).mp ht))]
    · rw [if_pos (mt (low_two_bits _).mpr ht)]
  case jump =>
    intro s i t
    exact ⟨(setSelf_frame s _).1, (setSelf_frame s _).2, finishJump_self s i t⟩

/-! ### O16: traps by instruction and the return from a trap (R89, R360, R362) -/

theorem issue_nothing (s k : State) : s.issue useNothing k = k := State.issue_go (by simp [State.issues, useNothing, Use.sources, Use.dests, Use.usesPort, portTwice]) k

theorem sys_eq (s : State) (c : Fin 1024) : exec (.sys c) s =
    .next (takeTrapAt (s.setSelf { s.self with loops := (s.self.fallThrough 4).loops, sig := (s.self.fallThrough 4).sig }) s.cur.1 s.cur.2 0x0C 0
      (BitVec.ofNat 64 c.val) (s.self.fallThrough 4).pc 0 false) :=
  congrArg Host.Outcome.next (issue_nothing s _)

theorem rte_user {s : State} (h : s.self.priv = .user) : exec .rte s = .next (s.trap 0x02 0 0xB0001000) :=
  congrArg Host.Outcome.next (if_pos h)

theorem rte_steward {s : State} (h : s.self.priv ≠ .user) (hc : s.cur.2 = 8) : exec .rte s = .next (endEvent s s.cur.1) :=
  congrArg Host.Outcome.next ((if_neg h).trans (if_pos hc))

/-- Outside the steward `rte` checks the saved mode, then the saved pc (R362). -/
theorem rte_checks {s : State} (h : s.self.priv ≠ .user) (hc : s.cur.2 ≠ 8) : exec .rte s = .next (
    if bits s.self.tcause.toNat 11 10 = 3 then s.trap 0x01 0x0D 0xB0001000
    else if bits s.self.tcause.toNat 11 10 = 2 then s.trap 0x02 0 0xB0001000
    else if s.self.tpc.toNat % 4 ≠ 0 then s.trap 0x04 0 s.self.tpc
    else s.setSelf ((s.self.feed .rte).leave.issuedAt s.cycle)) :=
  congrArg Host.Outcome.next ((if_neg h).trans (if_neg hc))

theorem leave_issued (x : Ctx) (cycle : Nat) : ((x.feed .rte).leave.issuedAt cycle) = { x.afterIssue cycle with
    pc := x.tpc, priv := (if bits x.tcause.toNat 11 10 = 0 then .user else .supervisor),
    loops := (if bits x.tcause.toNat 11 10 = 0 then x.shadow else x.loops)
    sig := (if bits x.tcause.toNat 11 10 = 0 then x.sigctl.truncate 16 else sigFeed x.sig 0xB0001000) } := by
  have hp : bits x.tcause.toNat 11 10 = x.tcause.toNat / 1024 % 4 := rfl
  rw [feed_of_encode (i := .rte) rfl, hp]
  unfold Ctx.leave
  split <;> next h => simp [Ctx.issuedAt, Ctx.afterIssue, h]

/-- Settles O16: `sys` through the end check, `brk` and the illegal word at their own address, `rte` check by check. -/
theorem trapInstructions : Obligations.TrapInstructions := by
  refine ⟨⟨?sys, ?sysAgain, ?brk, fun s => rfl⟩, ?rte⟩
  case sys =>
    intro s c h
    rw [sys_eq, fallThrough_elsewhere h]
  case sysAgain =>
    intro s c f l hl hp hn
    rw [sys_eq, fallThrough_again hl hp hn]
  case brk =>
    intro s c
    exact congrArg Host.Outcome.next (issue_nothing s _)
  case rte =>
    rintro s p w rfl rfl
    refine ⟨rte_user, rte_steward, fun hu hc => ?_⟩
    rw [rte_checks hu hc]
    refine ⟨fun hp => ?_, fun hp => ?_, fun hp ht => ?_, fun hp ht => ?_⟩
    · rw [if_pos hp]
    · rw [if_neg (by omega), if_pos hp]
    · rw [if_neg (by omega), if_neg (by omega), if_pos ht]
    · rw [if_neg (by omega), if_neg (by omega), if_neg (not_not.mpr ht), leave_issued]

/-! ### A destination that awaits a result (R9, R63) -/

theorem await_pout (s : State) {d : Reg} (h : d.val = 61) (id : Nat) :
    s.await d id = s.setPinQ s.poutKey (s.pinQ s.poutKey ++ [⟨id, false, 0, false⟩]) := if_pos h

theorem await_dn (s : State) {d : Reg} (h : d.val = 63) (id : Nat) :
    s.await d id = s.setUpQ s.dnKey (s.upQ s.dnKey ++ [⟨id, false, 0, false⟩]) := by
  rw [State.await, if_neg (by omega), if_pos h]

theorem await_reg (s : State) {d : Reg} (h61 : d.val ≠ 61) (h63 : d.val ≠ 63) (id : Nat) :
    s.await d id = s.setSelf (s.self.pend d.val) := by
  rw [State.await, if_neg h61, if_neg h63]

/-- Awaiting a result changes the running context or one port queue. -/
theorem await_frame (s : State) (d : Reg) (id : Nat) :
    s.await d id = { s with ctxs := (s.await d id).ctxs, queues := (s.await d id).queues, chains := (s.await d id).chains }
      ∧ ∀ k, k ≠ s.me → (s.await d id).ctx k = s.ctx k := by
  by_cases h61 : d.val = 61
  · rw [await_pout s h61]; exact ⟨rfl, fun _ _ => rfl⟩
  by_cases h63 : d.val = 63
  · rw [await_dn s h63]; exact ⟨rfl, fun _ _ => rfl⟩
  · rw [await_reg s h61 h63]; exact ⟨rfl, State.ctx_setSelf_ne s _⟩

@[simp] theorem await_reqs (s : State) (d : Reg) (id : Nat) : (s.await d id).reqs = s.reqs := by rw [(await_frame s d id).1]
@[simp] theorem await_nid (s : State) (d : Reg) (id : Nat) : (s.await d id).nid = s.nid := by rw [(await_frame s d id).1]

theorem pinQ_setPinQ_self (s : State) (k : Nat) (l : List QEnt) : (s.setPinQ k l).pinQ k = l := smGet_smPut_self [] k l s.queues
theorem upQ_setUpQ_self (s : State) (k : Nat) (l : List QEnt) : (s.setUpQ k l).upQ k = l := smGet_smPut_self [] k l s.chains

/-- The state with a request of the next identity behind the others. -/
def requested (s : State) (q : Req) : State := { s with nid := s.nid + 1 }.addReq q

/-- A destination that awaits the request of the next identity: what it holds, and the frame. -/
theorem await_requested (s : State) (d : Reg) (q : Req) (u : State) (hu : u = (requested s q).await d s.nid) :
    u = { s with ctxs := u.ctxs, queues := u.queues, chains := u.chains, reqs := u.reqs, nid := s.nid + 1 } ∧ (∀ k, k ≠ s.me → u.ctx k = s.ctx k)
      ∧ (d.val < 60 → u.self = s.self.pend d.val ∧ u.queues = s.queues ∧ u.chains = s.chains)
      ∧ (d.val = 61 → u.self = s.self ∧ u.pinQ s.poutKey = s.pinQ s.poutKey ++ [⟨s.nid, false, 0, false⟩])
      ∧ (d.val = 63 → u.self = s.self ∧ u.upQ s.dnKey = s.upQ s.dnKey ++ [⟨s.nid, false, 0, false⟩]) := by
  obtain ⟨hf, hk⟩ := await_frame (requested s q) d s.nid
  rw [← hu] at hf hk
  have hn : u.nid = s.nid + 1 := by rw [hu, await_nid]; rfl
  refine ⟨by rw [hf]; rfl, hk, fun hd => ?_, fun hd => ?_, fun hd => ?_⟩
  · rw [hu, await_reg _ (by omega) (by omega)]
    exact ⟨State.self_setSelf _ _, rfl, rfl⟩
  · rw [hu, await_pout _ hd]
    exact ⟨rfl, pinQ_setPinQ_self _ _ _⟩
  · rw [hu, await_dn _ hd]
    exact ⟨rfl, upQ_setUpQ_self _ _ _⟩

/-! ### O6: full and empty registers (R87, R88) -/

theorem feCode_toNat (c : Cell) : (feCode c).toNat = (if c.poison then 4 else 0) + (match c.st with | .idle => 0 | .pending => 1 | .full => 2) := by
  obtain ⟨v, st, p⟩ := c
  cases st <;> cases p <;> rfl

theorem feTest_free {s : State} {a : Reg} (h : heldWrite s s.me a.val = false) (d : Reg) : exec (.feTest d a) s =
    .next (s.issue ⟨[], [], [], [d]⟩ (if isPort a.val then s.trap 0x08 0 (BitVec.ofNat 64 a.val)
      else s.retire (.feTest d a) ⟨[], [], [], [d]⟩ d (feCode (s.self.cell a.val)))) :=
  congrArg Host.Outcome.next (if_neg (by simp [h]))

/-- A port as a destination that may be none traps PORT in a thread at home (R13). -/
theorem issue_dstFixed_port {s : State} {d : Reg} (hh : s.self.home = none) (hd : isPort d.val = true) (k : State) :
    s.issue ⟨[], [], [], [d]⟩ k = s.trap 0x08 0 (BitVec.ofNat 64 d.val) := by
  simp [State.issue, State.issueWith, Use.waits, Use.sources, Use.dests, Use.portFault, hd, hh]

/-- Settles O6: the three instructions by their issue, the later results by what awaiting one leaves. -/
theorem registerStates : Obligations.RegisterStates := by
  refine ⟨⟨?clrSet, ?testPort, ?test⟩, fun s d v u => ⟨?later, ?frame, ?producer⟩⟩
  case clrSet =>
    intro s d h
    exact ⟨congrArg Host.Outcome.next (State.issue_go h _), congrArg Host.Outcome.next (State.issue_go h _)⟩
  case testPort =>
    intro s d a ha hh hd
    rw [feTest_free ha, issue_dstFixed_port hh (decide_eq_true hd)]
  case test =>
    intro s d a h ha
    rw [feTest_free ha, State.issue_go h]
    refine ⟨fun hp => ⟨_, ?_, feCode_toNat (s.self.cell a.val)⟩, fun hp => ?_⟩
    · rw [if_neg (by simp [isPort]; omega)]
    · have hport : isPort a.val = true := decide_eq_true hp
      rw [if_pos hport]
  case later =>
    rintro rfl
    exact ⟨_, await_reqs _ _ _, rfl, rfl, rfl, rfl, rfl, rfl, rfl⟩
  case frame =>
    rintro (hu | hu)
    · exact await_requested s d _ u hu
    · exact await_requested s d _ u hu
  case producer =>
    rintro rfl
    exact ⟨rfl, _, await_reqs _ _ _, rfl, rfl, rfl, rfl⟩

/-! ### Bytes of memory after a write -/

theorem byte_write_inside (m : List Host.Cell) (a k : Nat) (bs : List Byte) (hk : k < bs.length) :
    Memory.byte (Memory.write m a bs) (a + k) = bs.getD k 0 := by
  induction bs generalizing m a k with
  | nil => simp at hk
  | cons b bs ih =>
    show Memory.byte (Memory.write (Memory.put m a b) (a + 1) bs) (a + k) = _
    cases k with
    | zero => rw [Memory.byte_write_outside _ _ _ _ (by omega)]; exact Memory.byte_put_self m a b
    | succ k =>
      have he : a + (k + 1) = a + 1 + k := by omega
      rw [he, ih _ _ _ (by simpa using hk), List.getD_cons_succ]

/-- A state whose memory holds bytes written from an address on: those bytes, and nothing else of memory. -/
theorem memBut_of_write {s u : State} {key : Nat} {bs : List Byte} (h : u.mem = Memory.write s.mem key bs) :
    (∀ k, k < bs.length → Memory.byte u.mem (key + k) = bs.getD k 0) ∧ MemBut key bs.length s u := by
  rw [h]
  exact ⟨fun k hk => byte_write_inside _ _ _ _ hk, fun b hb => h ▸ Memory.byte_write_outside _ _ _ _ hb⟩

/-! ### The checks of an access (R21, R22, R72, R222) -/

theorem effAddr_eq (a : Word) (off : BitVec 10) (n : Nat) : effAddr a off n = (a + BitVec.ofInt 64 (n * off.toInt)).toNat := by
  rw [effAddr, BitVec.ofInt_mul, BitVec.ofInt_natCast, BitVec.mul_comm]; rfl

/-- A thread at home that no acquiring atomic holds back is stopped by a misaligned address alone before the address is looked at. -/
theorem accessStop_home {s : State} (hq : ∀ q ∈ s.reqs, q.agent = s.agent → q.acq = 0) (hh : s.self.home = none) (ea al : Nat) :
    s.accessStop ea al = if ea % al ≠ 0 then some (s.trap 0x04 0 (BitVec.ofNat 64 ea)) else none := by
  have hnone : s.reqs.filter (fun r => r.agent == s.agent && r.acq != 0) = [] := by
    rw [List.filter_eq_nil_iff]
    intro q hm hc
    simp only [Bool.and_eq_true, beq_iff_eq, bne_iff_ne] at hc
    exact hc.2 (hq q hm hc.1)
  simp [State.accessStop, hnone, hh]

theorem accessStop_aligned {s : State} (hq : ∀ q ∈ s.reqs, q.agent = s.agent → q.acq = 0) (hh : s.self.home = none) {ea al : Nat} (ha : ea % al = 0) :
    s.accessStop ea al = none := by
  rw [accessStop_home hq hh, if_neg (not_not.mpr ha)]

/-- An access to the own local memory: the reserved bytes are the supervisor's, and the upper of them no user store's (R22). -/
theorem access_local_range {s : State} {ea n al : Nat} (hs : s.accessStop ea al = none) (hlo : localBase ≤ ea) (hhi : ea + n ≤ localBase + 65536)
    (hn : 0 < n) (store hostOk : Bool) : s.access ea n al store hostOk =
      if s.self.priv = .user ∧ localBase + 0xD000 < ea + n then .stop (s.trap 0x07 4 (BitVec.ofNat 64 ea))
      else if s.self.priv = .user ∧ store = true ∧ s.cur.1 < 256 ∧ localBase + 0xCE00 < ea + n ∧ ea < localBase + 0xD000 then
        .stop (s.trap 0x07 4 (BitVec.ofNat 64 ea))
      else .localMem (ea - localBase) := by
  have hb : localBase = 0xF000000000000000 := rfl
  have h60 : ea / 2 ^ 60 = 15 := by omega
  have h1 : 0xD000 < ea - localBase + n ↔ localBase + 0xD000 < ea + n := by omega
  have h2 : 0xCE00 < ea - localBase + n ↔ localBase + 0xCE00 < ea + n := by omega
  have h3 : ea - localBase < 0xD000 ↔ ea < localBase + 0xD000 := by omega
  unfold State.access
  simp only [hs]
  rw [if_pos h60, if_pos ⟨hlo, hhi⟩]
  simp only [Bool.and_eq_true, decide_eq_true_eq, and_assoc, h1, h2, h3]

theorem access_of_localFree {s : State} {ea n : Nat} {store : Bool} (h : s.localFree ea n store) (hn : 0 < n) (hostOk : Bool) :
    s.access ea n n store hostOk = .localMem (ea - localBase) := by
  obtain ⟨hq, hh, ha, hlo, hhi, hu⟩ := h
  rw [access_local_range (accessStop_aligned hq hh ha) hlo hhi hn, if_neg, if_neg]
  · rintro ⟨hp, hst, hc, hlt, -⟩
    have := (hu hp).2 hst hc
    omega
  · rintro ⟨hp, hlt⟩
    have := (hu hp).1
    omega

/-- An aligned access that ends behind a 128-byte boundary begins at it or behind it. -/
theorem lt_end_iff_of_aligned {ea n b : Nat} (hn : n ∈ [1, 2, 4, 8, 16, 128]) (ha : ea % n = 0) (hb : b % 128 = 0) : b < ea + n ↔ b ≤ ea := by
  simp only [List.mem_cons, List.not_mem_nil, or_false] at hn
  rcases hn with rfl | rfl | rfl | rfl | rfl | rfl <;> omega

/-- An aligned access to the own local memory, by its first byte alone (R22). -/
theorem access_local_aligned {s : State} {ea n : Nat} (hs : s.accessStop ea n = none) (hn : n ∈ [1, 2, 4, 8, 16, 128]) (ha : ea % n = 0)
    (hlo : localBase ≤ ea) (hhi : ea < localBase + 65536) (store hostOk : Bool) : s.access ea n n store hostOk =
      if s.self.priv = .user ∧ localBase + 0xD000 ≤ ea then .stop (s.trap 0x07 4 (BitVec.ofNat 64 ea))
      else if s.self.priv = .user ∧ store = true ∧ s.cur.1 < 256 ∧ localBase + 0xCE00 ≤ ea then .stop (s.trap 0x07 4 (BitVec.ofNat 64 ea))
      else .localMem (ea - localBase) := by
  have hpos : 0 < n := Nat.pos_of_ne_zero fun h0 => by subst h0; simp at hn
  have hend : ea + n ≤ localBase + 65536 := not_lt.mp fun h => absurd ((lt_end_iff_of_aligned hn ha (by decide)).mp h) (not_le.mpr hhi)
  rw [access_local_range hs hlo hend hpos]
  simp only [lt_end_iff_of_aligned (b := localBase + 0xD000) hn ha (by decide), lt_end_iff_of_aligned (b := localBase + 0xCE00) hn ha (by decide)]
  by_cases hres : s.self.priv = .user ∧ localBase + 0xD000 ≤ ea
  · rw [if_pos hres, if_pos hres]
  · have hbelow (hp : s.self.priv = .user) : ea < localBase + 0xD000 := not_le.mp fun h => hres ⟨hp, h⟩
    rw [if_neg hres, if_neg hres]
    exact if_congr ⟨fun ⟨hp, hst, hc, hle, _⟩ => ⟨hp, hst, hc, hle⟩, fun ⟨hp, hst, hc, hle⟩ => ⟨hp, hst, hc, hle, hbelow hp⟩⟩ rfl rfl

/-- The checks of a translated address, in the order of R25. -/
theorem pageStop_eq (s : State) (tenant pa attr : Nat) (user store hostOk : Bool) : s.pageStop tenant pa attr user store hostOk =
    if pa / 2 ^ 48 ≠ 15 ∧ s.home pa = none then some (0x06, 3)
    else if bits attr 15 12 ≠ tenant then some (0x07, 3)
    else if user = true ∧ bitAt attr 3 = false then some (0x07, 2)
    else if store = true ∧ bitAt attr 2 = false then some (0x07, 1)
    else if pa / 2 ^ 48 = 15 ∧ hostOk = false then some (0x07, 5)
    else none := by
  simp only [State.pageStop, protSub, hostWindow, attrTenant, attrU, attrW, Bool.and_eq_true, Bool.not_eq_true', decide_eq_false_iff_not,
    decide_eq_true_eq, Option.isNone_iff_eq_none, ne_eq]
  split_ifs <;> rfl

/-- An access to a page that the translation cache holds ends by the checks of the page (R222). -/
theorem access_hit {s : State} {ea n al : Nat} (hs : s.accessStop ea al = none) (hea : ea < 2 ^ 56) (he : kindOf s.cur.1 ≠ .e)
    (hx : s.self.xfault = none) {e : TlbEntry} (ht : s.tlbHit (unitOf s.cur.1) s.self.tenant ea = some e) (store hostOk : Bool) :
    s.access ea n al store hostOk =
      (s.pageStop s.self.tenant (e.pa + ea % e.size) e.attr (decide (s.self.priv = .user)) store hostOk).elim
        (.virt ea (e.pa + ea % e.size) e.attr) (fun c => .stop (s.trap c.1 c.2 (BitVec.ofNat 64 ea))) := by
  have h60 : ea / 2 ^ 60 ≠ 15 := by omega
  have h56 : ¬ ea / 2 ^ 56 ≠ 0 := by omega
  unfold State.access
  simp only [hs]
  rw [if_neg h60, if_neg he, if_neg h56]
  simp only [Ctx.walkFault, hx, ht]
  cases s.pageStop s.self.tenant (e.pa + ea % e.size) e.attr (decide (s.self.priv = .user)) store hostOk <;> rfl

/-- An address that is neither virtual nor of the die, or any that is not of the die on an E-core, traps ADDR (R21). -/
theorem access_addr {s : State} {ea n al : Nat} (hs : s.accessStop ea al = none) (hlt : ea < localBase)
    (h : kindOf s.cur.1 = .e ∨ 2 ^ 56 ≤ ea) (store hostOk : Bool) : s.access ea n al store hostOk = .stop (s.trap 0x05 0 (BitVec.ofNat 64 ea)) := by
  have hb : localBase = 0xF000000000000000 := rfl
  have h60 : ea / 2 ^ 60 ≠ 15 := by omega
  unfold State.access
  simp only [hs]
  rw [if_neg h60]
  by_cases he : kindOf s.cur.1 = .e
  · rw [if_pos he]
  · have h56 : ea / 2 ^ 56 ≠ 0 := by have := h.resolve_left he; omega
    rw [if_neg he, if_pos h56]

/-! ### O7: loads and stores of local memory (R73, R74, R233, R488) -/

theorem runLoad_local {s : State} {d a : Reg} {t : Bool} (h : s.issues ⟨[], [(a, t)], [], [d]⟩ = true) {off : BitVec 10} {w : Widen} {o : Nat}
    (hacc : s.access (s.val a + BitVec.ofInt 64 (w.bytes * off.toInt)).toNat w.bytes w.bytes false true = .localMem o) (i : Instr) :
    s.runLoad i d a t off w = (s.putMarked d (w.word (ofBytes (Memory.read s.mem (localKey s.cur.1 o) w.bytes)))
      (s.dieRead (localKey s.cur.1 o) w.bytes).2).finish i := by
  rw [State.runLoad, State.issue_go h, effAddr_eq, hacc]; rfl

/-- On-die bytes within one sector are uncorrectable as the sector is (R488). -/
theorem dieRead_sector (s : State) {key n : Nat} (hn : 0 < n) (h : key % 16 + n ≤ 16) : (s.dieRead key n).2 = smGet false s.bad (key / 16) := by
  have h1 : (key % 16 + n + 15) / 16 = 1 := by omega
  simp [State.dieRead, h1, upTo]

theorem localKey_sector {c ea n : Nat} (hn : n ∣ 16) (ha : ea % n = 0) (hlo : localBase ≤ ea) : localKey c (ea - localBase) % 16 + n ≤ 16 := by
  have hb : localBase = 0xF000000000000000 := rfl
  have hk : localKey c (ea - localBase) % 16 = ea % 16 := by rw [localKey]; omega
  have hd : n ∣ ea % 16 := (Nat.dvd_mod_iff hn).mpr (Nat.dvd_of_mod_eq_zero ha)
  obtain ⟨p, hp⟩ := hd
  obtain ⟨q, hq⟩ := hn
  have hpq : p < q := Nat.lt_of_mul_lt_mul_left (a := n) (by omega)
  have := Nat.mul_le_mul_left n (Nat.succ_le_of_lt hpq)
  rw [Nat.mul_succ] at this
  omega

theorem word_signed (n x : Nat) (hn : n ≠ 0) : Widen.word ⟨n, true⟩ x = BitVec.ofInt 64 (BitVec.ofNat (8 * n) x).toInt :=
  sext64_eq x (8 * n) (by omega)

/-- A row of R73: a load from the own local memory writes the widened bytes at once, with the mark of their sector. -/
def LoadsLocally (r : (Reg → Reg → Bool → BitVec 10 → Instr) × Nat × (Nat → Word)) : Prop :=
  ∀ (s : State) (d a : Reg) (t : Bool) (off : BitVec 10) (ea key : Nat), s.issues ⟨[], [(a, t)], [], [d]⟩ = true →
    ea = (s.val a + BitVec.ofInt 64 (r.2.1 * off.toInt)).toNat → s.localFree ea r.2.1 false → key = localKey s.cur.1 (ea - localBase) →
    exec (r.1 d a t off) s = .next ((s.putMarked d (r.2.2 (ofBytes (Memory.read s.mem key r.2.1))) (smGet false s.bad (key / 16))).finish (r.1 d a t off))

theorem loadsLocally_of_runLoad {i : Reg → Reg → Bool → BitVec 10 → Instr} {f : Nat → Word} (w : Widen) (hw : ∀ x, w.word x = f x)
    (hn : w.bytes ∣ 16) (hx : ∀ d a t o s, exec (i d a t o) s = .next (s.runLoad (i d a t o) d a t o w) := by intros; rfl) :
    LoadsLocally (i, w.bytes, f) := by
  intro s d a t off ea key h hea hl hkey
  subst hea
  have hpos : 0 < w.bytes := Nat.pos_of_dvd_of_pos hn (by decide)
  have hl' := hl
  obtain ⟨-, -, ha, hlo, -⟩ := hl'
  rw [hx, runLoad_local h (access_of_localFree hl hpos true), dieRead_sector s hpos (localKey_sector hn ha hlo), hw, hkey]

/-- A row of R74 and R233: on the die a store of n bytes runs as `State.storeTo` says. -/
def StoresOnDie (r : (Reg → Reg → Bool → BitVec 10 → Instr) × Nat) : Prop :=
  0 < r.2 ∧ ∀ (s : State) (d a : Reg) (t : Bool) (off : BitVec 10), s.issues ⟨[], [(a, t), (d, false)], [], []⟩ = true →
    (∀ va pa attr, s.access (s.val a + BitVec.ofInt 64 (r.2 * off.toInt)).toNat r.2 r.2 true false ≠ .virt va pa attr) →
    exec (r.1 d a t off) s = .next (s.storeTo (s.access (s.val a + BitVec.ofInt 64 (r.2 * off.toInt)).toNat r.2 r.2 true false)
      (toBytes (s.val d).toNat r.2) true (fun s => s.finish (r.1 d a t off)))

theorem runStore_issued {s : State} {d a : Reg} {t : Bool} (h : s.issues ⟨[], [(a, t), (d, false)], [], []⟩ = true) (i : Instr) (off : BitVec 10) (n : Nat) :
    s.runStore i d a t off n = s.storeTo (s.access (s.val a + BitVec.ofInt 64 (n * off.toInt)).toNat n n true false)
      (toBytes (s.val d).toNat n) true (fun s => s.finish i) := by
  rw [State.runStore, State.issue_go h, effAddr_eq]

theorem runStoreNt_onDie {s : State} {d a : Reg} {t : Bool} (h : s.issues ⟨[], [(a, t), (d, false)], [], []⟩ = true) (i : Instr) {off : BitVec 10} {n : Nat}
    (hv : ∀ va pa attr, s.access (s.val a + BitVec.ofInt 64 (n * off.toInt)).toNat n n true false ≠ .virt va pa attr) :
    s.runStoreNt i d a t off n = s.storeTo (s.access (s.val a + BitVec.ofInt 64 (n * off.toInt)).toNat n n true false)
      (toBytes (s.val d).toNat n) true (fun s => s.finish i) := by
  rw [State.runStoreNt, State.issue_go h, effAddr_eq]
  generalize s.access (s.val a + BitVec.ofInt 64 (n * off.toInt)).toNat n n true false = acc at hv ⊢
  cases acc with
  | virt va pa attr => exact absurd rfl (hv va pa attr)
  | stop | localMem | tile => rfl

theorem storesOnDie_of_runStore {i : Reg → Reg → Bool → BitVec 10 → Instr} {n : Nat} (hn : 0 < n)
    (hx : ∀ d a t o s, exec (i d a t o) s = .next (s.runStore (i d a t o) d a t o n) := by intros; rfl) : StoresOnDie (i, n) :=
  ⟨hn, fun s d a t off h _ => by rw [hx, runStore_issued h]⟩

theorem storesOnDie_of_runStoreNt {i : Reg → Reg → Bool → BitVec 10 → Instr} {n : Nat} (hn : 0 < n)
    (hx : ∀ d a t o s, exec (i d a t o) s = .next (s.runStoreNt (i d a t o) d a t o n) := by intros; rfl) : StoresOnDie (i, n) :=
  ⟨hn, fun s d a t off h hv => by rw [hx, runStoreNt_onDie h _ hv]⟩

theorem stores_onDie : ∀ r ∈ ([(.stB, 1), (.stH, 2), (.stW, 4), (.stD, 8), (.stNtB, 1), (.stNtH, 2), (.stNtW, 4), (.stNtD, 8)] :
    List ((Reg → Reg → Bool → BitVec 10 → Instr) × Nat)), StoresOnDie r :=
  List.forall_iff_forall_mem.mp ⟨
    storesOnDie_of_runStore (by decide), storesOnDie_of_runStore (by decide),
    storesOnDie_of_runStore (by decide), storesOnDie_of_runStore (by decide),
    storesOnDie_of_runStoreNt (by decide), storesOnDie_of_runStoreNt (by decide),
    storesOnDie_of_runStoreNt (by decide), storesOnDie_of_runStoreNt (by decide)⟩

/-- Settles O7: loads row by row, stores through what they do on the die, the checks of an access one kind of address after the other. -/
theorem localAccesses : Obligations.LocalAccesses := by
  refine ⟨List.forall_iff_forall_mem.mp ?load, ?store, ?checks⟩
  case load =>
    exact ⟨
      loadsLocally_of_runLoad ⟨1, true⟩ (fun x => word_signed 1 x (by decide)) (by decide),
      loadsLocally_of_runLoad ⟨1, false⟩ (fun _ => rfl) (by decide),
      loadsLocally_of_runLoad ⟨2, true⟩ (fun x => word_signed 2 x (by decide)) (by decide),
      loadsLocally_of_runLoad ⟨2, false⟩ (fun _ => rfl) (by decide),
      loadsLocally_of_runLoad ⟨4, true⟩ (fun x => word_signed 4 x (by decide)) (by decide),
      loadsLocally_of_runLoad ⟨4, false⟩ (fun _ => rfl) (by decide),
      loadsLocally_of_runLoad ⟨8, false⟩ (fun _ => rfl) (by decide)⟩
  case store =>
    intro r hr s d a t off ea key h hea hl hkey
    subst hea
    obtain ⟨hn, hrun⟩ := stores_onDie r hr
    have hacc := access_of_localFree hl hn false
    have hlen : (toBytes (s.val d).toNat r.2).length = r.2 := toBytes_length _ _
    obtain ⟨hbytes, hframe⟩ := memBut_of_write (s := s) (u := s.dieWrite key (toBytes (s.val d).toNat r.2)) rfl
    rw [hlen] at hbytes hframe
    refine ⟨s.dieWrite key (toBytes (s.val d).toNat r.2), ?_, rfl, fun k hk => ?_, hframe⟩
    · rw [hrun s d a t off h (fun _ _ _ => by rw [hacc]; nofun), hacc, hkey]; rfl
    · rw [hbytes k hk, toBytes_getD _ _ _ hk]
  case checks =>
    intro s ea n store hostOk hq hh _ hn
    have haligned (ha : ea % n = 0) : s.accessStop ea n = none := accessStop_aligned hq hh ha
    refine ⟨fun ha => ?_, fun ha hlo hhi => ?_, fun ha h1 h2 => ?_, fun ha he h1 => ?_, fun ha h1 he hx e ht => ?_⟩
    · unfold State.access
      rw [accessStop_home hq hh, if_pos ha]
    · exact access_local_aligned (haligned ha) hn ha hlo hhi store hostOk
    · exact access_addr (haligned ha) h2 (.inr h1) store hostOk
    · exact access_addr (haligned ha) h1 (.inl he) store hostOk
    · rw [access_hit (haligned ha) h1 he hx ht, pageStop_eq]
      simp only [decide_eq_true_eq]
      split_ifs <;> rfl

/-! ### Requests of loads and stores -/

theorem dstFixed_not_port {s : State} {d : Reg} {srcs fixed : List (Reg × Bool)} (h : s.issues ⟨srcs, fixed, [], [d]⟩ = true) : d.val < 60 := by
  have hd := (State.issues_parts h).2.2.2.1 d (List.mem_singleton_self d)
  simp only [State.dstFixedReady, isPort, Bool.and_eq_true, Bool.not_eq_true', decide_eq_false_iff_not] at hd
  omega

theorem await_general (s : State) {d : Reg} (hd : d.val < 60) (id : Nat) : s.await d id = s.setSelf (s.self.pend d.val) :=
  await_reg s (by omega) (by omega) id

/-- A request sent after the running context has been replaced: the frame. -/
theorem requested_setSelf {s u : State} {x : Ctx} {q : Req} (hu : u = requested (s.setSelf x) q) :
    u = { s with ctxs := u.ctxs, reqs := s.reqs ++ [q], nid := s.nid + 1 } ∧ (∀ k, k ≠ s.me → u.ctx k = s.ctx k) ∧ u.self = x := by
  subst hu
  exact ⟨rfl, State.ctx_setSelf_ne s x, State.self_setSelf s x⟩

/-- What a load's request is: from the home, as a fill, or already known from a valid sector (R212). -/
theorem loadReq_spec (s : State) (dest : Dest) (pa n attr : Nat) : ∃ q : Req, s.loadReq dest pa n attr = requested s q
    ∧ q.id = s.nid ∧ q.dest = dest ∧ q.pa = pa ∧ q.size = n ∧ (q.kind = .load ∨ q.kind = .fill ∧ s.caches s.cur.1 attr = true)
    ∧ (q.sampled = true → s.caches s.cur.1 attr = true ∧ ∃ b bad, s.cacheHit (tileOf s.cur.1) pa n = some (b, bad)) := by
  unfold State.loadReq
  dsimp only [State.fresh]
  split
  next hc =>
    have hcaches : s.caches s.cur.1 attr = true := by
      simp only [Bool.and_eq_true] at hc
      exact hc.1.1
    split
    next b bad hit =>
      refine ⟨_, rfl, rfl, rfl, rfl, rfl, .inl rfl, fun _ => ⟨hcaches, b, bad, ?_⟩⟩
      split at hit
      · cases hit
      · exact hit
    next => exact ⟨_, rfl, rfl, rfl, rfl, rfl, .inr ⟨rfl, hcaches⟩, nofun⟩
  next => exact ⟨_, rfl, rfl, rfl, rfl, rfl, .inl rfl, nofun⟩

/-- A row of R73: the instruction is a load with a widening. -/
def RunsLoad (r : (Reg → Reg → Bool → BitVec 10 → Instr) × Widen) : Prop :=
  ∀ d a t o s, exec (r.1 d a t o) s = .next (s.runLoad (r.1 d a t o) d a t o r.2)

theorem loads_run : ∀ r ∈ ([(.ldB, ⟨1, true⟩), (.ldBu, ⟨1, false⟩), (.ldH, ⟨2, true⟩), (.ldHu, ⟨2, false⟩), (.ldW, ⟨4, true⟩), (.ldWu, ⟨4, false⟩), (.ldD, ⟨8, false⟩)] :
    List ((Reg → Reg → Bool → BitVec 10 → Instr) × Widen)), RunsLoad r :=
  List.forall_iff_forall_mem.mp ⟨fun _ _ _ _ _ => rfl, fun _ _ _ _ _ => rfl, fun _ _ _ _ _ => rfl, fun _ _ _ _ _ => rfl,
    fun _ _ _ _ _ => rfl, fun _ _ _ _ _ => rfl, fun _ _ _ _ _ => rfl⟩

theorem runLoad_tile {s : State} {d a : Reg} {t : Bool} (h : s.issues ⟨[], [(a, t)], [], [d]⟩ = true) {off : BitVec 10} {w : Widen} {win o : Nat}
    (hacc : s.access (s.val a + BitVec.ofInt 64 (w.bytes * off.toInt)).toNat w.bytes w.bytes false true = .tile win o) (i : Instr) :
    s.runLoad i d a t off w = ((s.await d s.nid).readyReq (s.longDest d w) (s.windowRead (tileOf s.cur.1) win o w.bytes).1
      (s.windowRead (tileOf s.cur.1) win o w.bytes).2).finish i := by
  rw [State.runLoad, State.issue_go h, effAddr_eq, hacc]

theorem runLoad_virt {s : State} {d a : Reg} {t : Bool} (h : s.issues ⟨[], [(a, t)], [], [d]⟩ = true) {off : BitVec 10} {w : Widen} {va pa attr : Nat}
    (hacc : s.access (s.val a + BitVec.ofInt 64 (w.bytes * off.toInt)).toNat w.bytes w.bytes false true = .virt va pa attr)
    (hm : s.movesTo pa attr = none) (i : Instr) :
    s.runLoad i d a t off w = ((s.await d s.nid).loadReq (s.longDest d w) pa w.bytes attr).finish i := by
  rw [State.runLoad, State.issue_go h, effAddr_eq, hacc]
  simp only [hm]

/-! ### The windows of the tile store (R211, R216) -/

theorem scratchKey_add (t o k : Nat) (h : o % 131072 + k < 131072) : scratchKey t (o + k) = scratchKey t o + k := by
  have hd : (o + k) / 131072 = o / 131072 := by omega
  have hm : (o + k) % 131072 = o % 131072 + k := by omega
  simp only [scratchKey, wayKey, hd, hm]
  omega

/-- Scratch bytes within one way lie behind each other in the memory list. -/
theorem scratchPut_eq_write (m : List Host.Cell) (t o : Nat) (b : List Byte) (h : o % 131072 + b.length ≤ 131072) :
    scratchPut m t o b = Memory.write m (scratchKey t o) b := by
  induction b generalizing m o with
  | nil => rfl
  | cons x xs ih =>
    rw [List.length_cons] at h
    show scratchPut (Memory.put m (scratchKey t o) x) t (o + 1) xs = Memory.write (Memory.put m (scratchKey t o) x) (scratchKey t o + 1) xs
    cases xs with
    | nil => rfl
    | cons y ys =>
      rw [List.length_cons] at h ih
      rw [ih _ _ (by omega), scratchKey_add t o 1 (by omega)]

/-! ### Stores to mapped addresses and into the tile cache (R212, R233) -/

theorem storeTo_virt {s : State} {va pa attr : Nat} {b : List Byte} (hm : s.movesTo pa attr = none) (hnt : s.ntConflict pa = none) (k : State → State) :
    s.storeTo (.virt va pa attr) b true k = if s.storeHeld pa attr = true then s.parkMe (.guard (pa / 128) va) else k (s.storeVirt va pa attr b) := by
  simp [State.storeTo, hm, hnt]

/-- A row of R74: the instruction is a store of n bytes. -/
def RunsStore (r : (Reg → Reg → Bool → BitVec 10 → Instr) × Nat) : Prop :=
  ∀ d a t o s, exec (r.1 d a t o) s = .next (s.runStore (r.1 d a t o) d a t o r.2)

theorem stores_run : ∀ r ∈ ([(.stB, 1), (.stH, 2), (.stW, 4), (.stD, 8)] : List ((Reg → Reg → Bool → BitVec 10 → Instr) × Nat)), RunsStore r :=
  List.forall_iff_forall_mem.mp ⟨fun _ _ _ _ _ => rfl, fun _ _ _ _ _ => rfl, fun _ _ _ _ _ => rfl, fun _ _ _ _ _ => rfl⟩

theorem find_line {x : TileSt} {pa : Nat} {c : CLine} (h : x.find pa = some c) : c.line = pa / 128 := by
  simpa using List.find?_some h

/-- A line found in a tile cache is found in its image, as its image. -/
theorem find_mapLine {x : TileSt} {pa : Nat} {c : CLine} (h : x.find pa = some c) {f : CLine → CLine} (hf : ∀ e, (f e).line = e.line) :
    (x.mapLine c.line f).find pa = some (f c) := by
  have hline (e : CLine) : (if e.line = c.line then f e else e).line = e.line := by split <;> simp [hf]
  rw [TileSt.find] at h
  simp [TileSt.mapLine, TileSt.find, List.find?_map, hline, h]

theorem setBit_bitAt (m i : Nat) : bitAt (setBit m i true) i = true := by
  have hb : bits m i i = m / 2 ^ i % 2 := by rw [bits, Nat.add_sub_cancel_left, pow_one]
  have hpos : 0 < 2 ^ i := Nat.two_pow_pos i
  have hdiv : (m - m / 2 ^ i % 2 * 2 ^ i + 2 ^ i) / 2 ^ i = m / 2 ^ i - m / 2 ^ i % 2 + 1 := by
    rw [Nat.add_div_right _ hpos, Nat.mul_comm, Nat.sub_mul_div]
  simp only [bitAt, setBit, hb, Bool.toNat_true, Nat.one_mul, hdiv, beq_iff_eq]
  omega

/-- A cached store into a valid sector that nothing holds back writes the tile's copy (R212). -/
theorem storeVirt_cached {s : State} {va pa attr : Nat} {b : List Byte} {c : CLine} (hc : s.caches s.cur.1 attr = true)
    (hown : s.ownPending pa b.length = false) (hg : s.guardBehind s.nid pa attr s.self.launch = false)
    (hf : (s.tile (tileOf s.cur.1)).find pa = some c) (hv : c.has (sectorOf pa) = true)
    (hclaim : c.dirty = 0 ∨ c.launch = s.self.launch ∨ s.guarding s.self.launch = false) :
    s.storeVirt va pa attr b = s.cacheWrite (tileOf s.cur.1) pa b attr s.self.launch := by
  have hhit : (s.cacheHit (tileOf s.cur.1) pa b.length).isSome = true := by simp [State.cacheHit, hf, hv]
  have hline : s.claimLine s.template (tileOf s.cur.1) pa s.self.launch = s := by
    simp only [State.claimLine, hf]
    rw [if_neg]
    rintro ⟨h1, h2, h3⟩
    rcases hclaim with h | h | h
    · exact h1 h
    · exact h2 h
    · simp [h] at h3
  simp [State.storeVirt, hc, hown, hg, hhit, hline]

/-- What writing into the tile cache leaves: the bytes in the tile store, the sector valid and dirty, the launch as the line's last writer. -/
theorem cacheWrite_spec {s u : State} {t pa attr launch : Nat} {b : List Byte} {c : CLine} (hf : (s.tile t).find pa = some c)
    (hu : u = s.cacheWrite t pa b attr launch) :
    u = { s with mem := u.mem, bad := u.bad, tiles := u.tiles } ∧ (∀ k, k ≠ t → u.tile k = s.tile k)
    ∧ (∀ k, k < b.length → Memory.byte u.mem (c.key t (pa % 128) + k) = b.getD k 0) ∧ MemBut (c.key t (pa % 128)) b.length s u
    ∧ ∃ c', (u.tile t).find pa = some c' ∧ c'.has (sectorOf pa) = true ∧ bitAt c'.dirty (sectorOf pa) = true ∧ c'.launch = launch := by
  simp only [State.cacheWrite, hf] at hu
  have hmem : u.mem = Memory.write s.mem (c.key t (pa % 128)) b := by rw [hu]; rfl
  obtain ⟨hbytes, hframe⟩ := memBut_of_write hmem
  refine ⟨by rw [hu]; rfl, fun k hk => ?_, hbytes, hframe, ?_⟩
  · rw [hu]; exact State.tile_setTile_ne _ t k _ hk
  · rw [hu, State.tile_setTile_self]
    exact ⟨_, find_mapLine hf fun _ => rfl, setBit_bitAt _ _, setBit_bitAt _ _, rfl⟩

/-- A row of R233: the instruction is a non-temporal store of at most 8 bytes. -/
def RunsStoreNt (r : (Reg → Reg → Bool → BitVec 10 → Instr) × Nat) : Prop :=
  r.2 ≤ 8 ∧ ∀ d a t o s, exec (r.1 d a t o) s = .next (s.runStoreNt (r.1 d a t o) d a t o r.2)

theorem storesNt_run : ∀ r ∈ ([(.stNtB, 1), (.stNtH, 2), (.stNtW, 4), (.stNtD, 8)] : List ((Reg → Reg → Bool → BitVec 10 → Instr) × Nat)), RunsStoreNt r :=
  List.forall_iff_forall_mem.mp ⟨⟨by decide, fun _ _ _ _ _ => rfl⟩, ⟨by decide, fun _ _ _ _ _ => rfl⟩, ⟨by decide, fun _ _ _ _ _ => rfl⟩,
    ⟨by decide, fun _ _ _ _ _ => rfl⟩⟩

theorem runStoreNt_virt {s : State} {d a : Reg} {t : Bool} (h : s.issues ⟨[], [(a, t), (d, false)], [], []⟩ = true) (i : Instr) {off : BitVec 10}
    {n va pa attr : Nat} (hacc : s.access (s.val a + BitVec.ofInt 64 (n * off.toInt)).toNat n n true false = .virt va pa attr)
    (hm : s.movesTo pa attr = none) : s.runStoreNt i d a t off n =
      (s.ntPut pa attr ((List.range n).map (fun o => (pa % 128 + o, (s.val d).extractLsb' (8 * o) 8)))).finish i := by
  have hbytes : (upTo n).map (fun o => (pa % 128 + o, (toBytes (s.val d).toNat n).getD o 0))
      = (List.range n).map (fun o => (pa % 128 + o, (s.val d).extractLsb' (8 * o) 8)) :=
    List.map_congr_left fun o ho => by rw [toBytes_getD _ _ _ (List.mem_range.mp ho)]
  rw [State.runStoreNt, State.issue_go h, effAddr_eq, hacc]
  simp only [hm, hbytes]

/-- With no line of the thread for these bytes and room in the buffer, they make a line of their own (R233). -/
theorem ntPut_new {s : State} {pa attr : Nat} {bs : List (Nat × Byte)} (hnone : ∀ l ∈ s.nt, l.agent = s.agent → l.line ≠ pa / 128)
    (hroom : (s.ntLines s.cur.1).length < 4) (hlen : bs.length ≠ 128) :
    ∃ l : NtLine, s.ntPut pa attr bs = { s with nt := s.nt ++ [l] }
      ∧ l.core = s.cur.1 ∧ l.agent = s.agent ∧ l.line = pa / 128 ∧ l.when_ = s.cycle ∧ l.bytes = bs := by
  have hfind : s.nt.find? (fun l => l.agent == s.agent && l.core == s.cur.1 && l.line == pa / 128) = none := by
    rw [List.find?_eq_none]
    intro l hl hc
    simp only [Bool.and_eq_true, beq_iff_eq] at hc
    exact hnone l hl hc.1.1 hc.2
  refine ⟨{ core := s.cur.1, ctx := s.cur.2, agent := s.agent, launch := s.self.launch, line := pa / 128, bytes := bs, when_ := s.cycle,
            tenant := s.self.tenant, attr := attr }, ?_, rfl, rfl, rfl, rfl, rfl⟩
  simp only [State.ntPut, hfind]
  rw [if_neg hlen, if_neg (by omega)]

/-- Settles O8: windows, mapped addresses, the tile cache and the combining buffer, each through the lemma of its operation. -/
theorem memoryAccesses : Obligations.MemoryAccesses := by
  refine ⟨⟨?loadTile, ?storeTile, ?window⟩, ⟨?loadVirt, ?storeVirt⟩, ?cached, ?nt⟩
  case loadTile =>
    intro r hr s d a t off w o h hacc
    have hd := dstFixed_not_port h
    rw [loads_run r hr, runLoad_tile h hacc, await_general s hd]
    obtain ⟨hu, hk, hself⟩ := requested_setSelf (s := s) (x := s.self.pend d.val) rfl
    exact ⟨_, _, rfl, hu, hk, hself, rfl, rfl, rfl, rfl⟩
  case storeTile =>
    intro r hr s d a t off w o h hacc hfree
    rw [(stores_onDie r hr).2 s d a t off h (fun _ _ _ => by rw [hacc]; nofun), hacc]
    simp only [State.storeTo, toBytes_length, hfree]
  case window =>
    intro s t o b hlen
    obtain ⟨hbytes, hframe⟩ := memBut_of_write (s := s) (u := s.windowWrite t 0 o b) (scratchPut_eq_write s.mem t o b hlen)
    exact ⟨rfl, fun k hk => by rw [scratchKey_add t o k (by omega), hbytes k hk], hframe⟩
  case loadVirt =>
    intro r hr s d a t off va pa attr h hacc hm
    rw [loads_run r hr, runLoad_virt h hacc hm, await_general s (dstFixed_not_port h)]
    obtain ⟨q, hq, hid, hdest, hpa, hsize, hkind, hsampled⟩ := loadReq_spec (s.setSelf (s.self.pend d.val)) (s.longDest d r.2) pa r.2.bytes attr
    obtain ⟨hu, hk, hself⟩ := requested_setSelf hq
    exact ⟨_, q, rfl, hu, hk, hself, hid, hdest, hpa, hsize, hkind, hsampled⟩
  case storeVirt =>
    intro r hr s d a t off va pa attr h hacc hm hnt
    rw [stores_run r hr, runStore_issued h, hacc, storeTo_virt hm hnt]
    refine ⟨fun hc hheld => ?_, rfl, fun hheld => by rw [if_pos hheld], fun _ hheld => by rw [if_neg (by simp [hheld])]⟩
    rw [if_neg (by simp [hheld]), State.storeVirt, if_neg (by simp [hc])]
    exact ⟨_, _, rfl, rfl, rfl, rfl, rfl, rfl, rfl, congrArg upTo (toBytes_length _ _), rfl, rfl⟩
  case cached =>
    intro s u va pa attr b c hu hc hown hg hf hv hclaim
    exact cacheWrite_spec hf (hu.trans (storeVirt_cached hc hown hg hf hv hclaim))
  case nt =>
    intro r hr s d a t off va pa attr h hacc hm
    obtain ⟨hn, hrun⟩ := storesNt_run r hr
    rw [hrun, runStoreNt_virt h _ hacc hm]
    exact ⟨rfl, fun hnone hroom => ntPut_new hnone hroom (by rw [List.length_map, List.length_range]; omega)⟩

end Sys2Proof.ScalarProofs
end

section

/-! SUPPORT and THEOREMS. The numbers (R94 to R115): rounding on a grid, the finite values of a format as a grid, the exact values of the operations,
and the theorems that settle O26 and O25. -/

namespace Sys2Proof.NumberProofs
open Sys2Proof.Machine

/-! ### Rounding to the points of a grid (R103)

A grid is a strictly increasing sequence of magnitudes. A magnitude V lies between two neighbours, and the mode and the sign of the value say which one it goes to. -/

section Grid
variable {K : Type*} [Field K] [LinearOrder K] [IsStrictOrderedRing K]

/-- Whether a magnitude V of a sign, from `lo` of index j up to `hi`, its neighbour in a grid, goes to `hi` (R103). -/
def GoesUp (rm : Nat) (neg : Bool) (j : Nat) (lo hi V : K) : Prop :=
  match rm with
  | 0 => (lo + hi) / 2 < V ∨ (V = (lo + hi) / 2 ∧ j % 2 = 1)
  | 1 => False
  | 2 => neg = false ∧ lo < V
  | _ => neg = true ∧ lo < V

/-- The magnitude V of a sign is rounded to the point of index q of the grid g. -/
def Rounds (rm : Nat) (neg : Bool) (g : Nat → K) (V : K) (q : Nat) : Prop :=
  ∃ j, g j ≤ V ∧ V < g (j + 1) ∧
    (q = j + 1 ∧ GoesUp rm neg j (g j) (g (j + 1)) V ∨ q = j ∧ ¬ GoesUp rm neg j (g j) (g (j + 1)) V)

/-- A number m × 2^e, with a rest below one unit when sticky, stands for the magnitude V. -/
def Between (m : Nat) (e : Int) (sticky : Bool) (V : K) : Prop :=
  if sticky then (m : K) * 2 ^ e < V ∧ V < ((m : K) + 1) * 2 ^ e else V = (m : K) * 2 ^ e

omit [IsStrictOrderedRing K] in
/-- Only the parity of the index matters. -/
theorem goesUp_congr (rm : Nat) (neg : Bool) {i j : Nat} (h : i % 2 = j % 2) (lo hi V : K) : GoesUp rm neg i lo hi V ↔ GoesUp rm neg j lo hi V := by
  match rm with
  | 0 => simp only [GoesUp, h]
  | 1 | 2 | _ + 3 => exact Iff.rfl

theorem GoesUp.lo_lt {rm : Nat} {neg : Bool} {j : Nat} {lo hi V : K} (hlt : lo < hi) (h : GoesUp rm neg j lo hi V) : lo < V := by
  match rm, h with
  | 0, h => rcases h with h | ⟨h, -⟩ <;> linarith
  | 2, h => exact h.2
  | _ + 3, h => exact h.2

omit [IsStrictOrderedRing K] in
theorem Between.le {m : Nat} {e : Int} {sticky : Bool} {V : K} (h : Between m e sticky V) : (m : K) * 2 ^ e ≤ V := by
  cases sticky
  · exact (show V = _ from h).ge
  · exact (show _ ∧ _ from h).1.le

theorem Between.lt {m : Nat} {e : Int} {sticky : Bool} {V : K} (h : Between m e sticky V) : V < ((m : K) + 1) * 2 ^ e := by
  have hu : (0 : K) < 2 ^ e := by positivity
  cases sticky
  · rw [show V = _ from h]; nlinarith
  · exact (show _ ∧ _ from h).2

omit [IsStrictOrderedRing K] in
theorem Between.eq_iff {m : Nat} {e : Int} {sticky : Bool} {V : K} (h : Between m e sticky V) : V = (m : K) * 2 ^ e ↔ sticky = false := by
  cases sticky
  · exact ⟨fun _ => rfl, fun _ => h⟩
  · exact ⟨fun he => absurd he (show _ ∧ _ from h).1.ne', nofun⟩

omit [IsStrictOrderedRing K] in
/-- `roundsUp` decides `GoesUp`, given where the magnitude lies between its neighbours. -/
theorem roundsUp_iff {rm : Nat} {neg : Bool} {j : Nat} {lo hi V : K} {exact : Bool} {cmp : Nat} (hlo : lo ≤ V) (hx : exact = true ↔ V = lo)
    (hc : cmp = 0 ∧ V < (lo + hi) / 2 ∨ cmp = 1 ∧ V = (lo + hi) / 2 ∨ cmp = 2 ∧ (lo + hi) / 2 < V) :
    roundsUp rm neg (j % 2 == 1) exact cmp = true ↔ GoesUp rm neg j lo hi V := by
  have hne : exact = false ↔ lo < V := by
    rw [← Bool.not_eq_true, hx]; exact ⟨fun h => lt_of_le_of_ne hlo (Ne.symm h), fun h => h.ne'⟩
  match rm with
  | 0 =>
    rcases hc with ⟨rfl, hc⟩ | ⟨rfl, hc⟩ | ⟨rfl, hc⟩
    · simp [roundsUp, GoesUp, hc.ne, hc.le]
    · simp [roundsUp, GoesUp, hc]
    · simp [roundsUp, GoesUp, hc]
  | 1 => simp [roundsUp, GoesUp]
  | 2 => simp [roundsUp, GoesUp, hne, and_comm]
  | _ + 3 => simp [roundsUp, GoesUp, hne, and_comm]

/-- The index that `roundsUp` chooses is the rounded one, and `exact` says that nothing was lost. -/
theorem rounds_of_roundsUp (rm : Nat) (neg : Bool) {g : Nat → K} {j : Nat} {V : K} {exact : Bool} {cmp : Nat} (hlo : g j ≤ V) (hhi : V < g (j + 1))
    (hx : exact = true ↔ V = g j)
    (hc : cmp = 0 ∧ V < (g j + g (j + 1)) / 2 ∨ cmp = 1 ∧ V = (g j + g (j + 1)) / 2 ∨ cmp = 2 ∧ (g j + g (j + 1)) / 2 < V) :
    ∀ q, q = (if roundsUp rm neg (j % 2 == 1) exact cmp then j + 1 else j) → Rounds rm neg g V q ∧ (exact = true ↔ V = g q) := by
  rintro q rfl
  have hup := roundsUp_iff (rm := rm) (neg := neg) (j := j) hlo hx hc
  split
  next h =>
    have hgo := hup.mp h
    exact ⟨⟨j, hlo, hhi, .inl ⟨rfl, hgo⟩⟩, ⟨fun he => absurd (hx.mp he) (hgo.lo_lt (hlo.trans_lt hhi)).ne', fun he => absurd he hhi.ne⟩⟩
  next h => exact ⟨⟨j, hlo, hhi, .inr ⟨rfl, fun hgo => h (hup.mpr hgo)⟩⟩, hx⟩

theorem units_le (e : Int) {a b : Nat} (h : a ≤ b) : (a : K) * 2 ^ e ≤ b * 2 ^ e :=
  mul_le_mul_of_nonneg_right (Nat.cast_le.mpr h) (by positivity)

section Quotient
variable {j r h : Nat} {e : Int} {sticky : Bool} {V L : K} (hV : Between (2 * h * j + r) e sticky V) (hL : L = 2 * h * 2 ^ e)
include hV hL

/-- Where m × 2^e lies among the multiples of L = 2h × 2^e, from the quotient j and the remainder r of m by 2h. -/
theorem Between.quotient (hr : r < 2 * h) : (j : K) * L ≤ V ∧ V < ((j : K) + 1) * L ∧ ((r == 0 && !sticky) = true ↔ V = (j : K) * L) := by
  have he : (0 : K) < 2 ^ e := by positivity
  have hlo := hV.le
  have hhi := hV.lt
  have heq := hV.eq_iff
  subst hL
  refine ⟨?_, ?_, ?_⟩
  · have := units_le (K := K) e (Nat.zero_le r)
    push_cast at *; linarith
  · have := units_le (K := K) e hr
    push_cast at *; linarith
  · rw [Bool.and_eq_true, beq_iff_eq, Bool.not_eq_true']
    constructor
    · rintro ⟨rfl, hst⟩
      rw [heq.mpr hst]; push_cast; ring
    · intro hVj
      have hr0 : r = 0 := by
        by_contra hne
        have := units_le (K := K) e (Nat.one_le_iff_ne_zero.mpr hne)
        push_cast at *; linarith
      subst hr0
      exact ⟨rfl, heq.mp (by rw [hVj]; push_cast; ring)⟩

/-- The comparison of the remainder with one half is that of the value with the midpoint (R103). -/
theorem Between.half {c : Nat} (hc : c = if 2 * r < 2 * h then 0 else if 2 * r = 2 * h && !sticky then 1 else 2) :
    c = 0 ∧ V < (j * L + (j + 1) * L) / 2 ∨ c = 1 ∧ V = (j * L + (j + 1) * L) / 2 ∨ c = 2 ∧ (j * L + (j + 1) * L) / 2 < V := by
  have he : (0 : K) < 2 ^ e := by positivity
  have hlo := hV.le
  have hhi := hV.lt
  have heq := hV.eq_iff
  subst hL hc
  rcases Nat.lt_trichotomy r h with hrh | rfl | hrh
  · refine .inl ⟨by rw [if_pos (by omega)], ?_⟩
    have := units_le (K := K) e hrh
    push_cast at *; linarith
  · cases sticky
    · refine .inr (.inl ⟨by simp, ?_⟩)
      rw [heq.mpr rfl]; push_cast; ring
    · refine .inr (.inr ⟨by simp, ?_⟩)
      have := lt_of_le_of_ne hlo fun hVm => nomatch heq.mp hVm.symm
      push_cast at *; linarith
  · refine .inr (.inr ⟨?_, ?_⟩)
    · have hne : 2 * r ≠ 2 * h := by omega
      rw [if_neg (by omega), decide_eq_false hne]; rfl
    · have := units_le (K := K) e hrh
      push_cast at *; linarith

end Quotient

/-- `quantize` rounds to a multiple of 2^l, and says whether the multiple is the value itself (R103). -/
theorem quantize_rounds (rm : Nat) (neg : Bool) {m : Nat} {e l : Int} {sticky : Bool} {V : K} (h : Between m e sticky V) (hs : sticky = true → e < l) :
    ∀ q, q = (quantize rm neg m e sticky l).1 → Rounds rm neg (fun k => (k : K) * 2 ^ l) V q
      ∧ ((quantize rm neg m e sticky l).2 = true ↔ V = (q : K) * 2 ^ l) := by
  have hl : (0 : K) < 2 ^ l := by positivity
  unfold quantize
  split
  next hle =>
    obtain rfl : sticky = false := Bool.eq_false_iff.mpr fun hst => by have := hs hst; omega
    have hV : V = (m * 2 ^ (e - l).toNat : Nat) * 2 ^ l := by
      rw [show V = _ from h, Nat.cast_mul, Nat.cast_pow, Nat.cast_ofNat, mul_assoc, ← zpow_natCast, ← zpow_add₀ two_ne_zero]
      congr 2; omega
    refine rounds_of_roundsUp rm neg (g := fun k => (k : K) * 2 ^ l) hV.ge ?_ (by simpa using hV) (.inl ⟨rfl, ?_⟩)
    all_goals push_cast at hV ⊢; rw [hV]; linarith
  next hlt =>
    obtain ⟨n, hn⟩ : ∃ n : Nat, (l - e).toNat = n + 1 := ⟨(l - e).toNat - 1, by omega⟩
    have hp : (2 : K) ^ l = 2 * (2 ^ n : Nat) * 2 ^ e := by
      rw [Nat.cast_pow, Nat.cast_ofNat, ← pow_succ', ← zpow_natCast, ← zpow_add₀ two_ne_zero]; congr 1; push_cast; omega
    have hrem : m % (2 * 2 ^ n) < 2 * 2 ^ n := Nat.mod_lt _ (by positivity)
    rw [← Nat.div_add_mod m (2 * 2 ^ n)] at h
    obtain ⟨hlo, hhi, hx⟩ := h.quotient hp hrem
    have hc := h.half hp rfl
    rw [hn, pow_succ']
    exact rounds_of_roundsUp rm neg (g := fun k => (k : K) * 2 ^ l) hlo (by simpa using hhi) hx (by simpa using hc)

omit [IsStrictOrderedRing K] in
/-- A rounded index carries over to another grid that has the same two points at an even distance. -/
theorem Rounds.shift {rm : Nat} {neg : Bool} {g g' : Nat → K} {V : K} {q b : Nat} (h : Rounds rm neg g V q) (hb : b % 2 = 0)
    (hg : ∀ j, g j ≤ V → V < g (j + 1) → g' (b + j) = g j ∧ g' (b + j + 1) = g (j + 1)) : Rounds rm neg g' V (b + q) := by
  obtain ⟨j, hlo, hhi, hq⟩ := h
  obtain ⟨e1, e2⟩ := hg j hlo hhi
  refine ⟨b + j, by rwa [e1], by rwa [e2], ?_⟩
  rw [e1, e2, goesUp_congr rm neg (show (b + j) % 2 = j % 2 by omega)]
  rcases hq with ⟨rfl, h⟩ | ⟨rfl, h⟩
  · exact .inl ⟨rfl, h⟩
  · exact .inr ⟨rfl, h⟩

/-- A magnitude is rounded to at least the point after an odd index N when it reaches that point, or goes up to it from the point below (R104, R105). -/
theorem Rounds.le_iff {rm : Nat} {neg : Bool} {g : Nat → K} (hg : StrictMono g) {V : K} {q N : Nat} (h : Rounds rm neg g V q) (hN : N % 2 = 1) :
    N + 1 ≤ q ↔ g (N + 1) ≤ V ∨ GoesUp rm neg 1 (g N) (g (N + 1)) V := by
  obtain ⟨j, hlo, hhi, hq⟩ := h
  have hmono {a b : Nat} : g a < g b ↔ a < b := hg.lt_iff_lt
  have hnext := hg (Nat.lt_succ_self N)
  rcases Nat.lt_trichotomy j N with hj | rfl | hj
  · have hV : V < g N := hhi.trans_le (hg.monotone hj)
    have hno : ¬ GoesUp rm neg 1 (g N) (g (N + 1)) V := fun hgo => lt_asymm hV (hgo.lo_lt hnext)
    have hqN : ¬ N + 1 ≤ q := by omega
    simp [hno, hqN, hV.trans hnext]
  · rw [goesUp_congr rm neg (show 1 % 2 = j % 2 from hN.symm)]
    rcases hq with ⟨rfl, hgo⟩ | ⟨rfl, hgo⟩
    · simp [hgo]
    · simp [hgo, hhi]
  · have hV : g (N + 1) ≤ V := (hg.monotone hj).trans hlo
    have hqN : N + 1 ≤ q := by omega
    simp [hV, hqN]

end Grid

/-! ### The finite values of a format as a grid (R94, R95) -/

/-- The encoding of +∞, one past the greatest finite value. -/
def infIndex (f : Fmt) : Nat := (2 ^ f.ew - 1) * 2 ^ f.fw

/-- The significand of a positive encoding (R95). -/
def sig (f : Fmt) (i : Nat) : Nat := if i < 2 ^ f.fw then i else 2 ^ f.fw + i % 2 ^ f.fw

/-- The exponent of a positive encoding's significand (R95). -/
def expo (f : Fmt) (i : Nat) : Int := (max (i / 2 ^ f.fw) 1 : Nat) - f.bias - f.fw

/-- The magnitude of a positive encoding, continued past the greatest finite value (R95, R104). -/
def mag (f : Fmt) (i : Nat) : Rat := sig f i * 2 ^ expo f i

theorem infIndex_le_poison (f : Fmt) : infIndex f ≤ f.poison % f.signBit := by cases f <;> decide

theorem infIndex_lt_signBit (f : Fmt) : infIndex f < f.signBit := by cases f <;> decide

theorem width_mod_signBit (f : Fmt) (x : Nat) : x % 2 ^ f.width % f.signBit = x % f.signBit :=
  Nat.mod_mod_of_dvd x (pow_dvd_pow 2 (by rw [Fmt.width]; omega))

/-- The exponent field of an encoding (R94). -/
theorem exponent_field (f : Fmt) (x : Nat) : bits (x % 2 ^ f.width) (f.ew + f.fw - 1) f.fw = x % f.signBit / 2 ^ f.fw := by
  cases f <;> simp only [bits, Fmt.width, Fmt.ew, Fmt.fw, Fmt.signBit] <;> omega

/-- The fraction field of an encoding (R94). -/
theorem fraction_field (f : Fmt) (x : Nat) : x % 2 ^ f.width % 2 ^ f.fw = x % f.signBit % 2 ^ f.fw := by
  rw [← width_mod_signBit, Nat.mod_mod_of_dvd (x % 2 ^ f.width)]
  exact pow_dvd_pow 2 (Nat.le_add_left _ _)

theorem lt_infIndex_iff (f : Fmt) (x : Nat) : x % f.signBit < infIndex f ↔ x % f.signBit / 2 ^ f.fw ≠ 2 ^ f.ew - 1 := by
  have h : x % f.signBit / 2 ^ f.fw < 2 ^ f.ew := by
    rw [Nat.div_lt_iff_lt_mul (by positivity), ← pow_add]; exact Nat.mod_lt _ (by rw [Fmt.signBit]; positivity)
  rw [infIndex, ← Nat.div_lt_iff_lt_mul (by positivity)]
  omega

/-- A finite encoding is a number of its sign, its significand and its exponent (R95). -/
theorem val_finite (f : Fmt) {x : Nat} (h : x % f.signBit < infIndex f) :
    f.val x = .num ⟨bitAt (x % 2 ^ f.width) (f.ew + f.fw), sig f (x % f.signBit), expo f (x % f.signBit)⟩ := by
  have hp : x % 2 ^ f.width ≠ f.poison := fun he => by
    have := infIndex_le_poison f
    rw [← he, width_mod_signBit] at this; omega
  have hex := (lt_infIndex_iff f x).mp h
  have hpos : 0 < 2 ^ f.fw := by positivity
  simp only [Fmt.val, if_neg hp, exponent_field, fraction_field, if_neg hex, sig, expo]
  generalize x % f.signBit = i
  by_cases hi : i < 2 ^ f.fw
  · simp [hi, Nat.div_eq_of_lt hi, Nat.mod_eq_of_lt hi]
  · have : 1 ≤ i / 2 ^ f.fw := (Nat.one_le_div_iff hpos).mpr (by omega)
    rw [if_neg (by omega), if_neg hi, max_eq_left this]

theorem finite_of_val {f : Fmt} {x : Nat} {n : Machine.Num} (h : f.val x = .num n) : x % f.signBit < infIndex f := by
  by_contra hx
  rw [lt_infIndex_iff, not_not] at hx
  simp only [Fmt.val, exponent_field, hx, if_true] at h
  split_ifs at h

theorem val_num_iff {f : Fmt} {x : Nat} {n : Machine.Num} : f.val x = .num n ↔ x % f.signBit < infIndex f
    ∧ n = ⟨bitAt (x % 2 ^ f.width) (f.ew + f.fw), sig f (x % f.signBit), expo f (x % f.signBit)⟩ :=
  ⟨fun h => ⟨finite_of_val h, FVal.num.inj (h.symm.trans (val_finite f (finite_of_val h)))⟩, fun ⟨h, e⟩ => e ▸ val_finite f h⟩

/-- The exact value of an encoding is the grid's point under its sign. -/
theorem rat_of_val {f : Fmt} {x : Nat} {n : Machine.Num} (h : f.val x = .num n) :
    n.rat = if n.neg then - mag f (x % f.signBit) else mag f (x % f.signBit) := by
  obtain ⟨-, rfl⟩ := val_num_iff.mp h
  simp only [Machine.Num.rat, mag]
  split <;> ring

/-- An encoding put together from a sign and the index of a finite magnitude (R94). -/
theorem val_encoding (f : Fmt) (neg : Bool) {i : Nat} (hi : i < infIndex f) :
    f.val (neg.toNat * f.signBit + i) = .num ⟨neg, sig f i, expo f i⟩ ∧ neg.toNat * f.signBit + i < 2 ^ f.width := by
  have hs := infIndex_lt_signBit f
  have hw : 2 ^ f.width = 2 * f.signBit := by rw [Fmt.width, Fmt.signBit, add_assoc, pow_add, pow_one]
  have hlt : neg.toNat * f.signBit + i < 2 ^ f.width := by
    rw [hw]; cases neg <;> simp only [Bool.toNat_true, Bool.toNat_false] <;> omega
  have hmod : (neg.toNat * f.signBit + i) % f.signBit = i := by
    rw [Nat.mul_add_mod_self_right, Nat.mod_eq_of_lt (by omega)]
  refine ⟨?_, hlt⟩
  rw [val_finite f (by rwa [hmod]), hmod, Nat.mod_eq_of_lt hlt]
  have hdiv : (neg.toNat * f.signBit + i) / f.signBit = neg.toNat := by
    rw [Nat.mul_comm, Nat.mul_add_div (by omega), Nat.div_eq_of_lt (by omega), Nat.add_zero]
  have hbit : bitAt (neg.toNat * f.signBit + i) (f.ew + f.fw) = neg := by
    rw [bitAt, ← Fmt.signBit, hdiv]; cases neg <;> rfl
  rw [hbit]

/-- The point of the grid that stands k units of the scale of exponent field E above that scale's first point. -/
theorem mag_scaled (f : Fmt) {E k : Nat} (hE : 1 ≤ E) (hk : k ≤ 2 ^ (f.fw + 1)) (h : E = 1 ∨ 2 ^ f.fw ≤ k) :
    mag f ((E - 1) * 2 ^ f.fw + k) = k * 2 ^ ((E : Int) - f.bias - f.fw) := by
  obtain ⟨E, rfl⟩ : ∃ F, E = F + 1 := ⟨E - 1, by omega⟩
  have hpos : 0 < 2 ^ f.fw := by positivity
  rw [Nat.add_sub_cancel, mag, sig, expo]
  rw [pow_succ] at hk
  by_cases hlow : k < 2 ^ f.fw
  · obtain rfl : E = 0 := by omega
    rw [Nat.zero_mul, Nat.zero_add, if_pos hlow, Nat.div_eq_of_lt hlow]; rfl
  obtain ⟨r, rfl⟩ : ∃ r, k = 2 ^ f.fw + r := ⟨k - 2 ^ f.fw, by omega⟩
  have hbig : ¬ E * 2 ^ f.fw + (2 ^ f.fw + r) < 2 ^ f.fw := by omega
  have hsum : E * 2 ^ f.fw + (2 ^ f.fw + r) = 2 ^ f.fw * (E + 1) + r := by ring
  rw [if_neg hbig, hsum, Nat.mul_add_mod, Nat.mul_add_div hpos]
  rcases Nat.lt_or_ge r (2 ^ f.fw) with hr | hr
  · rw [Nat.mod_eq_of_lt hr, Nat.div_eq_of_lt hr, Nat.add_zero, max_eq_left (Nat.le_add_left 1 E)]
  · obtain rfl : r = 2 ^ f.fw := by omega
    rw [Nat.mod_self, Nat.div_self hpos, max_eq_left (by omega), Nat.add_zero]
    have hexp : ((E + 1 + 1 : Nat) : Int) - f.bias - f.fw = 1 + (((E + 1 : Nat) : Int) - f.bias - f.fw) := by push_cast; ring
    rw [hexp, zpow_add₀ two_ne_zero]; push_cast; ring

/-- An encoding's index from its exponent field and its significand. -/
theorem index_eq (f : Fmt) (i : Nat) : (max (i / 2 ^ f.fw) 1 - 1) * 2 ^ f.fw + sig f i = i ∧ sig f i + 1 ≤ 2 ^ (f.fw + 1)
    ∧ (max (i / 2 ^ f.fw) 1 = 1 ∨ 2 ^ f.fw ≤ sig f i) := by
  have hpos : 0 < 2 ^ f.fw := by positivity
  have hdm := Nat.div_add_mod' i (2 ^ f.fw)
  have hr : i % 2 ^ f.fw < 2 ^ f.fw := Nat.mod_lt _ hpos
  rw [sig, pow_succ]
  split
  next hlow => rw [Nat.div_eq_of_lt hlow]; simp; omega
  next hhigh =>
    obtain ⟨E, hE⟩ : ∃ E, i / 2 ^ f.fw = E + 1 := ⟨i / 2 ^ f.fw - 1, by have := (Nat.one_le_div_iff hpos).mpr (not_lt.mp hhigh); omega⟩
    rw [hE, Nat.add_mul] at hdm
    rw [hE, max_eq_left (by omega), Nat.add_sub_cancel]
    omega

/-- Neighbours of the grid are one unit of the lower one's last place apart. -/
theorem mag_succ (f : Fmt) (i : Nat) : mag f (i + 1) = mag f i + 2 ^ expo f i := by
  obtain ⟨hi, hk, hE⟩ := index_eq f i
  have h := mag_scaled f (le_max_right (i / 2 ^ f.fw) 1) hk (hE.imp_right (le_add_right))
  rw [← Nat.add_assoc, hi] at h
  rw [h, mag, expo]; push_cast; ring

theorem mag_zero (f : Fmt) : mag f 0 = 0 := by simp [mag, sig]

theorem mag_strictMono (f : Fmt) : StrictMono (mag f) :=
  strictMono_nat_of_lt_succ fun i => by rw [mag_succ]; exact lt_add_of_pos_right _ (by positivity)

/-- The points of the grid around the overflow threshold (R104). -/
theorem mag_infIndex (f : Fmt) : mag f (infIndex f) = 2 ^ (f.bias + 1) ∧ mag f (infIndex f - 1) = 2 ^ (f.bias + 1) - 2 ^ (f.bias - f.fw) := by
  cases f <;> norm_num [mag, sig, expo, infIndex, Fmt.bias, Fmt.ew, Fmt.fw]

/-! ### An exact value and its rounding (R103 to R105) -/

/-- A cut is that of a real number. -/
structure IsReal (c : Cut) (v : ℝ) : Prop where
  le : ∀ q : Rat, c.le q ↔ (q : ℝ) ≤ v
  ge : ∀ q : Rat, c.ge q ↔ v ≤ (q : ℝ)

theorem isReal_of (x : Rat) : IsReal (Cut.of x) x := ⟨fun _ => Rat.cast_le.symm, fun _ => Rat.cast_le.symm⟩

theorem isReal_sqrt {x : Rat} (hx : 0 ≤ x) : IsReal (Cut.sqrt x) (√(x : ℝ)) where
  le q := by
    rcases lt_or_ge q 0 with hq | hq
    · have : (q : ℝ) ≤ √(x : ℝ) := (Rat.cast_nonpos.mpr hq.le).trans (Real.sqrt_nonneg _)
      simp [Cut.sqrt, hq, this]
    · rw [Real.le_sqrt (Rat.cast_nonneg.mpr hq) (Rat.cast_nonneg.mpr hx), pow_two]
      simp only [Cut.sqrt, not_lt.mpr hq, false_or]
      exact_mod_cast Iff.rfl
  ge q := by
    rw [Real.sqrt_le_iff, pow_two, Cut.sqrt]
    exact_mod_cast Iff.rfl

/-- A magnitude under a sign. -/
def signed (neg : Bool) (V : ℝ) : ℝ := if neg then -V else V

/-- A value reaches a threshold when it has the threshold's sign and its magnitude is at least the threshold or goes up to it (R104, R105). -/
theorem reaches_iff {c : Cut} {neg : Bool} {V : ℝ} (hc : IsReal c (signed neg V)) (hV : 0 < V) {rm : Nat} (hrm : rm < 4) {top ulp : Rat}
    (hu : 0 < ulp) (ht : ulp < top) (neg' : Bool) :
    c.reaches rm top ulp neg' ↔ neg' = neg ∧ ((top : ℝ) ≤ V ∨ GoesUp rm neg 1 ((top : ℝ) - ulp) top V) := by
  have hu' : (0 : ℝ) < ulp := by exact_mod_cast hu
  have ht' : (ulp : ℝ) < top := by exact_mod_cast ht
  obtain rfl | rfl | rfl | rfl : rm = 0 ∨ rm = 1 ∨ rm = 2 ∨ rm = 3 := by omega
  -- under each mode both sides compare V with the threshold, with the point below it, or with their midpoint
  all_goals
    simp only [Cut.reaches, hc.le, hc.ge, GoesUp]
    push_cast
    cases neg <;> cases neg' <;> grind [signed]

theorem signed_signed (neg : Bool) (V : ℝ) : signed neg (signed neg V) = V := by cases neg <;> simp [signed]

/-- No value of the grid, of either sign, lies strictly between neighbours of the grid. -/
theorem signed_outside {g : Nat → ℝ} (hg : StrictMono g) (h0 : g 0 = 0) (s : Bool) (i j : Nat) :
    signed s (g i) ≤ g j ∨ g (j + 1) ≤ signed s (g i) := by
  have hpos (a : Nat) : 0 ≤ g a := h0 ▸ hg.monotone (Nat.zero_le a)
  cases s
  · exact (Nat.lt_or_ge j i).symm.imp (fun h => hg.monotone h) (fun h => hg.monotone h)
  · exact .inl ((neg_nonpos.mpr (hpos i)).trans (hpos j))

/-- The rounded point is as the mode says against every other point of the grid, of either sign (R103). -/
theorem Rounds.nearest {c : Cut} {neg : Bool} {V : ℝ} (hc : IsReal c (signed neg V)) (hV : 0 < V) {rm q x : Nat} {g : Nat → ℝ}
    (h : Rounds rm neg g V q) (hg : StrictMono g) (h0 : g 0 = 0) {n k : Rat} (hn : (n : ℝ) = signed neg (g q))
    (hk : ∃ s i, (k : ℝ) = signed s (g i)) (hx : x % 2 = q % 2) : c.nearest rm x n k := by
  obtain ⟨j, hlo, hhi, hq⟩ := h
  obtain ⟨κ, hκ, hout⟩ : ∃ κ, (k : ℝ) = signed neg κ ∧ (κ ≤ g j ∨ g (j + 1) ≤ κ) := by
    obtain ⟨s, i, hki⟩ := hk
    refine ⟨signed neg k, (signed_signed neg k).symm, ?_⟩
    have hflip : signed neg (signed s (g i)) = signed (neg != s) (g i) := by cases neg <;> cases s <;> simp [signed]
    rw [hki, hflip]
    exact signed_outside hg h0 _ i j
  have hpos : 0 ≤ g j := h0 ▸ hg.monotone (Nat.zero_le j)
  -- under each mode the claim compares the value, its neighbours in the grid, and a point that is not between them
  match rm with
  | 0 | 1 | 2 | _ + 3 =>
    simp only [Cut.nearest, hc.le, hc.ge, ← Rat.cast_lt (K := ℝ), ← Rat.cast_le (K := ℝ), ← Rat.cast_inj (α := ℝ), ne_eq, GoesUp] at *
    push_cast
    cases neg <;> grind [signed]

/-- The exponent of a number's leading bit. -/
def leading (m : Nat) (e : Int) : Int := e + (bitLen m : Int) - 1

/-- The exponent field of the scale on which a number of a given leading bit is rounded: 1 for the subnormals (R94, R95). -/
def scale (f : Fmt) (t : Int) : Nat := (max (t + f.bias) 1).toNat

theorem pow_leading_le {m : Nat} (hm : m ≠ 0) (e : Int) {s : Bool} {V : ℝ} (h : Between m e s V) : (2 : ℝ) ^ leading m e ≤ V := by
  refine le_trans ?_ h.le
  have hle : ((2 ^ m.log2 : Nat) : ℝ) ≤ m := Nat.cast_le.mpr (Nat.log2_self_le hm)
  have hexp : leading m e = (m.log2 : Int) + e := by rw [leading, bitLen, if_neg hm]; push_cast; ring
  rw [hexp, zpow_add₀ two_ne_zero]
  exact mul_le_mul_of_nonneg_right (by exact_mod_cast hle) (by positivity)

theorem lt_pow_leading {m : Nat} (hm : m ≠ 0) (e : Int) {s : Bool} {V : ℝ} (h : Between m e s V) : V < (2 : ℝ) ^ (leading m e + 1) := by
  refine h.lt.trans_le ?_
  have hle : ((m + 1 : Nat) : ℝ) ≤ (2 ^ (m.log2 + 1) : Nat) := Nat.cast_le.mpr Nat.lt_log2_self
  have hexp : leading m e + 1 = (m.log2 + 1 : Nat) + e := by rw [leading, bitLen, if_neg hm]; push_cast; ring
  rw [hexp, zpow_add₀ two_ne_zero]
  exact mul_le_mul_of_nonneg_right (by exact_mod_cast hle) (by positivity)

/-- `roundTo` from the two roundings that it makes: to the format's scale, and with an unbounded exponent. -/
theorem roundTo_eq (f : Fmt) (rm : Nat) (neg : Bool) {m : Nat} (hm : m ≠ 0) (e : Int) (s : Bool) {t l : Int} {r : Nat × Bool} {i : Nat}
    (ht : t = leading m e) (hl : l = (scale f t : Int) - f.bias - f.fw) (hr : r = quantize rm neg m e s l) (hi : i = (scale f t - 1) * 2 ^ f.fw + r.1) :
    roundTo f rm neg m e s = if infIndex f ≤ i then overflowRes f rm neg else
      ⟨neg.toNat * f.signBit + i, (if r.2 then 0 else flInexact)
        + (if (decide (t < 1 - (f.bias : Int)) && (decide (t + 1 < 1 - (f.bias : Int)) || decide ((quantize rm neg m e s (t - f.fw)).1 < 2 ^ (f.fw + 1)))) && !r.2 then flUnderflow else 0)⟩ := by
  have hscale : (if t - f.fw < 1 - (f.bias : Int) - f.fw then 1 - (f.bias : Int) - f.fw else t - f.fw) = l := by
    rw [hl, scale]; split <;> omega
  have hidx : ((l + f.fw + f.bias) * (2 ^ f.fw : Nat) + r.1 - (2 ^ f.fw : Nat)).toNat = i := by
    obtain ⟨E, hE⟩ : ∃ E, scale f t = E + 1 := ⟨scale f t - 1, by rw [scale]; omega⟩
    have hl' : l + f.fw + f.bias = E + 1 := by rw [hl, hE]; push_cast; ring
    rw [hl', hi, hE, Nat.add_sub_cancel, add_mul, one_mul]
    have : ((E : Int) * (2 ^ f.fw : Nat) + (2 ^ f.fw : Nat) + r.1 - (2 ^ f.fw : Nat)) = (E * 2 ^ f.fw + r.1 : Nat) := by push_cast; ring
    rw [this, Int.toNat_natCast]
  subst ht
  rw [leading] at *
  simp only [roundTo, hm, false_and, if_false, hscale, ← hr, hidx]
  rfl

/-- A number with as many bits as a quotient or a root has lies a bit above its own rest. -/
theorem lt_leading_of_le {f : Fmt} {m : Nat} (h : 2 ^ (f.fw + 1) ≤ m) (e : Int) : e < leading m e - f.fw := by
  have hm : m ≠ 0 := (Nat.two_pow_pos _).trans_le h |>.ne'
  have := (Nat.le_log2 hm).mpr h
  rw [leading, bitLen, if_neg hm]; push_cast; omega

theorem zpow_scale (a : Nat) (l : Int) : (2 : ℝ) ^ (l + a) = ((2 ^ a : Nat) : ℝ) * 2 ^ l := by
  rw [zpow_add₀ two_ne_zero, zpow_natCast, mul_comm]; push_cast; rfl

/-- On its scale, a magnitude's index is below the scale's end, and above its beginning but for the subnormals. -/
theorem index_range (f : Fmt) {m : Nat} (hm : m ≠ 0) {e : Int} {s : Bool} {V : ℝ} (h : Between m e s V) {E : Nat} (hE : E = scale f (leading m e))
    {l : Int} (hl : l = (E : Int) - f.bias - f.fw) {j : Nat} (hlo : (j : ℝ) * 2 ^ l ≤ V) (hhi : V < ((j + 1 : Nat) : ℝ) * 2 ^ l) :
    j + 1 ≤ 2 ^ (f.fw + 1) ∧ (E = 1 ∨ 2 ^ f.fw ≤ j) := by
  have hpos : (0 : ℝ) < 2 ^ l := by positivity
  rw [scale] at hE
  constructor
  · have hV : V < (2 ^ (f.fw + 1) : Nat) * (2 : ℝ) ^ l := by
      rw [← zpow_scale]
      exact (lt_pow_leading hm e h).trans_le (zpow_le_zpow_right₀ one_le_two (by push_cast; omega))
    exact Nat.cast_lt.mp ((mul_lt_mul_iff_left₀ hpos).mp (hlo.trans_lt hV))
  · refine or_iff_not_imp_left.mpr fun hE1 => Nat.lt_succ_iff.mp ?_
    have hV : (2 ^ f.fw : Nat) * (2 : ℝ) ^ l ≤ V := by
      rw [← zpow_scale]
      exact (zpow_le_zpow_right₀ one_le_two (by omega)).trans (pow_leading_le hm e h)
    exact Nat.cast_lt.mp ((mul_lt_mul_iff_left₀ hpos).mp (hV.trans_lt hhi))

/-- The finite magnitudes as a grid of real numbers. -/
def grid (f : Fmt) (i : Nat) : ℝ := (mag f i : ℝ)

theorem grid_strictMono (f : Fmt) : StrictMono (grid f) := fun _ _ h => Rat.cast_lt.mpr (mag_strictMono f h)

theorem grid_zero (f : Fmt) : grid f 0 = 0 := by rw [grid, mag_zero, Rat.cast_zero]

theorem grid_scaled (f : Fmt) {E k : Nat} (hE : 1 ≤ E) (hk : k ≤ 2 ^ (f.fw + 1)) (h : E = 1 ∨ 2 ^ f.fw ≤ k) {l : Int} (hl : l = (E : Int) - f.bias - f.fw) :
    grid f ((E - 1) * 2 ^ f.fw + k) = k * 2 ^ l := by
  rw [grid, mag_scaled f hE hk h, hl]; push_cast; rfl

/-- The rounding to the format's scale is the rounding to the grid of its finite magnitudes (R104). -/
theorem quantize_grid (f : Fmt) (rm : Nat) (neg : Bool) {m : Nat} (hm : m ≠ 0) {e : Int} {s : Bool} {V : ℝ} (h : Between m e s V)
    (hs : s = true → 2 ^ (f.fw + 1) ≤ m) {E : Nat} (hE : E = scale f (leading m e)) {l : Int} (hl : l = (E : Int) - f.bias - f.fw)
    {r : Nat × Bool} (hr : r = quantize rm neg m e s l) :
    Rounds rm neg (grid f) V ((E - 1) * 2 ^ f.fw + r.1) ∧ (r.2 = true ↔ V = grid f ((E - 1) * 2 ^ f.fw + r.1)) := by
  have hE1 : 1 ≤ E := by rw [hE, scale]; omega
  have hsl : s = true → e < l := fun hst => by
    have := lt_leading_of_le (hs hst) e
    rw [scale] at hE; omega
  have heven : (E - 1) * 2 ^ f.fw % 2 = 0 := by
    have : 2 ^ f.fw % 2 = 0 := by cases f <;> rfl
    rw [Nat.mul_mod, this, Nat.mul_zero, Nat.zero_mod]
  obtain ⟨hround, hx⟩ := quantize_rounds rm neg h hsl r.1 (by rw [hr])
  rw [← hr] at hx
  have hg (j : Nat) (hlo : (j : ℝ) * 2 ^ l ≤ V) (hhi : V < ((j + 1 : Nat) : ℝ) * 2 ^ l) :
      grid f ((E - 1) * 2 ^ f.fw + j) = j * 2 ^ l ∧ grid f ((E - 1) * 2 ^ f.fw + j + 1) = ((j + 1 : Nat) : ℝ) * 2 ^ l := by
    obtain ⟨hj, hmin⟩ := index_range f hm h hE hl hlo hhi
    exact ⟨grid_scaled f hE1 (by omega) hmin hl, grid_scaled f hE1 hj (hmin.imp_right (le_add_right)) hl⟩
  refine ⟨hround.shift heven hg, hx.trans ?_⟩
  obtain ⟨j, hlo, hhi, ⟨hq, -⟩ | ⟨hq, -⟩⟩ := hround
  · rw [hq, ← Nat.add_assoc, (hg j hlo hhi).2]
  · rw [hq, (hg j hlo hhi).1]

/-- Rounded with an unbounded exponent, a value reaches the next power of two or goes up to it (R104, R105). -/
theorem unbounded_iff (f : Fmt) (rm : Nat) (neg : Bool) {m : Nat} {e : Int} {s : Bool} {V : ℝ} (h : Between m e s V)
    (hs : s = true → 2 ^ (f.fw + 1) ≤ m) {t : Int} (ht : t = leading m e) : 2 ^ (f.fw + 1) ≤ (quantize rm neg m e s (t - f.fw)).1
      ↔ (2 : ℝ) ^ (t + 1) ≤ V ∨ GoesUp rm neg 1 ((2 : ℝ) ^ (t + 1) - 2 ^ (t - f.fw)) (2 ^ (t + 1)) V := by
  obtain ⟨hround, -⟩ := quantize_rounds rm neg h (fun hst => ht ▸ lt_leading_of_le (hs hst) e) _ rfl
  have hmono : StrictMono fun k : Nat => (k : ℝ) * 2 ^ (t - f.fw) :=
    fun a b hab => mul_lt_mul_of_pos_right (Nat.cast_lt.mpr hab) (by positivity)
  have hpos := Nat.two_pow_pos f.fw
  have hodd : (2 ^ (f.fw + 1) - 1) % 2 = 1 := by rw [pow_succ]; omega
  have htop : ((2 ^ (f.fw + 1) : Nat) : ℝ) * 2 ^ (t - f.fw) = 2 ^ (t + 1) := by rw [← zpow_scale]; congr 1; push_cast; ring
  have hiff := hround.le_iff hmono hodd
  rwa [Nat.sub_add_cancel Nat.one_le_two_pow, htop, Nat.cast_sub Nat.one_le_two_pow, sub_mul, htop, Nat.cast_one, one_mul] at hiff

/-- A value more than one power of two below the smallest normal does not go up to it (R105). -/
theorem not_goesUp_normal (f : Fmt) (rm : Nat) (neg : Bool) {t : Int} (ht : t + 1 < 1 - (f.bias : Int)) {V : ℝ} (hV : V < 2 ^ (t + 1)) :
    V < 2 ^ (1 - (f.bias : Int)) ∧ ¬ GoesUp rm neg 1 ((2 : ℝ) ^ (1 - (f.bias : Int)) - 2 ^ (-(f.bias : Int) - f.fw)) (2 ^ (1 - (f.bias : Int))) V := by
  have hulp : (0 : ℝ) < 2 ^ (-(f.bias : Int) - f.fw) := by positivity
  have h1 : (2 : ℝ) ^ (t + 1) ≤ 2 ^ (-(f.bias : Int)) := zpow_le_zpow_right₀ one_le_two (by omega)
  have h2 : (2 : ℝ) ^ (-(f.bias : Int) - f.fw) ≤ 2 ^ (-(f.bias : Int)) := zpow_le_zpow_right₀ one_le_two (by omega)
  have h3 : (2 : ℝ) ^ (1 - (f.bias : Int)) = 2 * 2 ^ (-(f.bias : Int)) := by rw [sub_eq_add_neg, zpow_add₀ two_ne_zero, zpow_one]
  have hbelow : V < (2 : ℝ) ^ (1 - (f.bias : Int)) - 2 ^ (-(f.bias : Int) - f.fw) := by linarith
  exact ⟨by linarith, fun hgo => lt_asymm hbelow (hgo.lo_lt (sub_lt_self _ hulp))⟩

/-- The test of `roundTo` for a tiny result: rounded with an unbounded exponent, the value does not reach the smallest normal (R105). -/
theorem tiny_iff (f : Fmt) {rm : Nat} (hrm : rm < 4) {neg : Bool} {m : Nat} (hm : m ≠ 0) {e : Int} {s : Bool} {V : ℝ} (h : Between m e s V) (hV : 0 < V)
    (hs : s = true → 2 ^ (f.fw + 1) ≤ m) {c : Cut} (hc : IsReal c (signed neg V)) {t : Int} (ht : t = leading m e) :
    (t < 1 - (f.bias : Int) ∧ (t + 1 < 1 - (f.bias : Int) ∨ (quantize rm neg m e s (t - f.fw)).1 < 2 ^ (f.fw + 1)))
      ↔ ∀ neg', ¬ c.reaches rm (2 ^ (1 - (f.bias : Int))) (2 ^ (-(f.bias : Int) - f.fw)) neg' := by
  have hu : (0 : Rat) < 2 ^ (-(f.bias : Int) - f.fw) := by positivity
  have hut : (2 : Rat) ^ (-(f.bias : Int) - f.fw) < 2 ^ (1 - (f.bias : Int)) := zpow_lt_zpow_right₀ one_lt_two (by omega)
  simp only [reaches_iff hc hV hrm hu hut, not_and, forall_eq]
  push_cast
  rcases lt_trichotomy (t + 1) (1 - (f.bias : Int)) with ht1 | ht1 | ht1
  · obtain ⟨hbelow, hno⟩ := not_goesUp_normal f rm neg ht1 (ht ▸ lt_pow_leading hm e h)
    have ht2 : t < 1 - (f.bias : Int) := by omega
    simp [ht1, ht2, hno, hbelow]
  · have hiff := unbounded_iff f rm neg h hs ht
    have hexp : t - f.fw = -(f.bias : Int) - f.fw := by omega
    have ht2 : t < 1 - (f.bias : Int) := by omega
    rw [ht1, hexp] at hiff
    simp only [ht2, ht1, lt_irrefl, false_or, true_and, hexp, ← hiff, not_le]
  · have hab : (2 : ℝ) ^ (1 - (f.bias : Int)) ≤ V := (zpow_le_zpow_right₀ one_le_two (by omega)).trans (ht ▸ pow_leading_le hm e h)
    have ht2 : ¬ t < 1 - (f.bias : Int) := by omega
    simp [ht2, hab]

/-- A magnitude overflows when it is rounded to the point past the greatest finite value (R104). -/
theorem overflow_iff (f : Fmt) {rm : Nat} (hrm : rm < 4) {neg : Bool} {V : ℝ} {i : Nat} (h : Rounds rm neg (grid f) V i) (hV : 0 < V)
    {c : Cut} (hc : IsReal c (signed neg V)) (neg' : Bool) :
    c.reaches rm (2 ^ (f.bias + 1)) (2 ^ (f.bias - f.fw)) neg' ↔ neg' = neg ∧ infIndex f ≤ i := by
  obtain ⟨htop, hlow⟩ := mag_infIndex f
  have hodd : (infIndex f - 1) % 2 = 1 := by cases f <;> rfl
  have hone : infIndex f - 1 + 1 = infIndex f := by cases f <;> rfl
  have hiff := h.le_iff (grid_strictMono f) hodd
  rw [hone, grid, grid, htop, hlow] at hiff
  rw [reaches_iff hc hV hrm (by positivity) (pow_lt_pow_right₀ one_lt_two (by omega)), hiff]
  push_cast; rfl

theorem signed_inj {neg : Bool} {V W : ℝ} : signed neg V = signed neg W ↔ V = W := by cases neg <;> simp [signed]

/-- The real value of a finite encoding. -/
theorem cast_rat_of_val {f : Fmt} {x : Nat} {n : Machine.Num} (h : f.val x = .num n) : (n.rat : ℝ) = signed n.neg (grid f (x % f.signBit)) := by
  rw [rat_of_val h, signed, grid]; split <;> push_cast <;> rfl

theorem cast_rat (neg : Bool) (f : Fmt) (i : Nat) : ((⟨neg, sig f i, expo f i⟩ : Machine.Num).rat : ℝ) = signed neg (grid f i) := by
  rw [signed, grid, mag, Machine.Num.rat]; push_cast; split <;> ring

/-- The overflow result by mode and sign (R104). -/
theorem overflowRes_eq (f : Fmt) {rm : Nat} (hrm : rm < 4) (neg : Bool) : overflowRes f rm neg
    = ⟨if rm = 0 ∨ (rm = 2 ∧ neg = false) ∨ (rm = 3 ∧ neg = true) then f.inf neg else f.inf neg - 1, flOverflow + flInexact⟩ := by
  obtain rfl | rfl | rfl | rfl : rm = 0 ∨ rm = 1 ∨ rm = 2 ∨ rm = 3 := by omega
  all_goals cases neg <;> rfl

/-- A nonzero value that is rounded below the overflow threshold gives the encoding of the rounded magnitude, with the flags of what was lost (R104, R105). -/
theorem roundsTo_finite (f : Fmt) {rm : Nat} {neg : Bool} {V : ℝ} (hV : 0 < V) {i : Nat} (hround : Rounds rm neg (grid f) V i) (hi : i < infIndex f)
    {c : Cut} (hc : IsReal c (signed neg V)) (hover : ∀ neg', ¬ c.reaches rm (2 ^ (f.bias + 1)) (2 ^ (f.bias - f.fw)) neg')
    {exact tiny : Bool} (hexact : exact = true ↔ V = grid f i)
    (htiny : tiny = true ↔ ∀ neg', ¬ c.reaches rm (2 ^ (1 - (f.bias : Int))) (2 ^ (-(f.bias : Int) - f.fw)) neg') :
    c.roundsTo f rm ⟨neg.toNat * f.signBit + i, (if exact then 0 else flInexact) + (if tiny && !exact then flUnderflow else 0)⟩ := by
  obtain ⟨hval, hlt⟩ := val_encoding f neg hi
  have hrat := cast_rat neg f i
  have heven : f.signBit % 2 = 0 := by cases f <;> rfl
  have hpar : (neg.toNat * f.signBit + i) % 2 = i % 2 := by rw [Nat.add_mod, Nat.mul_mod, heven, Nat.mul_zero, Nat.zero_mod, Nat.zero_add, Nat.mod_mod]
  have hsame : exact = true ↔ c.le (⟨neg, sig f i, expo f i⟩ : Machine.Num).rat ∧ c.ge (⟨neg, sig f i, expo f i⟩ : Machine.Num).rat := by
    rw [hc.le, hc.ge, hrat, hexact, ← le_antisymm_iff, signed_inj, eq_comm]
  refine ⟨fun neg' h => absurd h (hover neg'), fun _ => ⟨_, hval, hlt, fun h => ?_, fun h => ?_, fun b k hb => ?_, ?_, ?_, ?_⟩⟩
  · rw [hc.ge] at h
    cases neg
    · rfl
    · exact absurd (show signed true V ≤ _ by simp [signed, hV.le]) h
  · rw [hc.le] at h
    cases neg
    · exact absurd (show _ ≤ signed false V by simp [signed, hV.le]) h
    · rfl
  · exact hround.nearest hc hV (grid_strictMono f) (grid_zero f) hrat ⟨_, _, cast_rat_of_val hb⟩ hpar
  · cases exact <;> cases tiny <;> simp [flInexact, flUnderflow]
  · rw [← hsame]; cases exact <;> cases tiny <;> simp [flInexact, flUnderflow]
  · rw [← hsame, ← htiny]; cases exact <;> cases tiny <;> simp [flInexact, flUnderflow]

/-- A nonzero value, given exactly or with a rest, is rounded once with the flags of that rounding (R103 to R105). -/
theorem roundTo_roundsTo (f : Fmt) {rm : Nat} (hrm : rm < 4) {neg : Bool} {m : Nat} (hm : m ≠ 0) {e : Int} {s : Bool} {V : ℝ} (h : Between m e s V)
    (hs : s = true → 2 ^ (f.fw + 1) ≤ m) {c : Cut} (hc : IsReal c (signed neg V)) : c.roundsTo f rm (roundTo f rm neg m e s) := by
  have hV : 0 < V := lt_of_lt_of_le (by positivity) (pow_leading_le hm e h)
  obtain ⟨hround, hexact⟩ := quantize_grid f rm neg hm h hs rfl rfl rfl
  have hover := overflow_iff f hrm hround hV hc
  rw [roundTo_eq f rm neg hm e s rfl rfl rfl rfl]
  split
  next hi =>
    rw [overflowRes_eq f hrm]
    refine ⟨fun neg' hr => ?_, fun hno => absurd ((hover neg).mpr ⟨rfl, hi⟩) (hno neg)⟩
    obtain ⟨rfl, -⟩ := (hover neg').mp hr
    exact ⟨rfl, rfl⟩
  next hi =>
    refine roundsTo_finite f hV hround (not_le.mp hi) hc (fun neg' hr => hi ((hover neg').mp hr).2) hexact ?_
    rw [← tiny_iff f hrm hm h hV hs hc rfl]
    simp

/-! ### The exact values of the operations on numbers -/

/-- A result is a rational value rounded once; an exact zero has the given sign and no flag (R104, R105). -/
def RoundsExact (f : Fmt) (rm : Nat) (x : Rat) (z : Bool) (r : FRes) : Prop :=
  (x ≠ 0 → (Cut.of x).roundsTo f rm r) ∧ (x = 0 → r = ⟨f.zero z, 0⟩)

theorem rat_eq_zero (n : Machine.Num) : n.rat = 0 ↔ n.m = 0 := by
  have h2 : (2 : Rat) ^ n.e ≠ 0 := by positivity
  cases hn : n.neg <;> simp [Machine.Num.rat, hn, h2]

theorem rat_opp (n : Machine.Num) : n.opp.rat = -n.rat := by
  cases hn : n.neg <;> simp [Machine.Num.rat, Machine.Num.opp, hn]

theorem rat_mulNum (x y : Machine.Num) : (mulNum x y).rat = x.rat * y.rat := by
  rw [Machine.Num.rat, mulNum, zpow_add₀ two_ne_zero]
  cases hx : x.neg <;> cases hy : y.neg <;> simp [Machine.Num.rat, hx, hy] <;> ring

/-- The signed mantissa of a number at a lower exponent (R104). -/
theorem at_mul (n : Machine.Num) {e : Int} (h : e ≤ n.e) : (n.at e : Rat) * 2 ^ e = n.rat := by
  have hp : (2 : Rat) ^ n.e = 2 ^ (n.e - e).toNat * 2 ^ e := by
    rw [← zpow_natCast, ← zpow_add₀ two_ne_zero]; congr 1; omega
  rw [Machine.Num.at, Machine.Num.rat, hp]
  split <;> push_cast <;> ring

theorem roundNum_exact (f : Fmt) {rm : Nat} (hrm : rm < 4) (n : Machine.Num) : RoundsExact f rm n.rat n.neg (roundNum f rm n) := by
  refine ⟨fun hn => ?_, fun hn => by simp [roundNum, roundTo, (rat_eq_zero n).mp hn]⟩
  have hm : n.m ≠ 0 := mt (rat_eq_zero n).mpr hn
  have hV : Between n.m n.e false ((n.m : ℝ) * 2 ^ n.e) := rfl
  refine roundTo_roundsTo f hrm hm hV nofun ?_
  have hv : signed n.neg (n.m * 2 ^ n.e) = (n.rat : ℝ) := by
    rw [signed, Machine.Num.rat]; push_cast; split <;> ring
  rw [hv]
  exact isReal_of n.rat

theorem roundInt_exact (f : Fmt) {rm : Nat} (hrm : rm < 4) (v e : Int) (z : Bool) : RoundsExact f rm (v * 2 ^ e) z (roundInt f rm v e z) := by
  have h2 : (2 : Rat) ^ e ≠ 0 := by positivity
  rw [roundInt]
  split
  next hv => exact ⟨fun h => absurd (by simp [hv]) h, fun _ => rfl⟩
  next hv =>
    refine ⟨fun _ => ?_, fun h => absurd (by simpa [h2] using h) hv⟩
    have hrat : (⟨decide (v < 0), v.natAbs, e⟩ : Machine.Num).rat = v * 2 ^ e := by
      rw [Machine.Num.rat]
      rcases lt_or_ge v 0 with h | h
      · simp [h, abs_of_neg h]
      · simp [not_lt.mpr h, abs_of_nonneg h]
    have := (roundNum_exact f hrm ⟨decide (v < 0), v.natAbs, e⟩).1
    rw [hrat] at this
    exact this (mul_ne_zero (Int.cast_ne_zero.mpr hv) h2)

/-- A sum is rounded once; a zero sum of opposite signs is −0 in RDN alone (R104). -/
theorem addNum_exact (f : Fmt) {rm : Nat} (hrm : rm < 4) (x y : Machine.Num) :
    RoundsExact f rm (x.rat + y.rat) (if x.neg = y.neg then x.neg else rm == 3) (addNum f rm x y) := by
  have := roundInt_exact f hrm (x.at (min x.e y.e) + y.at (min x.e y.e)) (min x.e y.e) (if x.neg = y.neg then x.neg else rm == 3)
  rwa [Int.cast_add, add_mul, at_mul x (min_le_left _ _), at_mul y (min_le_right _ _)] at this

theorem settle_nums (f : Fmt) (ns : List Machine.Num) (k : FRes) : settle f (ns.map .num) false k = k := by
  have h (v : FVal) (hv : ∀ n, v ≠ .num n) : (ns.map FVal.num).any (· == v) = false := by
    simp [List.any_eq_false, Ne.symm (hv _)]
  simp [settle, h .poison nofun, h .snan nofun, h .qnan nofun]

section Nums
variable {f : Fmt} {rm a b c : Nat} {x y z : Machine.Num} (hx : f.val a = .num x) (hy : f.val b = .num y)
include hx hy

theorem fpAdd_num : fpAdd f rm a b = addNum f rm x y := by
  rw [fpAdd, hx, hy]; exact settle_nums f [x, y] _

theorem fpSub_num : fpSub f rm a b = addNum f rm x y.opp := by
  rw [fpSub, hx, hy]; exact settle_nums f [x, y.opp] _

theorem fpMul_num : fpMul f rm a b = roundNum f rm (mulNum x y) := by
  rw [fpMul, hx, hy]; exact settle_nums f [x, y] _

theorem fpFma_num (hz : f.val c = .num z) : fpFma f rm a b c = addNum f rm (mulNum x y) z := by
  rw [fpFma, hx, hy, hz]; exact settle_nums f [x, y, z] _

theorem fpFms_num (hz : f.val c = .num z) : fpFms f rm a b c = addNum f rm (mulNum x y) z.opp := by
  rw [fpFms, hx, hy, hz]; exact settle_nums f [x, y, z.opp] _

theorem fpDiv_num (hb : y.m ≠ 0) : fpDiv f rm a b = roundTo f rm (x.neg != y.neg) (x.m * 2 ^ (f.fw + 3 + bitLen y.m) / y.m)
    (x.e - y.e - (f.fw + 3 + bitLen y.m : Nat)) (x.m * 2 ^ (f.fw + 3 + bitLen y.m) % y.m != 0) := by
  rw [fpDiv, hx, hy]
  have hbeq : (y.m == 0) = false := by simpa using hb
  simp only [hbeq, Bool.and_false]
  rw [if_neg hb]
  exact settle_nums f [x, y] _

end Nums

/-- The rounded quotient and whether it leaves a rest stand for the exact quotient. -/
theorem between_div (a : Nat) {b : Nat} (hb : b ≠ 0) (e : Int) : Between (a / b) e (a % b != 0) ((a : ℝ) / b * 2 ^ e) := by
  have he : (0 : ℝ) < 2 ^ e := by positivity
  have hb' : (0 : ℝ) < b := Nat.cast_pos.mpr (Nat.pos_of_ne_zero hb)
  have hdm : (b : ℝ) * (a / b : Nat) + (a % b : Nat) = a := by exact_mod_cast Nat.div_add_mod a b
  have hq : (a : ℝ) / b = (a / b : Nat) + (a % b : Nat) / b := by rw [← hdm]; field_simp
  have hr : ((a % b : Nat) : ℝ) / b < 1 := (div_lt_one hb').mpr (Nat.cast_lt.mpr (Nat.mod_lt _ (Nat.pos_of_ne_zero hb)))
  rw [Between, hq]
  by_cases h0 : a % b = 0
  · simp [h0]
  · have : (0 : ℝ) < ((a % b : Nat) : ℝ) / b := div_pos (Nat.cast_pos.mpr (Nat.pos_of_ne_zero h0)) hb'
    simp only [bne_iff_ne, ne_eq, h0, not_false_eq_true, if_true]
    exact ⟨mul_lt_mul_of_pos_right (by linarith) he, mul_lt_mul_of_pos_right (by linarith) he⟩

theorem lt_pow_bitLen (m : Nat) : m < 2 ^ bitLen m := by
  rw [bitLen]; split
  next h => simp [h]
  next => exact Nat.lt_log2_self

/-- `fdiv` is correctly rounded (R104). -/
theorem fpDiv_roundsTo {f : Fmt} {rm a b : Nat} (hrm : rm < 4) {x y : Machine.Num} (hx : f.val a = .num x) (hy : f.val b = .num y) (hxm : x.m ≠ 0) (hym : y.m ≠ 0) :
    (Cut.of (x.rat / y.rat)).roundsTo f rm (fpDiv f rm a b) := by
  rw [fpDiv_num hx hy hym]
  set k := f.fw + 3 + bitLen y.m with hk
  have hbits : 2 ^ (f.fw + 1) ≤ x.m * 2 ^ k / y.m := by
    rw [Nat.le_div_iff_mul_le (Nat.pos_of_ne_zero hym)]
    calc 2 ^ (f.fw + 1) * y.m ≤ 2 ^ (f.fw + 1) * 2 ^ bitLen y.m := Nat.mul_le_mul_left _ (lt_pow_bitLen _).le
      _ ≤ 2 ^ k := by rw [← pow_add]; exact Nat.pow_le_pow_right two_pos (by omega)
      _ ≤ x.m * 2 ^ k := Nat.le_mul_of_pos_left _ (Nat.pos_of_ne_zero hxm)
  have hpos : 0 < 2 ^ (f.fw + 1) := by positivity
  refine roundTo_roundsTo f hrm (by omega) (between_div (x.m * 2 ^ k) hym _) (fun _ => hbits) ?_
  have hv : signed (x.neg != y.neg) (((x.m * 2 ^ k : Nat) : ℝ) / y.m * 2 ^ (x.e - y.e - k)) = ((x.rat / y.rat : Rat) : ℝ) := by
    rw [signed, Machine.Num.rat, Machine.Num.rat, zpow_sub₀ two_ne_zero, zpow_sub₀ two_ne_zero, zpow_natCast]
    push_cast
    cases x.neg <;> cases y.neg <;> simp <;> field_simp
  rw [hv]
  exact isReal_of _

theorem isqrtFrom_spec (n i r : Nat) (hlo : r * r ≤ n) (hhi : n < (r + 2 ^ i) * (r + 2 ^ i)) :
    isqrtFrom n i r * isqrtFrom n i r ≤ n ∧ n < (isqrtFrom n i r + 1) * (isqrtFrom n i r + 1) := by
  induction i generalizing r with
  | zero => exact ⟨hlo, hhi⟩
  | succ i ih =>
    rw [isqrtFrom]
    split
    next h => exact ih _ h (by rwa [Nat.add_assoc, ← Nat.two_mul, ← Nat.pow_succ'])
    next h => exact ih _ hlo (not_le.mp h)

theorem isqrt_eq (n : Nat) : isqrt n = n.sqrt := by
  have hn : n < (0 + 2 ^ ((bitLen n + 1) / 2)) * (0 + 2 ^ ((bitLen n + 1) / 2)) := by
    rw [Nat.zero_add, ← Nat.pow_add]
    exact (lt_pow_bitLen n).trans_le (Nat.pow_le_pow_right two_pos (by omega))
  exact Nat.eq_sqrt.mpr (isqrtFrom_spec n _ 0 (Nat.zero_le n) hn)

/-- The integer square root and whether it leaves a rest stand for the exact root. -/
theorem between_sqrt (a : Nat) (e : Int) : Between (isqrt a) e (isqrt a * isqrt a != a) (√(a : ℝ) * 2 ^ e) := by
  have he : (0 : ℝ) < 2 ^ e := by positivity
  rw [isqrt_eq, Between]
  by_cases h : a.sqrt * a.sqrt = a
  · have : √(a : ℝ) = a.sqrt := by
      rw [Real.sqrt_eq_iff_mul_self_eq (Nat.cast_nonneg _) (Nat.cast_nonneg _)]; exact_mod_cast h.symm
    simp [h, this]
  · have hlt : a.sqrt * a.sqrt < a := lt_of_le_of_ne (Nat.sqrt_le a) h
    simp only [bne_iff_ne, ne_eq, h, not_false_eq_true, if_true]
    refine ⟨mul_lt_mul_of_pos_right (Real.lt_sqrt_of_sq_lt ?_) he, mul_lt_mul_of_pos_right ((Real.sqrt_lt' (by positivity)).mpr ?_) he⟩
    · rw [pow_two]; exact_mod_cast hlt
    · rw [pow_two]; exact_mod_cast Nat.lt_succ_sqrt a

theorem fpSqrt_num {f : Fmt} {rm a : Nat} {x : Machine.Num} (hx : f.val a = .num x) (hm : x.m ≠ 0) (hn : x.neg = false) {m : Nat}
    (h : m = x.m * 2 ^ ((x.e % 2).toNat + 2 * (f.fw + 3))) :
    fpSqrt f rm a = roundTo f rm false (isqrt m) ((x.e - (x.e % 2).toNat) / 2 - (f.fw + 3)) (isqrt m * isqrt m != m) := by
  rw [fpSqrt, hx, h]
  simp only [hn, Bool.false_and]
  rw [if_neg hm]
  exact settle_nums f [x] _

/-- `fsqrt` is correctly rounded (R104). -/
theorem fpSqrt_roundsTo {f : Fmt} {rm a : Nat} (hrm : rm < 4) {x : Machine.Num} (hx : f.val a = .num x) (hm : x.m ≠ 0) (hn : x.neg = false) :
    (Cut.sqrt x.rat).roundsTo f rm (fpSqrt f rm a) := by
  have hrat : x.rat = x.m * 2 ^ x.e := by simp [Machine.Num.rat, hn]
  rw [fpSqrt_num hx hm hn rfl]
  set m := x.m * 2 ^ ((x.e % 2).toNat + 2 * (f.fw + 3)) with hmdef
  have hbits : 2 ^ (f.fw + 1) ≤ isqrt m := by
    rw [isqrt_eq, Nat.le_sqrt, ← Nat.pow_add]
    exact (Nat.pow_le_pow_right two_pos (by omega)).trans (Nat.le_mul_of_pos_left _ (Nat.pos_of_ne_zero hm))
  have hpos : 0 < 2 ^ (f.fw + 1) := by positivity
  refine roundTo_roundsTo f hrm (by omega) (between_sqrt m _) (fun _ => hbits) ?_
  have hv : signed false (√(m : ℝ) * 2 ^ ((x.e - (x.e % 2).toNat) / 2 - (f.fw + 3))) = √((x.rat : Rat) : ℝ) := by
    have hexp : x.e = ((x.e % 2).toNat + 2 * (f.fw + 3) : Nat) + (((x.e - (x.e % 2).toNat) / 2 - (f.fw + 3)) + ((x.e - (x.e % 2).toNat) / 2 - (f.fw + 3))) := by
      push_cast; omega
    have hsq : ((x.rat : Rat) : ℝ) = m * (2 ^ ((x.e - (x.e % 2).toNat) / 2 - (f.fw + 3)) * 2 ^ ((x.e - (x.e % 2).toNat) / 2 - (f.fw + 3))) := by
      rw [hrat, hmdef, ← zpow_add₀ two_ne_zero]
      push_cast
      rw [mul_assoc, ← zpow_natCast, ← zpow_add₀ two_ne_zero, ← hexp]
    rw [hsq, Real.sqrt_mul (Nat.cast_nonneg _), Real.sqrt_mul_self (by positivity)]; rfl
  rw [hv]
  exact isReal_sqrt (by rw [hrat]; positivity)

/-! ### Conversion to integers (R107) -/

/-- An integer is a rational rounded under a mode (R103). -/
def IntRounded (rm : Nat) (x : Rat) (q : Int) : Prop :=
  match rm with
  | 0 => |(q : Rat) - x| ≤ 1 / 2 ∧ (|(q : Rat) - x| = 1 / 2 → q % 2 = 0)
  | 1 => |(q : Rat)| ≤ |x| ∧ |(q : Rat) - x| < 1 ∧ 0 ≤ q * x
  | 2 => x ≤ q ∧ (q : Rat) - x < 1
  | _ => (q : Rat) ≤ x ∧ x - q < 1

/-- A magnitude rounded to the integers gives, under its sign, the value rounded to an integer. -/
theorem Rounds.intRounded {rm : Nat} {neg : Bool} {V : Rat} (hV : 0 ≤ V) {q : Nat} (h : Rounds rm neg (fun k => (k : Rat) * 2 ^ (0 : Int)) V q) :
    IntRounded rm (if neg then -V else V) (if neg then -(q : Int) else q) := by
  obtain ⟨j, hlo, hhi, hq⟩ := h
  simp only [zpow_zero, mul_one, Nat.cast_add, Nat.cast_one] at hlo hhi hq
  replace hq : (q : Rat) = j + 1 ∧ q = j + 1 ∧ GoesUp rm neg j (j : Rat) (j + 1) V ∨ (q : Rat) = j ∧ q = j ∧ ¬ GoesUp rm neg j (j : Rat) (j + 1) V :=
    hq.imp (fun h => ⟨by rw [h.1]; push_cast; rfl, h⟩) (fun h => ⟨by rw [h.1], h⟩)
  have hdist : |((if neg then -(q : Int) else q : Int) : Rat) - (if neg then -V else V)| = |(q : Rat) - V| := by
    cases neg
    · simp
    · simp [← abs_neg ((q : Rat) - V)]; ring_nf
  match rm with
  | 0 =>
    simp only [GoesUp, IntRounded, hdist] at *
    refine ⟨?_, fun htie => ?_⟩
    · rw [abs_le]; grind
    · have : q % 2 = 0 := by
        rcases abs_cases ((q : Rat) - V) with ⟨h, -⟩ | ⟨h, -⟩ <;> rw [h] at htie <;> grind
      split <;> omega
  | 1 =>
    obtain rfl : q = j := by simpa [GoesUp] using hq
    simp only [GoesUp, IntRounded, hdist] at *
    refine ⟨?_, by rw [abs_lt]; grind, ?_⟩
    · have : |(q : Rat)| ≤ |V| := by rwa [abs_of_nonneg (Nat.cast_nonneg q), abs_of_nonneg hV]
      cases neg <;> simpa using this
    · have : 0 ≤ (q : Rat) * V := by positivity
      cases neg <;> simpa using this
  | 2 | _ + 3 => cases neg <;> simp only [GoesUp, IntRounded] at * <;> push_cast <;> grind

theorem cvtI_num {f : Fmt} {rm a : Nat} {x : Machine.Num} (hx : f.val a = .num x) {lo hi : Int} {r : Nat × Bool} (hr : r = quantize rm x.neg x.m x.e false 0)
    {v : Int} (hv : v = if x.neg then -(r.1 : Int) else r.1) :
    cvtI f rm lo hi a = if hi < v then (hi, flInvalid) else if v < lo then (lo, flInvalid) else (v, if r.2 then 0 else flInexact) := by
  rw [cvtI, hx, hv, hr]

/-- An integer in range is the value rounded under the mode, and is exact when it is the value (R107). -/
theorem cvtI_rounded {f : Fmt} {rm a : Nat} {x : Machine.Num} (hx : f.val a = .num x) (lo hi : Int) : ∃ q : Int, IntRounded rm x.rat q
    ∧ cvtI f rm lo hi a = if hi < q then (hi, 1) else if q < lo then (lo, 1) else (q, if (q : Rat) = x.rat then 0 else 16) := by
  obtain ⟨hround, hexact⟩ := quantize_rounds rm x.neg (K := Rat) (show Between x.m x.e false ((x.m : Rat) * 2 ^ x.e) from rfl) (l := 0) nofun _ rfl
  have hrat : x.rat = if x.neg then -((x.m : Rat) * 2 ^ x.e) else (x.m : Rat) * 2 ^ x.e := by rw [Machine.Num.rat]; split <;> ring
  have hsame : (quantize rm x.neg x.m x.e false 0).2 = true
      ↔ ((if x.neg then -((quantize rm x.neg x.m x.e false 0).1 : Int) else (quantize rm x.neg x.m x.e false 0).1 : Int) : Rat) = x.rat := by
    rw [hexact, hrat, zpow_zero, mul_one, eq_comm]
    split <;> simp
  refine ⟨_, hrat ▸ hround.intRounded (by positivity), ?_⟩
  rw [cvtI_num hx rfl rfl]
  simp only [← hsame]
  rfl

/-! ### Conversion into TF8 (R98 to R101) -/

/-- The magnitude of a TF8 body (R98). -/
def tf8 (b : Nat) : Rat := (tf8Mag b : Rat) / 2 ^ 19

/-- `cmpUnits` compares a magnitude with k units of 2^−20. -/
theorem cmpUnits_spec (m : Nat) (e : Int) (k : Nat) {y : Rat} (hy : y = m * 2 ^ e) :
    y < k / 2 ^ 20 ∧ cmpUnits m e k = 0 ∨ y = k / 2 ^ 20 ∧ cmpUnits m e k = 1 ∨ k / 2 ^ 20 < y ∧ cmpUnits m e k = 2 := by
  obtain ⟨a, b, c, hc, hab, hk, hcmp⟩ : ∃ (a b : Nat) (c : Rat), 0 < c ∧ y = a * c ∧ (k : Rat) / 2 ^ 20 = b * c
      ∧ cmpUnits m e k = if a < b then 0 else if a = b then 1 else 2 := by
    by_cases he : 0 ≤ e + 20
    · refine ⟨m * 2 ^ (e + 20).toNat, k, 1 / 2 ^ 20, by positivity, ?_, by ring, by simp [cmpUnits, he]⟩
      have : (2 : Rat) ^ e = 2 ^ (e + 20).toNat * (1 / 2 ^ 20) := by
        rw [one_div, ← zpow_natCast, ← zpow_natCast, ← zpow_neg, ← zpow_add₀ two_ne_zero]; congr 1; push_cast; omega
      rw [hy, this]; push_cast; ring
    · refine ⟨m, k * 2 ^ (-(e + 20)).toNat, 2 ^ e, by positivity, hy, ?_, by simp [cmpUnits, he]⟩
      have : (1 : Rat) / 2 ^ 20 = 2 ^ (-(e + 20)).toNat * 2 ^ e := by
        rw [one_div, ← zpow_natCast, ← zpow_natCast, ← zpow_neg, ← zpow_add₀ two_ne_zero]; congr 1; push_cast; omega
      rw [div_eq_mul_one_div, this]; push_cast; ring
  rw [hcmp, hab, hk, mul_lt_mul_iff_left₀ hc, mul_lt_mul_iff_left₀ hc, mul_left_inj' hc.ne', Nat.cast_lt, Nat.cast_lt, Nat.cast_inj]
  split
  next h => exact .inl ⟨h, rfl⟩
  next h =>
    split
    next h' => exact .inr (.inl ⟨h', rfl⟩)
    next h' => exact .inr (.inr ⟨by omega, rfl⟩)

theorem tf8_lt {i j : Nat} (hij : i < j) (hj : j < 128) : tf8 i < tf8 j := by
  have hstep : ∀ i < 127, tf8Mag i < tf8Mag (i + 1) := by decide
  have hmag : tf8Mag i < tf8Mag j := by
    induction j, hij using Nat.le_induction with
    | base => exact hstep i (by omega)
    | succ j hij ih => exact (ih (by omega)).trans (hstep j (by omega))
  exact div_lt_div_of_pos_right (Nat.cast_lt.mpr hmag) (by positivity)

theorem mid_units (b : Nat) : ((tf8Mag b + tf8Mag (b + 1) : Nat) : Rat) / 2 ^ 20 = (tf8 b + tf8 (b + 1)) / 2 := by
  rw [tf8, tf8]; push_cast; ring

theorem twice_units (b : Nat) : ((2 * tf8Mag b : Nat) : Rat) / 2 ^ 20 = tf8 b := by rw [tf8]; push_cast; ring

/-- The body found lies above the midpoint below it and below the midpoint above it, or at one of them when it is even (R101). -/
theorem tf8Body_spec (m : Nat) (e : Int) {y : Rat} (hy : y = m * 2 ^ e) (n : Nat) : tf8Body m e n ≤ n
    ∧ (∀ b, b + 1 = tf8Body m e n → (tf8 b + tf8 (b + 1)) / 2 < y ∨ (tf8 b + tf8 (b + 1)) / 2 = y ∧ (b + 1) % 2 = 0)
    ∧ (∀ b, b = tf8Body m e n → b < n → y < (tf8 b + tf8 (b + 1)) / 2 ∨ y = (tf8 b + tf8 (b + 1)) / 2 ∧ b % 2 = 0) := by
  induction n with
  | zero => simp [tf8Body]
  | succ n ih =>
    obtain ⟨hle, hlow, hup⟩ := ih
    have hcmp := cmpUnits_spec m e (tf8Mag n + tf8Mag (n + 1)) hy
    rw [mid_units] at hcmp
    rw [tf8Body]
    split
    next hc =>
      simp only [Bool.or_eq_true, Bool.and_eq_true, decide_eq_true_eq, beq_iff_eq] at hc
      refine ⟨le_rfl, fun b hb => ?_, fun b hb h => by omega⟩
      obtain rfl : b = n := by omega
      rcases hcmp with ⟨-, h⟩ | ⟨h, h'⟩ | ⟨h, -⟩
      · omega
      · exact .inr ⟨h.symm, by omega⟩
      · exact .inl h
    next hc =>
      simp only [Bool.or_eq_true, Bool.and_eq_true, decide_eq_true_eq, beq_iff_eq] at hc
      refine ⟨by omega, hlow, fun b hb h => ?_⟩
      rcases Nat.lt_or_ge b n with hbn | hbn
      · exact hup b hb hbn
      obtain rfl : b = n := by omega
      rcases hcmp with ⟨h, -⟩ | ⟨h, h'⟩ | ⟨-, h⟩
      · exact .inl h
      · exact .inr ⟨h, by omega⟩
      · omega

/-- Of two points, a value is not farther from the one on its side of the midpoint, and as far from both at the midpoint alone. -/
theorem nearer_of_mid_le {lo hi y : Rat} (h : lo < hi) (hm : (lo + hi) / 2 ≤ y) : |hi - y| ≤ |lo - y| ∧ (|hi - y| = |lo - y| → y = (lo + hi) / 2) := by
  rw [abs_of_neg (show lo - y < 0 by linarith)]
  constructor
  · rw [abs_le]; constructor <;> linarith
  · intro he
    rcases abs_cases (hi - y) with ⟨h', -⟩ | ⟨h', -⟩ <;> linarith

theorem nearer_of_le_mid {lo hi y : Rat} (h : lo < hi) (hm : y ≤ (lo + hi) / 2) : |lo - y| ≤ |hi - y| ∧ (|lo - y| = |hi - y| → y = (lo + hi) / 2) := by
  rw [abs_of_pos (show 0 < hi - y by linarith)]
  constructor
  · rw [abs_le]; constructor <;> linarith
  · intro he
    rcases abs_cases (lo - y) with ⟨h', -⟩ | ⟨h', -⟩ <;> linarith

/-- No TF8 magnitude is nearer than that of the body found, and another one is as near only when the body is even (R101). -/
theorem tf8Body_nearest (m : Nat) (e : Int) {y : Rat} (hy : y = m * 2 ^ e) {b : Nat} (hb : b = tf8Body m e 127) {k : Nat} (hk : k < 128) :
    |tf8 b - y| ≤ |tf8 k - y| ∧ (k ≠ b → |tf8 b - y| = |tf8 k - y| → b % 2 = 0) := by
  obtain ⟨hle, hlow, hup⟩ := tf8Body_spec m e hy 127
  rcases Nat.lt_trichotomy k b with hkb | rfl | hkb
  · obtain ⟨a, rfl⟩ : ∃ a, b = a + 1 := ⟨b - 1, by omega⟩
    have hmid : (tf8 a + tf8 (a + 1)) / 2 ≤ y ∧ ((tf8 a + tf8 (a + 1)) / 2 = y → (a + 1) % 2 = 0) := by
      rcases hlow a hb with h | ⟨h, hpar⟩
      · exact ⟨h.le, fun he => absurd he h.ne⟩
      · exact ⟨h.le, fun _ => hpar⟩
    have hka : tf8 k ≤ tf8 a ∧ (tf8 k = tf8 a → k = a) := by
      rcases Nat.lt_or_ge k a with h | h
      · exact ⟨(tf8_lt h (by omega)).le, fun he => absurd he (tf8_lt h (by omega)).ne⟩
      · obtain rfl : k = a := by omega
        exact ⟨le_rfl, fun _ => rfl⟩
    obtain ⟨h1, h2⟩ := nearer_of_mid_le (tf8_lt hkb (by omega)) (show (tf8 k + tf8 (a + 1)) / 2 ≤ y by linarith)
    refine ⟨h1, fun _ he => hmid.2 ?_⟩
    have := h2 he
    linarith
  · exact ⟨le_rfl, fun h => absurd rfl h⟩
  · have hmid : y ≤ (tf8 b + tf8 (b + 1)) / 2 ∧ (y = (tf8 b + tf8 (b + 1)) / 2 → b % 2 = 0) := by
      rcases hup b hb (by omega) with h | ⟨h, hpar⟩
      · exact ⟨h.le, fun he => absurd he h.ne⟩
      · exact ⟨h.le, fun _ => hpar⟩
    have hka : tf8 (b + 1) ≤ tf8 k := by
      rcases Nat.lt_or_ge (b + 1) k with h | h
      · exact (tf8_lt h (by omega)).le
      · obtain rfl : k = b + 1 := by omega
        exact le_rfl
    obtain ⟨h1, h2⟩ := nearer_of_le_mid (tf8_lt hkb hk) (show y ≤ (tf8 b + tf8 k) / 2 by linarith)
    refine ⟨h1, fun _ he => hmid.2 ?_⟩
    have := h2 he
    linarith

theorem abs_rat (x : Machine.Num) : |x.rat| = x.m * 2 ^ x.e := by
  have hpos : (0 : Rat) ≤ x.m * 2 ^ x.e := by positivity
  rw [Machine.Num.rat, mul_assoc, abs_mul, abs_of_nonneg hpos]
  split <;> simp

/-- `cvt_tf8` of a number from the comparisons of its magnitude y (R101). -/
theorem cvtTf8_num {f : Fmt} {a : Nat} {x : Machine.Num} (hx : f.val a = .num x) {y : Rat} (hy : y = |x.rat|) {b : Nat} (hb : b = tf8Body x.m x.e 127) :
    cvtTf8 f a = if 31 / 2 < y then ⟨(if x.neg then 128 else 0) + 127, 20⟩ else
      ⟨if b = 0 then 0 else (if x.neg then 128 else 0) + b, (if tf8 b = y then 0 else 16) + (if 0 < y ∧ y < 1 / 2 ^ 19 then 8 else 0)⟩ := by
  rw [abs_rat] at hy
  have hover : cmpUnits x.m x.e (2 * tf8Mag 127) = 2 ↔ 31 / 2 < y := by
    have htop : tf8 127 = 31 / 2 := by norm_num [tf8, show tf8Mag 127 = 31 * 2 ^ 18 by decide]
    have := cmpUnits_spec x.m x.e (2 * tf8Mag 127) hy
    rw [twice_units, htop] at this
    grind
  have hexact : cmpUnits x.m x.e (2 * tf8Mag b) = 1 ↔ tf8 b = y := by
    have := cmpUnits_spec x.m x.e (2 * tf8Mag b) hy
    rw [twice_units] at this
    grind
  have htiny : x.m ≠ 0 ∧ cmpUnits x.m x.e 2 = 0 ↔ 0 < y ∧ y < 1 / 2 ^ 19 := by
    have hpos : 0 < y ↔ x.m ≠ 0 := by
      have : (0 : Rat) < 2 ^ x.e := by positivity
      rw [hy, mul_pos_iff_of_pos_right this, Nat.cast_pos, Nat.pos_iff_ne_zero]
    have hunit : ((2 : Nat) : Rat) / 2 ^ 20 = 1 / 2 ^ 19 := by norm_num
    have := cmpUnits_spec x.m x.e 2 hy
    rw [hunit] at this
    rw [hpos]
    grind
  have hsign : x.neg.toNat * 128 = if x.neg then 128 else 0 := by cases x.neg <;> rfl
  rw [cvtTf8, hx, cvtTf8V]
  simp only [← hb, hover, hsign]
  simp only [Bool.and_eq_true, bne_iff_ne, beq_iff_eq, hexact, htiny]
  rfl

/-- TF8 saturates above its greatest magnitude; below, the body is the nearest one, ties to the even body, with the flags of what was lost (R101). -/
theorem cvtTf8_rounded {f : Fmt} {a : Nat} {x : Machine.Num} (hx : f.val a = .num x) {y : Rat} (hy : y = |x.rat|) :
    (31 / 2 < y → cvtTf8 f a = ⟨(if x.neg then 128 else 0) + 127, 20⟩)
    ∧ (y ≤ 31 / 2 → ∃ b, b < 128 ∧ (cvtTf8 f a).bits = (if b = 0 then 0 else (if x.neg then 128 else 0) + b)
      ∧ (∀ k, k < 128 → |tf8 b - y| ≤ |tf8 k - y| ∧ (k ≠ b → |tf8 b - y| = |tf8 k - y| → b % 2 = 0))
      ∧ (cvtTf8 f a).flags = (if tf8 b = y then 0 else 16) + (if 0 < y ∧ y < 1 / 2 ^ 19 then 8 else 0)) := by
  have h := cvtTf8_num hx hy rfl
  have hb := (tf8Body_spec x.m x.e (hy.trans (abs_rat x)) 127).1
  refine ⟨fun ht => by rw [h, if_pos ht], fun ht => ⟨_, Nat.lt_succ_of_le hb, ?_⟩⟩
  rw [h, if_neg (not_lt.mpr ht)]
  exact ⟨rfl, fun k hk => tf8Body_nearest x.m x.e (hy.trans (abs_rat x)) rfl hk, rfl⟩

/-! ### O26 -/

/-- Sums, differences, products and fused results are the exact value rounded once; an exact zero has the sign that the rules give (R104, R109, R110). -/
theorem arithmetic_exact {f : Fmt} {m a b c : Nat} (hm : m < 4) {x y z : Machine.Num} (hx : f.val a = .num x) (hy : f.val b = .num y) (hz : f.val c = .num z)
    {sg : Bool → Bool → Bool} (hsg : ∀ p q, sg p q = if p = q then p else m == 3) :
    RoundsExact f m (x.rat + y.rat) (sg x.neg y.neg) (fpAdd f m a b) ∧ RoundsExact f m (x.rat - y.rat) (sg x.neg (!y.neg)) (fpSub f m a b)
    ∧ RoundsExact f m (x.rat * y.rat) (x.neg != y.neg) (fpMul f m a b)
    ∧ RoundsExact f m (x.rat * y.rat + z.rat) (sg (x.neg != y.neg) z.neg) (fpFma f m a b c)
    ∧ RoundsExact f m (x.rat * y.rat - z.rat) (sg (x.neg != y.neg) (!z.neg)) (fpFms f m a b c) := by
  rw [fpAdd_num hx hy, fpSub_num hx hy, fpMul_num hx hy, fpFma_num hx hy hz, fpFms_num hx hy hz, sub_eq_add_neg, sub_eq_add_neg,
    ← rat_opp, ← rat_opp, ← rat_mulNum, hsg, hsg, hsg, hsg]
  exact ⟨addNum_exact f hm x y, addNum_exact f hm x y.opp, roundNum_exact f hm (mulNum x y), addNum_exact f hm (mulNum x y) z,
    addNum_exact f hm (mulNum x y) z.opp⟩

theorem cvtF_num {f g : Fmt} {m a : Nat} {x : Machine.Num} (hx : f.val a = .num x) : cvtF f g m a = roundNum g m x := by
  rw [cvtF, hx]; exact settle_nums g [x] _

/-- A zero divided by a nonzero number is zero (R104). -/
theorem fpDiv_zero {f : Fmt} {m a b : Nat} {x y : Machine.Num} (hx : f.val a = .num x) (hy : f.val b = .num y) (hxm : x.m = 0) (hym : y.m ≠ 0) :
    fpDiv f m a b = ⟨f.zero (x.neg != y.neg), 0⟩ := by
  rw [fpDiv_num hx hy hym, hxm, Nat.zero_mul, Nat.zero_div, Nat.zero_mod]
  simp [roundTo]

/-- Settles O26: every operation reduces to one rounding of an exact value, to a grid that is that of the format's finite magnitudes. -/
theorem floatRounding : Obligations.FloatRounding := by
  refine ⟨?sums, ?quotients, ?integers, ?tf8, ?toIntegers⟩
  case sums =>
    intro f m a b c x y z hm hx hy hz sg hsg
    obtain ⟨hadd, hsub, hmul, hfma, hfms⟩ := arithmetic_exact hm hx hy hz hsg
    exact List.forall_iff_forall_mem.mp ⟨hadd, hsub, hmul, hfma, hfms⟩
  case quotients =>
    intro f g m a b x y hm hx hy
    have hcvt := roundNum_exact g hm x
    rw [← cvtF_num hx] at hcvt
    exact ⟨fpDiv_roundsTo hm hx hy, fpDiv_zero hx hy, fpSqrt_roundsTo hm hx, fun h => hcvt.1 (mt (rat_eq_zero x).mp h), fun h => hcvt.2 ((rat_eq_zero x).mpr h)⟩
  case integers =>
    intro f m v hm
    have h := roundInt_exact f hm v 0 false
    rw [zpow_zero, mul_one] at h
    exact ⟨fun hv => h.1 (Int.cast_ne_zero.mpr hv), rfl⟩
  case tf8 =>
    intro f a x y hx hy
    exact cvtTf8_rounded hx hy
  case toIntegers =>
    intro f m a x lo hi _ hx _
    exact cvtI_rounded hx lo hi

/-! ### The instructions (R106, R108 to R115) -/

/-- An encoding means what its low bits mean (R94). -/
theorem val_mod (f : Fmt) (x : Nat) : f.val (x % 2 ^ f.width) = f.val x := by
  simp only [Fmt.val, Nat.mod_mod]

/-- A floating-point instruction of two sources raises the flags of its operation and writes the result (R106, R108). -/
def FloatRow2 (r : (Reg → Reg → Reg → Bool → Bool → Instr) × (Nat → Nat → Nat → FRes)) : Prop :=
  ∀ (s : State) (d a b : Reg) (t u : Bool) (x : FRes), s.issues ⟨[(a, t), (b, u)], [], [d], []⟩ = true →
    x = r.2 (s.self.fmode.toNat % 4) ((s.val a).toNat % 2 ^ 32) ((s.val b).toNat % 2 ^ 32) →
    exec (r.1 d a b t u) s = .next ((s.setSelf { s.self with fflags := s.self.fflags ||| BitVec.ofNat 64 x.flags }).retire
      (r.1 d a b t u) ⟨[(a, t), (b, u)], [], [d], []⟩ d (BitVec.ofNat 64 x.bits))

/-- A fused instruction does, with its old destination as the addend (R110). -/
def FloatRow3 (r : (Reg → Reg → Reg → Bool → Bool → Instr) × (Nat → Nat → Nat → Nat → FRes)) : Prop :=
  ∀ (s : State) (d a b : Reg) (t u : Bool) (x : FRes), s.issues ⟨[(d, false), (a, t), (b, u)], [], [d], []⟩ = true →
    x = r.2 (s.self.fmode.toNat % 4) ((s.val a).toNat % 2 ^ 32) ((s.val b).toNat % 2 ^ 32) ((s.val d).toNat % 2 ^ 32) →
    exec (r.1 d a b t u) s = .next ((s.setSelf { s.self with fflags := s.self.fflags ||| BitVec.ofNat 64 x.flags }).retire
      (r.1 d a b t u) ⟨[(d, false), (a, t), (b, u)], [], [d], []⟩ d (BitVec.ofNat 64 x.bits))

/-- An instruction of one source does (R109, R112, R113, R115). -/
def FloatRow1 (r : (Reg → Reg → Bool → Instr) × (Nat → Word → FRes)) : Prop :=
  ∀ (s : State) (d a : Reg) (t : Bool) (x : FRes), s.issues ⟨[(a, t)], [], [d], []⟩ = true → x = r.2 (s.self.fmode.toNat % 4) (s.val a) →
    exec (r.1 d a t) s = .next ((s.setSelf { s.self with fflags := s.self.fflags ||| BitVec.ofNat 64 x.flags }).retire
      (r.1 d a t) ⟨[(a, t)], [], [d], []⟩ d (BitVec.ofNat 64 x.bits))

theorem floatRow2_of_run {i : Reg → Reg → Reg → Bool → Bool → Instr} {op : Nat → Nat → Nat → FRes}
    (hx : ∀ d a b t u s, exec (i d a b t u) s = .next (s.runF2 (i d a b t u) d a b t u (op s.rm)) := by intros; rfl) : FloatRow2 (i, op) := by
  rintro s d a b t u x h rfl
  rw [hx, State.runF2, State.issue_go h]
  rfl

theorem floatRow3_of_run {i : Reg → Reg → Reg → Bool → Bool → Instr} {op : Nat → Nat → Nat → Nat → FRes}
    (hx : ∀ d a b t u s, exec (i d a b t u) s = .next (s.runF3 (i d a b t u) d a b t u (op s.rm)) := by intros; rfl) : FloatRow3 (i, op) := by
  rintro s d a b t u x h rfl
  rw [hx, State.runF3, State.issue_go h]
  rfl

theorem floatRow1_of_run {i : Reg → Reg → Bool → Instr} {op : Nat → Nat → FRes}
    (hx : ∀ d a t s, exec (i d a t) s = .next (s.runF1 (i d a t) d a t (op s.rm)) := by intros; rfl) :
    FloatRow1 (i, fun m w => op m (w.toNat % 2 ^ 32)) := by
  rintro s d a t x h rfl
  rw [hx, State.runF1, State.issue_go h]
  rfl

theorem runCvt_issued {s : State} {d a : Reg} {t : Bool} (h : s.issues ⟨[(a, t)], [], [d], []⟩ = true) (i : Instr) (g : Word → Word × Nat) :
    s.runCvt i d a t g = (s.setSelf { s.self with fflags := s.self.fflags ||| BitVec.ofNat 64 (g (s.val a)).2 }).retire i ⟨[(a, t)], [], [d], []⟩ d (g (s.val a)).1 := by
  rw [State.runCvt, State.issue_go h]
  rfl

theorem floatRow1_of_cvt {i : Reg → Reg → Bool → Instr} {op : Nat → Word → FRes} (g : Nat → Word → Word × Nat) (hg : ∀ m w, g m w = (op m w).pair)
    (hx : ∀ d a t s, exec (i d a t) s = .next (s.runCvt (i d a t) d a t (g s.rm)) := by intros; rfl) : FloatRow1 (i, op) := by
  rintro s d a t x h rfl
  rw [hx, runCvt_issued h, hg]
  rfl

theorem cvtF_low (f g : Fmt) (m : Nat) (w : Word) : (cvtF f g m w.toNat).pair = (cvtF f g m (w.toNat % 2 ^ f.width)).pair := by rw [cvtF, cvtF, val_mod]

theorem cvtTf8_low (w : Word) : (cvtTf8 .f32 w.toNat).pair = (cvtTf8 .f32 (w.toNat % 2 ^ Fmt.width .f32)).pair := by rw [cvtTf8, cvtTf8, val_mod]

/-- `fcvt.i64.f32` writes the integer and raises the flags of the conversion (R107, R115). -/
theorem fcvtI64F32_row (s : State) (d a : Reg) (t : Bool) (x : Int × Nat) (h : s.issues ⟨[(a, t)], [], [d], []⟩ = true)
    (hx : x = cvtI .f32 (s.self.fmode.toNat % 4) (-2 ^ 63) (2 ^ 63 - 1) ((s.val a).toNat % 2 ^ 32)) :
    exec (.fcvtI64F32 d a t) s = .next ((s.setSelf { s.self with fflags := s.self.fflags ||| BitVec.ofNat 64 x.2 }).retire
      (.fcvtI64F32 d a t) ⟨[(a, t)], [], [d], []⟩ d (BitVec.ofInt 64 x.1)) := by
  have hval : cvtI64 s.rm (s.val a).toNat = (BitVec.ofInt 64 x.1, x.2) := by
    have hmod := val_mod .f32 (s.val a).toNat
    rw [hx, cvtI64, cvtI, cvtI, ← hmod]
    rfl
  have hrun : exec (.fcvtI64F32 d a t) s = .next (s.runCvt (.fcvtI64F32 d a t) d a t fun w => cvtI64 s.rm w.toNat) := rfl
  rw [hrun, runCvt_issued h, hval]

/-! ### Special inputs (R97) -/

/-- An operation of two inputs settles its special inputs in the order of R97, and finds nothing invalid where an input is a quiet NaN. -/
def Settles (f : Fmt) (op : Nat → Nat → FRes) : Prop :=
  ∀ a b, ∃ xs inv k, op a b = settle f xs inv k ∧ (∀ v ∈ [FVal.poison, .snan, .qnan], v ∈ xs ↔ f.val a = v ∨ f.val b = v)
    ∧ (f.val a = .qnan ∨ f.val b = .qnan → inv = false)

theorem settle_eq (f : Fmt) (xs : List FVal) (inv : Bool) (k : FRes) : settle f xs inv k =
    if .poison ∈ xs then ⟨f.poison, 32⟩ else if .snan ∈ xs then ⟨f.nan, 1⟩ else if inv then ⟨f.nan, 1⟩ else if .qnan ∈ xs then ⟨f.nan, 0⟩ else k := by
  simp only [settle, List.any_beq']
  simp [poisonRes, invalidRes, quietRes, flPoison, flInvalid]

theorem opp_eq_iff {v w : FVal} (hw : w ∈ [FVal.poison, .snan, .qnan]) : v.opp = w ↔ v = w := by
  simp only [List.mem_cons, List.not_mem_nil, or_false] at hw
  rcases hw with rfl | rfl | rfl <;> cases v <;> simp [FVal.opp]

theorem Settles.specials {f : Fmt} {op : Nat → Nat → FRes} (h : Settles f op) (a b : Nat) :
    ((f.val a = .poison ∨ f.val b = .poison) → op a b = ⟨f.poison, 32⟩)
      ∧ (f.val a ≠ .poison → f.val b ≠ .poison → (f.val a = .snan ∨ f.val b = .snan) → op a b = ⟨f.nan, 1⟩)
      ∧ (f.val a = .qnan → (f.val b = .qnan ∨ ∃ n, f.val b = .num n) → op a b = ⟨f.nan, 0⟩)
      ∧ (f.val b = .qnan → (∃ n, f.val a = .num n) → op a b = ⟨f.nan, 0⟩) := by
  obtain ⟨xs, inv, k, hop, hmem, hinv⟩ := h a b
  simp only [List.mem_cons, List.not_mem_nil, or_false, forall_eq_or_imp, forall_eq] at hmem
  obtain ⟨hp, hs, hq⟩ := hmem
  rw [hop, settle_eq]
  simp only [hp, hs, hq]
  refine ⟨fun h => if_pos h, fun ha hb h => ?_, fun ha hb => ?_, fun hb ha => ?_⟩
  · rw [if_neg (by simp [ha, hb]), if_pos h]
  · rw [hinv (.inl ha)]
    rcases hb with hb | ⟨n, hb⟩ <;> simp [ha, hb]
  · obtain ⟨n, ha⟩ := ha
    simp [hinv (.inr hb), ha, hb]

theorem fpAddV_settles (f : Fmt) (m : Nat) (g : FVal → FVal) (hg : ∀ v, ∀ w ∈ [FVal.poison, .snan, .qnan], g v = w ↔ v = w) :
    Settles f fun a b => fpAddV f m (f.val a) (g (f.val b)) := by
  intro a b
  refine ⟨_, _, _, rfl, fun v hv => ?_, ?_⟩
  · simp only [List.mem_cons, List.not_mem_nil, or_false, eq_comm (a := v), hg _ v hv]
  · rintro (h | h)
    · rw [h]
    · rw [(hg _ .qnan (by simp)).mpr h]; cases f.val a <;> rfl

theorem fpFmaV_settles (f : Fmt) (m : Nat) (g : FVal → FVal) (hg : ∀ v, ∀ w ∈ [FVal.poison, .snan, .qnan], g v = w ↔ v = w) :
    Settles f fun a b => fpFmaV f m (f.val a) (f.val b) (g (f.val b)) := by
  intro a b
  refine ⟨_, _, _, rfl, fun v hv => ?_, ?_⟩
  · simp only [List.mem_cons, List.not_mem_nil, or_false, eq_comm (a := v), hg _ v hv, or_self]
  · rintro (h | h)
    · rw [h]; cases f.val b <;> rfl
    · rw [h]; cases f.val a <;> rfl

theorem fpMul_settles (f : Fmt) (m : Nat) : Settles f (fpMul f m) := by
  intro a b
  refine ⟨_, _, _, rfl, fun v hv => ?_, ?_⟩
  · simp only [List.mem_cons, List.not_mem_nil, or_false, eq_comm (a := v)]
  · rintro (h | h)
    · rw [h]; cases f.val b <;> rfl
    · rw [h]; cases f.val a <;> rfl

theorem fpDiv_settles (f : Fmt) (m : Nat) : Settles f (fpDiv f m) := by
  intro a b
  refine ⟨_, _, _, rfl, fun v hv => ?_, ?_⟩
  · simp only [List.mem_cons, List.not_mem_nil, or_false, eq_comm (a := v)]
  · rintro (h | h)
    · rw [h]
    · rw [h]; cases f.val a <;> rfl

/-- Every operation of R109 and R110 settles its special inputs as R97 says. -/
theorem arithmetic_settles (f : Fmt) (m : Nat) :
    ∀ op ∈ [fpAdd f m, fpSub f m, fpMul f m, fpDiv f m, fun a b => fpFma f m a b b, fun a b => fpFms f m a b b], Settles f op :=
  List.forall_iff_forall_mem.mp ⟨fpAddV_settles f m id fun _ _ _ => Iff.rfl, fpAddV_settles f m FVal.opp fun _ _ => opp_eq_iff,
    fpMul_settles f m, fpDiv_settles f m, fpFmaV_settles f m id fun _ _ _ => Iff.rfl, fpFmaV_settles f m FVal.opp fun _ _ => opp_eq_iff⟩

/-! ### Infinities and zeros (R104, R109, R110) -/

section Infinities
variable {f : Fmt} {m a b c : Nat} {p q : Bool} {x y : Machine.Num}

theorem inf_inf (ha : f.val a = .inf p) (hb : f.val b = .inf q) :
    fpAdd f m a b = (if p = q then ⟨f.inf p, 0⟩ else ⟨f.nan, 1⟩) ∧ fpSub f m a b = (if p = q then ⟨f.nan, 1⟩ else ⟨f.inf p, 0⟩)
      ∧ fpMul f m a b = ⟨f.inf (p != q), 0⟩ ∧ fpDiv f m a b = ⟨f.nan, 1⟩ := by
  simp only [fpAdd, fpSub, fpMul, fpDiv, ha, hb]
  cases p <;> cases q <;> exact ⟨rfl, rfl, rfl, rfl⟩

theorem inf_num (ha : f.val a = .inf p) (hb : f.val b = .num y) :
    fpAdd f m a b = ⟨f.inf p, 0⟩ ∧ fpSub f m a b = ⟨f.inf p, 0⟩ ∧ fpDiv f m a b = ⟨f.inf (p != y.neg), 0⟩
      ∧ fpMul f m a b = (if y.m = 0 then ⟨f.nan, 1⟩ else ⟨f.inf (p != y.neg), 0⟩) := by
  simp only [fpAdd, fpSub, fpMul, fpDiv, ha, hb]
  refine ⟨rfl, rfl, rfl, ?_⟩
  simp [mulV, settle_eq]

theorem fused_inf_zero (ha : f.val a = .inf p) (hb : f.val b = .num y) (hp : f.val c ≠ .poison) (hs : f.val c ≠ .snan) (hy : y.m = 0) :
    fpFma f m a b c = ⟨f.nan, 1⟩ ∧ fpFms f m a b c = ⟨f.nan, 1⟩ := by
  have hopp {v : FVal} (hv : v ∈ [FVal.poison, .snan, .qnan]) (h : f.val c ≠ v) : (f.val c).opp ≠ v := mt (opp_eq_iff hv).mp h
  have h1 := hopp (by simp) hp
  have h2 := hopp (by simp) hs
  simp only [fpFma, fpFms, fpFmaV, ha, hb, mulV, settle_eq, hy]
  simp [hp.symm, hs.symm, h1.symm, h2.symm]

theorem num_inf (ha : f.val a = .num x) (hb : f.val b = .inf q) :
    fpAdd f m a b = ⟨f.inf q, 0⟩ ∧ fpSub f m a b = ⟨f.inf (!q), 0⟩ ∧ fpDiv f m a b = ⟨f.zero (x.neg != q), 0⟩
      ∧ fpMul f m a b = (if x.m = 0 then ⟨f.nan, 1⟩ else ⟨f.inf (x.neg != q), 0⟩) := by
  simp only [fpAdd, fpSub, fpMul, fpDiv, ha, hb]
  refine ⟨rfl, rfl, rfl, ?_⟩
  simp [mulV, settle_eq]

theorem fpDiv_by_zero (ha : f.val a = .num x) (hb : f.val b = .num y) (hy : y.m = 0) :
    fpDiv f m a b = if x.m = 0 then ⟨f.nan, 1⟩ else ⟨f.inf (x.neg != y.neg), 2⟩ := by
  simp [fpDiv, ha, hb, settle_eq, hy, flDivZero]

theorem fpSqrt_inf (ha : f.val a = .inf p) : fpSqrt f m a = if p then ⟨f.nan, 1⟩ else ⟨f.inf false, 0⟩ := by
  rw [fpSqrt, ha]; cases p <;> rfl

theorem fpSqrt_zero_or_negative (ha : f.val a = .num x) :
    (x.m = 0 → fpSqrt f m a = ⟨f.zero x.neg, 0⟩) ∧ (x.m ≠ 0 → x.neg = true → fpSqrt f m a = ⟨f.nan, 1⟩) := by
  constructor
  · intro h; simp [fpSqrt, ha, settle_eq, h]
  · intro h hn; simp [fpSqrt, ha, settle_eq, h, hn]

end Infinities

/-! ### Order of the numbers (R111, R114) -/

theorem mag_nonneg (f : Fmt) (i : Nat) : 0 ≤ mag f i := by rw [mag]; positivity

theorem num_neg {f : Fmt} {a : Nat} {x : Machine.Num} (hx : f.val a = .num x) : x.neg = bitAt (a % 2 ^ f.width) (f.ew + f.fw) := by
  obtain ⟨-, rfl⟩ := val_num_iff.mp hx; rfl

theorem fpBelow_eq {f : Fmt} {a b : Nat} {x y : Machine.Num} (hx : f.val a = .num x) (hy : f.val b = .num y) : fpBelow f a b =
    if x.neg then (if y.neg then decide (b % f.signBit < a % f.signBit) else true) else if y.neg then false else decide (a % f.signBit < b % f.signBit) := by
  simp only [fpBelow, ← num_neg hx, ← num_neg hy, width_mod_signBit]
  cases x.neg <;> cases y.neg <;> rfl

/-- The order of the values is that of the encodings. -/
theorem fpBelow_of_lt {f : Fmt} {a b : Nat} {x y : Machine.Num} (hx : f.val a = .num x) (hy : f.val b = .num y) (h : x.rat < y.rat) : fpBelow f a b = true := by
  rw [rat_of_val hx, rat_of_val hy] at h
  have ha := mag_nonneg f (a % f.signBit)
  have hb := mag_nonneg f (b % f.signBit)
  rw [fpBelow_eq hx hy]
  cases hxn : x.neg <;> cases hyn : y.neg <;> simp only [hxn, hyn, if_true, Bool.false_eq_true, if_false, decide_eq_true_eq] at h ⊢
  · exact (mag_strictMono f).lt_iff_lt.mp h
  · linarith
  · exact (mag_strictMono f).lt_iff_lt.mp (neg_lt_neg_iff.mp h)

theorem lt_eq_decide (x y : Machine.Num) : x.lt y = decide (x.rat < y.rat) := by
  rw [Machine.Num.lt, ← at_mul x (min_le_left x.e y.e), ← at_mul y (min_le_right x.e y.e)]
  simp [mul_lt_mul_iff_left₀ (show (0 : Rat) < 2 ^ min x.e y.e by positivity)]

theorem eqv_eq_decide (x y : Machine.Num) : x.eqv y = decide (x.rat = y.rat) := by
  rw [Machine.Num.eqv, ← at_mul x (min_le_left x.e y.e), ← at_mul y (min_le_right x.e y.e)]
  simp [mul_left_inj' (show (2 : Rat) ^ min x.e y.e ≠ 0 by positivity)]

section Numbers
variable {f : Fmt} {a b : Nat} {x y : Machine.Num} (hx : f.val a = .num x) (hy : f.val b = .num y)
include hx hy

theorem fpMinMax_num (ha : a < 2 ^ f.width) (hb : b < 2 ^ f.width) (mx : Bool) : fpMinMax f mx a b = ⟨if fpBelow f a b != mx then a else b, 0⟩ := by
  have hbits : (if fpBelow f a b != mx then a else b) % 2 ^ f.width = if fpBelow f a b != mx then a else b := by
    split
    · exact Nat.mod_eq_of_lt ha
    · exact Nat.mod_eq_of_lt hb
  rw [← hbits]
  simp [fpMinMax, hx, hy]

/-- The lesser and the greater of two numbers of different values (R111). -/
theorem fpMinMax_of_lt (ha : a < 2 ^ f.width) (hb : b < 2 ^ f.width) (h : x.rat < y.rat) : fpMinMax f false a b = ⟨a, 0⟩ ∧ fpMinMax f true a b = ⟨b, 0⟩ := by
  simp [fpMinMax_num hx hy ha hb, fpBelow_of_lt hx hy h]

/-- −0 is below +0 (R111). -/
theorem fpMinMax_signs (ha : a < 2 ^ f.width) (hb : b < 2 ^ f.width) (hn : x.neg = true) (hp : y.neg = false) :
    fpMinMax f false a b = ⟨a, 0⟩ ∧ fpMinMax f false b a = ⟨a, 0⟩ ∧ fpMinMax f true a b = ⟨b, 0⟩ ∧ fpMinMax f true b a = ⟨b, 0⟩ := by
  simp [fpMinMax_num hx hy ha hb, fpMinMax_num hy hx hb ha, fpBelow_eq hx hy, fpBelow_eq hy hx, hn, hp]

/-- The relations of two numbers are those of their values (R114). -/
theorem fpCmp_num : fpCmp f .eq a b = ⟨if x.rat = y.rat then 1 else 0, 0⟩ ∧ fpCmp f .lt a b = ⟨if x.rat < y.rat then 1 else 0, 0⟩
    ∧ fpCmp f .le a b = ⟨if x.rat ≤ y.rat then 1 else 0, 0⟩ := by
  have hle : (decide (x.rat < y.rat) || decide (x.rat = y.rat)) = decide (x.rat ≤ y.rat) := by simp [le_iff_lt_or_eq]
  have hnat (p : Prop) [Decidable p] : (decide p).toNat = if p then 1 else 0 := by split <;> simp [*]
  simp [fpCmp, hx, hy, fpLtEq, lt_eq_decide, eqv_eq_decide, hle, hnat]

end Numbers

theorem poison_minMax_cmp {f : Fmt} {a b : Nat} (mx : Bool) (h : f.val a = .poison ∨ f.val b = .poison) :
    fpMinMax f mx a b = ⟨f.poison, 32⟩ ∧ ∀ r, fpCmp f r a b = ⟨0, 32⟩ := by
  have hor : (f.val a == .poison || f.val b == .poison) = true := by simpa using h
  simp [fpMinMax, fpCmp, hor, poisonRes, flPoison]

/-- A NaN beside a number (R111, R112, R114). -/
theorem nan_with_num {f : Fmt} {a b : Nat} (mx : Bool) (hb : b < 2 ^ f.width) (h : f.val a = .snan ∨ f.val a = .qnan) {y : Machine.Num} (hy : f.val b = .num y)
    {x : Nat} (hx : x = if f.val a = .snan then 1 else 0) :
    fpMinMax f mx a b = ⟨b, x⟩ ∧ fpMinMax f mx b a = ⟨b, x⟩ ∧ fpCmp f .eq a b = ⟨0, x⟩ ∧ fpCmp f .lt a b = ⟨0, 1⟩ ∧ fpCmp f .le b a = ⟨0, 1⟩
      ∧ fpNeg f a = ⟨f.nan, x⟩ ∧ fpAbs f a = ⟨f.nan, x⟩ := by
  have hmod := Nat.mod_eq_of_lt hb
  rcases h with h | h <;>
    simp [hx, fpMinMax, fpCmp, fpNeg, fpAbs, fpSign, h, hy, hmod, flInvalid, invalidRes, quietRes]

/-! ### Signs and classes (R112, R113) -/

theorem width_eq (f : Fmt) : f.width = f.ew + f.fw + 1 := by rw [Fmt.width]; omega

/-- The bits of a number from its highest bit, of index n, and its rest. -/
theorem testBit_top {n r s k : Nat} (hr : r < 2 ^ n) (hs : s < 2) : (2 ^ n * s + r).testBit k = if k = n then decide (s = 1) else if k < n then r.testBit k else false := by
  rw [Nat.testBit_two_pow_mul_add _ hr]
  rcases Nat.lt_trichotomy k n with h | rfl | h
  · simp [h, h.ne]
  · interval_cases s <;> simp
  · have hs0 : s.testBit (k - n) = false := Nat.testBit_lt_two_pow (hs.trans_le (Nat.le_self_pow (by omega) 2))
    rw [if_neg h.not_gt, if_neg h.ne', if_neg h.not_gt, hs0]

/-- `fneg` inverts the sign bit of a number and `fabs` clears it, and no other bit changes (R112). -/
theorem fpSign_num {f : Fmt} {a : Nat} {x : Machine.Num} (ha : a < 2 ^ f.width) (hx : f.val a = .num x) :
    (fpNeg f a).flags = 0 ∧ (∀ k, (fpNeg f a).bits.testBit k = if k + 1 = f.width then !a.testBit k else a.testBit k)
      ∧ (fpAbs f a).flags = 0 ∧ ∀ k, (fpAbs f a).bits.testBit k = if k + 1 = f.width then false else a.testBit k := by
  have hneg : fpNeg f a = ⟨if a < f.signBit then a + f.signBit else a - f.signBit, 0⟩ := by rw [fpNeg, fpSign, hx, Nat.mod_eq_of_lt ha]
  have habs : fpAbs f a = ⟨a % f.signBit, 0⟩ := by rw [fpAbs, fpSign, hx, Nat.mod_eq_of_lt ha]
  rw [hneg, habs, width_eq]
  rw [width_eq, pow_succ] at ha
  rw [Fmt.signBit]
  generalize f.ew + f.fw = n at *
  obtain ⟨s, r, hs, hr, rfl⟩ : ∃ s r, s < 2 ∧ r < 2 ^ n ∧ a = 2 ^ n * s + r :=
    ⟨a / 2 ^ n, a % 2 ^ n, (Nat.div_lt_iff_lt_mul (by positivity)).mpr (by omega), Nat.mod_lt _ (by positivity), (Nat.div_add_mod a _).symm⟩
  have hflip : (if 2 ^ n * s + r < 2 ^ n then 2 ^ n * s + r + 2 ^ n else 2 ^ n * s + r - 2 ^ n) = 2 ^ n * (1 - s) + r := by
    interval_cases s <;> split <;> omega
  have hclear : (2 ^ n * s + r) % 2 ^ n = 2 ^ n * 0 + r := by rw [Nat.mul_add_mod, Nat.mod_eq_of_lt hr]; omega
  rw [hflip, hclear]
  refine ⟨rfl, fun k => ?_, rfl, fun k => ?_⟩
  · rw [testBit_top hr hs, testBit_top hr (show 1 - s < 2 by omega)]
    by_cases hk : k = n
    · subst hk; interval_cases s <;> simp
    · simp [hk]
  · rw [testBit_top hr hs, testBit_top hr two_pos]
    by_cases hk : k = n <;> simp [hk]

theorem fpClass_num {f : Fmt} {a : Nat} {x : Machine.Num} (hx : f.val a = .num x) : fpClass f a
    = if x.m = 0 then (if x.neg then 8 else 16) else if x.m < 2 ^ f.fw then (if x.neg then 4 else 32) else if x.neg then 2 else 64 := by
  obtain ⟨neg, m, e⟩ := x
  rw [fpClass, hx]
  cases m with
  | zero => cases neg <;> rfl
  | succ m =>
    by_cases hm : m + 1 < 2 ^ f.fw
    · cases neg <;> simp [hm, not_le.mpr hm]
    · cases neg <;> simp [hm, not_lt.mp hm]

/-! ### O25 -/

/-- Settles O25: each row runs its operation, and each operation settles its special inputs before it rounds. -/
theorem floatInstructions : Obligations.FloatInstructions := by
  refine ⟨⟨List.forall_iff_forall_mem.mp ?rows2, List.forall_iff_forall_mem.mp ?rows3, List.forall_iff_forall_mem.mp ?rows1,
    fun s d a t x h hx => fcvtI64F32_row s d a t x h hx⟩, ?nans, ?infinities, ?order, ?conversions⟩
  case rows2 =>
    exact ⟨floatRow2_of_run, floatRow2_of_run, floatRow2_of_run, floatRow2_of_run, floatRow2_of_run, floatRow2_of_run, floatRow2_of_run,
      floatRow2_of_run, floatRow2_of_run⟩
  case rows3 => exact ⟨floatRow3_of_run, floatRow3_of_run⟩
  case rows1 =>
    exact ⟨
      floatRow1_of_run (op := fpSqrt .f32),
      floatRow1_of_run (op := fun _ => fpNeg .f32),
      floatRow1_of_run (op := fun _ => fpAbs .f32),
      floatRow1_of_run (op := fun _ x => ⟨fpClass .f32 x, 0⟩),
      floatRow1_of_cvt _ (fun _ _ => rfl),
      floatRow1_of_cvt _ (cvtF_low .f16 .f32),
      floatRow1_of_cvt _ (cvtF_low .f32 .f16),
      floatRow1_of_cvt _ (cvtF_low .bf16 .f32),
      floatRow1_of_cvt _ (cvtF_low .f32 .bf16),
      floatRow1_of_cvt (fun _ w => (BitVec.ofNat 64 (wideTf8 .f32 (w.toNat % 256)), 0)) (fun _ _ => rfl),
      floatRow1_of_cvt (fun _ w => (cvtTf8 .f32 w.toNat).pair) (fun _ => cvtTf8_low)⟩
  case nans => exact fun f m op hop a b => (arithmetic_settles f m op hop).specials a b
  case infinities =>
    intro f m a b c p q x y
    refine ⟨inf_inf, fun ha hb => ?_, num_inf, fpDiv_by_zero, fpSqrt_inf, fpSqrt_zero_or_negative⟩
    obtain ⟨hadd, hsub, hdiv, hmul⟩ := inf_num ha hb
    exact ⟨hadd, hsub, hdiv, hmul, fused_inf_zero ha hb⟩
  case order =>
    intro f a b mx ha hb
    refine ⟨poison_minMax_cmp mx, fun x y hx hy => ?_, fun h y hy x hx => nan_with_num mx hb h hy hx, ?_, ?_, ?_, ?_, ?_⟩
    · obtain ⟨heq, hlt, hle⟩ := fpCmp_num hx hy
      exact ⟨fpMinMax_of_lt hx hy ha hb, fun _ => fpMinMax_signs hx hy ha hb, heq, hlt, hle, fun _ => fpSign_num ha hx, fpClass_num hx⟩
    · intro h; simp [fpClass, fpNeg, fpAbs, fpSign, h, poisonRes, flPoison]
    all_goals intro h; rw [fpClass, h]
  case conversions =>
    intro f g m a
    refine ⟨fun h => ?_, fun h => ?_, fun h => ?_, fun p h => ?_, rfl⟩
    case refine_4 =>
      rw [cvtF, cvtTf8, h]
      exact ⟨rfl, by cases p <;> rfl, fun lo hi => by rw [cvtI, h]; rfl⟩
    all_goals
      rw [cvtF, cvtTf8, h]
      exact ⟨rfl, rfl, fun lo hi => by rw [cvtI, h]; rfl⟩

end Sys2Proof.NumberProofs
end

section

/-! SUPPORT and THEOREMS. Parallel execution (R116 to R176): what reading ports leaves, the reset state, chains and injected errors, and the theorems that settle O59 and O18. -/

namespace Sys2Proof.ParallelProofs
open Sys2Proof.Machine Sys2Proof.ScalarProofs

/-! ### Reading the ports of the running context leaves the rest of the machine (R62) -/

theorem pop_frame (s : State) (r : Nat) : ∃ q c, s.pop r = { s with queues := q, chains := c } := by
  unfold State.pop
  split
  · exact ⟨_, _, rfl⟩
  · split <;> exact ⟨_, _, rfl⟩

theorem popAll_frame (s : State) (l : List (Reg × Bool)) : ∃ q c, s.popAll l = { s with queues := q, chains := c } := by
  induction l generalizing s with
  | nil => exact ⟨_, _, rfl⟩
  | cons r l ih =>
    obtain ⟨q, c, h⟩ := pop_frame s r.1.val
    obtain ⟨q', c', h'⟩ := ih (s.pop r.1.val)
    exact ⟨q', c', h'.trans (by rw [h])⟩

@[simp] theorem popAll_cur (s : State) (l : List (Reg × Bool)) : (s.popAll l).cur = s.cur := by obtain ⟨_, _, h⟩ := popAll_frame s l; rw [h]
@[simp] theorem popAll_ctxs (s : State) (l : List (Reg × Bool)) : (s.popAll l).ctxs = s.ctxs := by obtain ⟨_, _, h⟩ := popAll_frame s l; rw [h]
@[simp] theorem popAll_ctx (s : State) (l : List (Reg × Bool)) (k : Nat) : (s.popAll l).ctx k = s.ctx k := by obtain ⟨_, _, h⟩ := popAll_frame s l; rw [h]; rfl
@[simp] theorem popAll_me (s : State) (l : List (Reg × Bool)) : (s.popAll l).me = s.me := by obtain ⟨_, _, h⟩ := popAll_frame s l; rw [h]; rfl
@[simp] theorem popAll_self (s : State) (l : List (Reg × Bool)) : (s.popAll l).self = s.self := by obtain ⟨_, _, h⟩ := popAll_frame s l; rw [h]; rfl

/-! ### O59: the reset state (R117, R124, R125, R482) -/

/-- A counter that nothing has set has no owner, and counts from 1 if it is the launch counter of a tile core (R124, R125). -/
theorem ctrDefault_reset (k : Nat) : (ctrDefault k).owner = none ∧ (ctrDefault k).count = if k % 64 = 63 ∧ k / 64 < 256 then 1 else 0 := by
  unfold ctrDefault
  split <;> exact ⟨rfl, rfl⟩

/-- Settles O59: every table of the reset state is empty, so each read gives the table's default; the boot is the only event that may go. -/
theorem resetState : Obligations.ResetState :=
  ⟨rfl, rfl, rfl, rfl, rfl, rfl, rfl, rfl, rfl, fun _ => rfl, fun _ => rfl, fun _ => ⟨rfl, rfl⟩, fun k => ctrDefault_reset k, fun _ => rfl, rfl⟩
/-! ### O18: chains (R149, R357) -/

/-- The queue of a link is emptied when the context has the link (R357). -/
def dropLink (s : State) (core ctx : Nat) (x : Ctx) : State := if hasDn x then s.setUpQ (ctxKey (dnCore core x) ctx) [] else s

theorem chainSet_eq (s : State) (core ctx : Nat) (w : Word) : s.chainSet core ctx w =
    dropLink (dropLink ((s.setCtx (ctxKey core ctx) { s.ctx (ctxKey core ctx) with chain := w }).setUpQ (ctxKey core ctx) []) core ctx (s.ctx (ctxKey core ctx)))
      core ctx { s.ctx (ctxKey core ctx) with chain := w } := rfl

theorem dropLink_frame (s : State) (core ctx : Nat) (x : Ctx) : dropLink s core ctx x = { s with chains := (dropLink s core ctx x).chains } := by
  unfold dropLink
  split <;> rfl

@[simp] theorem dropLink_ctxs (s : State) (core ctx : Nat) (x : Ctx) : (dropLink s core ctx x).ctxs = s.ctxs := by rw [dropLink_frame]

/-- Emptying the queue of a link fills no queue. -/
theorem dropLink_keeps_empty {s : State} {j : Nat} (core ctx : Nat) (x : Ctx) (h : s.upQ j = []) : (dropLink s core ctx x).upQ j = [] := by
  unfold dropLink
  split
  · by_cases hj : j = ctxKey (dnCore core x) ctx
    · subst hj; exact smGet_smPut_self _ _ _ _
    · exact (smGet_smPut_ne _ _ _ _ _ hj).trans h
  · exact h

theorem dropLink_empties (s : State) (core ctx : Nat) {x : Ctx} (h : hasDn x = true) : (dropLink s core ctx x).upQ (ctxKey (dnCore core x) ctx) = [] := by
  rw [dropLink, if_pos h]; exact smGet_smPut_self _ _ _ _

/-- What configuring a chain leaves (R357). -/
theorem chainSet_spec (s : State) (core ctx : Nat) (w : Word) (u : State) (hu : u = s.chainSet core ctx w) :
    u = { s with ctxs := u.ctxs, chains := u.chains } ∧ u.ctxs = (s.setCtx (ctxKey core ctx) { s.ctx (ctxKey core ctx) with chain := w }).ctxs
      ∧ u.upQ (ctxKey core ctx) = [] ∧ (hasDn (s.ctx (ctxKey core ctx)) = true → u.upQ (ctxKey (dnCore core (s.ctx (ctxKey core ctx))) ctx) = [])
      ∧ (hasDn { s.ctx (ctxKey core ctx) with chain := w } = true → u.upQ (ctxKey (dnCore core { s.ctx (ctxKey core ctx) with chain := w }) ctx) = []) := by
  rw [chainSet_eq] at hu
  subst hu
  refine ⟨?_, ?_, ?_, fun h => dropLink_keeps_empty _ _ _ (dropLink_empties _ _ _ h), fun h => dropLink_empties _ _ _ h⟩
  · rw [dropLink_frame, dropLink_frame]; rfl
  · simp
  · exact dropLink_keeps_empty _ _ _ (dropLink_keeps_empty _ _ _ (smGet_smPut_self _ _ _ _))

/-- Beyond user mode the fate of a write of `chain` is that of its value (R357). -/
theorem srFate_chain {s : State} (h : s.self.priv ≠ .user) (i : Instr) : s.srFate i 42 true = none := by
  simp [State.srFate, h, srExists, srReadOnly]

theorem wrsr_chain {s : State} {a : Reg} {t : Bool} (hi : s.issues ⟨[(a, t)], [], [], []⟩ = true) (hp : s.self.priv ≠ .user) :
    exec (.wrsr a t 42) s = .next (if s.chainBad s.cur.1 (s.self.ctxsel.toNat % 16) (s.val a).toNat then s.trap 0x01 0x0D (illegalValue (.wrsr a t 42)).val
      else ((s.popAll [(a, t)]).chainSet s.cur.1 (s.self.ctxsel.toNat % 16) (s.val a)).finish (.wrsr a t 42)) := by
  have hbad : s.srBad (42 : Fin 1024).val (s.val a).toNat = s.chainBad s.cur.1 (s.self.ctxsel.toNat % 16) (s.val a).toNat := rfl
  have hwrite (u : State) : u.srWrite (42 : Fin 1024).val (s.val a) = u.chainSet u.cur.1 (u.self.ctxsel.toNat % 16) (s.val a) := rfl
  show execWrsr a t 42 s = _
  rw [execWrsr]
  simp only [srFate_chain hp (.wrsr a t 42), show (42 : Fin 1024).val = 42 from rfl] at hbad hwrite ⊢
  rw [hbad, hwrite]
  cases s.chainBad s.cur.1 (s.self.ctxsel.toNat % 16) (s.val a).toNat with
  | true => rw [State.issueVal_bad hi, if_pos rfl]
  | false => rw [State.issueVal_go hi, popAll_cur, popAll_self]; rfl

/-! ### O18: injected errors (R409, R410) -/

theorem ofBytes_toBytes (x n : Nat) : ofBytes (toBytes x n) = x % 256 ^ n := by
  induction n generalizing x with
  | zero => simp [toBytes, ofBytes, Nat.mod_one]
  | succ n ih =>
    rw [toBytes, ofBytes, ih, Nat.pow_succ', Nat.mod_mul, BitVec.toNat_ofNat]

/-- The place that the fields of `einj` name (R409). -/
def einjPlace (vault w : Nat) : Place :=
  ⟨vault, bits w 55 52, bits w 51 50, bits w 49 48, bits w 47 33, bits w 32 28 * 32 + bits w 27 27 * 16⟩

theorem inject_eq (s : State) {vault w la : Nat} (hla : la = s.placeAddr (einjPlace vault w)) : s.inject vault w = { s with
    mem := Memory.write s.mem la (toBytes (s.rawSector la ^^^ 2 ^ bits w 26 20 ^^^ 2 ^ bits w 19 13) 16)
    ecc := smPut 0 s.ecc (la / 16) (s.checkOf la + eccStuck + 1) } := by
  have hdie : bits w 55 48 / 16 = bits w 55 52 := by simp only [bits]; omega
  have hgroup : bits w 55 48 / 4 % 4 = bits w 51 50 := by simp only [bits]; omega
  have hbank : bits w 55 48 % 4 = bits w 49 48 := by simp only [bits]; omega
  rw [State.inject, hla]
  simp only [hdie, hgroup, hbank]
  rfl

/-- A write with go inverts the two data bits and keeps the value without go (R409, R410). -/
theorem writeEinj_of_go {s : State} {vault la : Nat} {w : Word} (h : w.getLsbD 0 = true) (hla : la = s.placeAddr (einjPlace vault w.toNat)) :
    s.writeEinj vault w = { s with
      einj := smPut 0 s.einj vault (w &&& 0xFFFFFFFFFFFFFFFE)
      mem := Memory.write s.mem la (toBytes (s.rawSector la ^^^ 2 ^ bits w.toNat 26 20 ^^^ 2 ^ bits w.toNat 19 13) 16)
      ecc := smPut 0 s.ecc (la / 16) (s.checkOf la + eccStuck + 1) } := by
  have hgo : bitAt w.toNat 0 = true := (bitAt_eq_testBit _ _).trans h
  exact (if_pos hgo).trans (inject_eq _ hla)

theorem writeEinj_without_go {s : State} (vault : Nat) {w : Word} (h : w.getLsbD 0 = false) :
    s.writeEinj vault w = { s with einj := smPut 0 s.einj vault w } := by
  have hgo : bitAt w.toNat 0 = false := (bitAt_eq_testBit _ _).trans h
  have hw : w &&& ~~~1#64 = w := BitVec.eq_of_getLsbD_eq fun i hi => by
    rw [BitVec.getLsbD_and, BitVec.getLsbD_not, BitVec.getLsbD_one]
    rcases Nat.eq_zero_or_pos i with rfl | hpos
    · rw [h]; rfl
    · simp [hi, hpos.ne']
  rw [State.writeEinj, if_neg (by simp [hgo]), hw]

theorem errorInjection_written {s : State} (hb : s.arg.b = 0) (hw : einjBad s.arg.w.toNat = false) :
    exec .errorInjection s = .next (s.writeEinj s.arg.a s.arg.w) := by
  show execErrorInjection s = _
  rw [execErrorInjection, if_neg (not_not.mpr hb), if_neg (by simp [hw])]

theorem errorInjection_bitError {s : State} (hb : s.arg.b ≠ 0) : exec .errorInjection s = .next (s.bitError s.arg) :=
  congrArg Host.Outcome.next (if_pos hb)

/-- Settles O18: a chain through what configuring one leaves, an injection through the sector that it writes. -/
theorem writesWithEffects : Obligations.WritesWithEffects := by
  refine ⟨fun s core ctx w u => ⟨?chain, ?event, ?wrsr⟩, ?kept, ?errors, ?injected⟩
  case chain =>
    intro hu
    obtain ⟨hf, hc, hk, hold, hnew⟩ := chainSet_spec s core ctx w u hu
    have hctx (k : Nat) : u.ctx k = (s.setCtx (ctxKey core ctx) { s.ctx (ctxKey core ctx) with chain := w }).ctx k := congrArg (smGet Ctx.free · k) hc
    have hself : u.ctx (ctxKey core ctx) = { s.ctx (ctxKey core ctx) with chain := w } := (hctx _).trans (State.ctx_setCtx_self s _ _)
    exact ⟨by rw [hself], hf, fun k hk => (hctx k).trans (State.ctx_setCtx_ne s _ k _ hk), hself, hk, hold, hnew⟩
  case event =>
    rintro rfl rfl rfl
    exact ⟨fun h => congrArg Host.Outcome.next (if_neg (by simp [h])), fun h => congrArg Host.Outcome.next (if_pos h)⟩
  case wrsr =>
    rintro a t hi hp rfl rfl rfl
    rw [wrsr_chain hi hp]
    exact ⟨fun h => by rw [if_neg (by simp [h])], fun h => by rw [if_pos h]; rfl⟩
  case kept =>
    intro s hb hw hgo
    rw [errorInjection_written hb hw, writeEinj_without_go _ hgo]
  case errors =>
    intro s
    refine ⟨fun hb => ?_, fun hb => ?_, fun hb ho => ?_⟩
    · rw [errorInjection_bitError (by omega), State.bitError, hb]; rfl
    · rw [errorInjection_bitError (by omega), State.bitError, hb]; rfl
    · rw [errorInjection_bitError (by omega), State.bitError, hb]
      exact congrArg Host.Outcome.next (if_pos ho)
  case injected =>
    intro s hb hw hgo p la hp hla
    rw [hp] at hla
    rw [Answers, errorInjection_written hb hw, writeEinj_of_go hgo hla]
    generalize s.rawSector la ^^^ 2 ^ bits s.arg.w.toNat 26 20 ^^^ 2 ^ bits s.arg.w.toNat 19 13 = d
    have hlen : (toBytes d 16).length = 16 := toBytes_length _ _
    have hread := Memory.read_write_self s.mem la (toBytes d 16)
    have hout (b : Nat) := Memory.byte_write_outside s.mem la b (toBytes d 16)
    have hpow : (2 : Nat) ^ 128 = 256 ^ 16 := by norm_num
    rw [hlen] at hread hout
    rw [hpow, ← ofBytes_toBytes]
    generalize Memory.write s.mem la (toBytes d 16) = m at hread hout
    exact ⟨_, rfl, rfl, hout, congrArg ofBytes hread, smGet_smPut_self _ _ _ _⟩

end Sys2Proof.ParallelProofs
end

section

/-! SUPPORT and THEOREMS. Trigger counters (R124 to R140, R369), and the theorems that settle O19 and O20. -/

namespace Sys2Proof.ParallelProofs
open Sys2Proof.Machine Sys2Proof.ScalarProofs

/-! ### Issue with several operand forms (R25, R61) -/

theorem issueVals_go {s : State} {u : Use} (h : s.issues u = true) (i : Instr) {forms : List (List Reg × Bool)} (hf : ∀ f ∈ forms, f.2 = false) (k : State) :
    s.issueVals i u forms k = k := by
  have h1 : forms.any (fun f => s.readable f.1 && f.2) = false := by
    rw [List.any_eq_false]; intro f hm; simp [hf f hm]
  have h2 : forms.any (·.2) = false := by
    rw [List.any_eq_false]; intro f hm; simp [hf f hm]
  rw [State.issueVals, h1, h2]
  exact State.issueWith_go h _

theorem issueVals_bad {s : State} {u : Use} (h : s.issues u = true) (i : Instr) {forms : List (List Reg × Bool)} (hf : forms.any (·.2) = true) (k : State) :
    s.issueVals i u forms k = s.trap 0x01 0x0D (illegalValue i).val := by
  rw [State.issueVals, hf]
  split
  · exact State.issueWith_early h _ _
  · exact State.issueWith_go h _

/-! ### O19: the counter instructions (R126 to R128, R140) -/

theorem ctrCond_outOfRange {s : State} {idx : Nat} (h : 64 ≤ idx) (i : Instr) (reads : Bool) : ctrCond s i idx reads = some (illegalValue i) := if_pos h

theorem ctrCond_denied {s : State} {idx : Nat} (h : idx < 64) (hu : s.self.priv = .user)
    (hd : isLaunchCtr (ctrKey s.cur.1 idx) = true ∨ (s.counter (ctrKey s.cur.1 idx)).owner ≠ some s.self.tenant) (i : Instr) (reads : Bool) :
    ctrCond s i idx reads = some ⟨0x07, 0, BitVec.ofNat 64 idx⟩ := by
  rw [ctrCond, if_neg (by omega), if_pos hu, if_pos (by simpa using hd)]

theorem ctrCond_launch {s : State} {idx : Nat} (h : idx < 64) (hu : s.self.priv ≠ .user) (hl : isLaunchCtr (ctrKey s.cur.1 idx) = true) (i : Instr) :
    ctrCond s i idx false = some (illegalValue i) := by
  rw [ctrCond, if_neg (by omega), if_neg hu, if_pos (by simp [hl])]

/-- A counter that the mode may touch passes the checks (R126). -/
theorem ctrCond_free {s : State} {idx : Nat} (h : idx < 64) {reads : Bool}
    (hu : s.self.priv = .user → (s.counter (ctrKey s.cur.1 idx)).owner = some s.self.tenant ∧ isLaunchCtr (ctrKey s.cur.1 idx) = false)
    (hl : reads = true ∨ isLaunchCtr (ctrKey s.cur.1 idx) = false) (i : Instr) : ctrCond s i idx reads = none := by
  rw [ctrCond, if_neg (by omega)]
  by_cases hp : s.self.priv = .user
  · rw [if_pos hp, if_neg (by simp [hu hp])]
  · rw [if_neg hp, if_neg (by rcases hl with hl | hl <;> simp [hl])]

section
variable {s : State} {u : Use} (h : s.issues u = true)
include h

theorem issueCtr_go {i : Instr} {idx : Nat} {reads : Bool} (hc : ctrCond s i idx reads = none) (a : Reg) {forms : List (List Reg × Bool)}
    (hf : ∀ f ∈ forms, f.2 = false) (k : State) : s.issueCtr i u a idx reads forms k = k := by
  rw [State.issueCtr, hc]
  exact issueVals_go h i (List.forall_mem_cons.mpr ⟨rfl, hf⟩) k

theorem issueCtr_badForm {i : Instr} {idx : Nat} {reads : Bool} (hc : ctrCond s i idx reads = none) (a : Reg) {forms : List (List Reg × Bool)}
    (hf : forms.any (·.2) = true) (k : State) : s.issueCtr i u a idx reads forms k = s.trap 0x01 0x0D (illegalValue i).val := by
  rw [State.issueCtr, hc]
  exact issueVals_bad h i (by simpa using hf) k

theorem issueCtr_illegal {i : Instr} {idx : Nat} {reads : Bool} (hc : ctrCond s i idx reads = some (illegalValue i)) (a : Reg) (forms : List (List Reg × Bool))
    (k : State) : s.issueCtr i u a idx reads forms k = s.trap 0x01 0x0D (illegalValue i).val := by
  rw [State.issueCtr, hc]
  exact issueVals_bad h i rfl _

theorem issueCtr_denied {i : Instr} {idx : Nat} {reads : Bool} {v : Word} (hc : ctrCond s i idx reads = some ⟨0x07, 0, v⟩) (a : Reg) (k : State) :
    s.issueCtr i u a idx reads [] k = s.trap 0x07 0 v := by
  rw [State.issueCtr, hc]
  exact issueVals_go h i (by simp) _

end

theorem read_append (m : List Host.Cell) (a n k : Nat) : Memory.read m a (n + k) = Memory.read m a n ++ Memory.read m (a + n) k := by
  induction n generalizing a with
  | zero => simp [Memory.read]
  | succ n ih =>
    rw [Nat.succ_add, Memory.read, ih, Memory.read, List.cons_append, Nat.add_right_comm, Nat.add_assoc]

theorem read_length (m : List Host.Cell) (a n : Nat) : (Memory.read m a n).length = n := by
  induction n generalizing a with
  | zero => rfl
  | succ n ih => simp [Memory.read, ih]

/-- Two fields of 8 bytes that stand behind each other. -/
theorem fieldAt_read (m : List Host.Cell) (a : Nat) : fieldAt (Memory.read m a 16) 0 8 = ofBytes (Memory.read m a 8)
    ∧ fieldAt (Memory.read m a 16) 8 8 = ofBytes (Memory.read m (a + 8) 8) := by
  have hsplit := read_append m a 8 8
  have h1 := read_length m a 8
  have h2 := read_length m (a + 8) 8
  constructor
  · rw [fieldAt, hsplit, List.drop_zero, List.take_left' h1]
  · rw [fieldAt, hsplit, List.drop_left' h1, List.take_of_length_le h2.le]

theorem ctrDescBad_of_rules {core d0 d1 : Nat} (h1 : bits d0 63 56 = 0) (h2 : d0 % 4 = 0) (h3 : bits d1 63 59 = 0) (h4 : bits d1 55 54 = 0)
    (h5 : bits d1 47 32 % 64 = 0) (h6 : bits d1 47 32 + 64 * (bits d1 53 48 + 1) ≤ (if core < 256 then 0xCE00 else 0xD000)) :
    ctrDescBad core d0 d1 = false := by
  simp [ctrDescBad, h1, h2, h3, h4, h5, h6]

/-- `ctr.set` with a descriptor in the local memory that meets the rules, on a counter that may be set (R126). -/
theorem ctrSet_loads {s : State} {a b : Reg} {t v : Bool} {o : Nat} (hi : s.issues ⟨[(a, t), (b, v)], [], [], []⟩ = true) (hidx : (s.val a).toNat < 64)
    (hh : s.self.home = none) (hb : (s.val b).toNat = localBase + o) (ho : o % 16 = 0) (hend : o + 16 ≤ 65536) (hl : isLaunchCtr (s.ctrOf a) = false)
    (hu : s.self.priv = .user → (s.counter (s.ctrOf a)).owner = some s.self.tenant) (hbad : smGet false s.bad (localKey s.cur.1 o / 16) = false)
    {d0 d1 : Nat} (h0 : d0 = ofBytes (Memory.read s.mem (localKey s.cur.1 o) 8)) (h1 : d1 = ofBytes (Memory.read s.mem (localKey s.cur.1 o + 8) 8))
    (hd : ctrDescBad s.cur.1 d0 d1 = false) (hact : ∀ x, s.self.act = some x → x.counter ≠ s.ctrOf a) (hrun : (s.counter (s.ctrOf a)).running = []) :
    exec (.ctrSet a b t v) s = .next (((s.popAll [(a, t), (b, v)]).setCounter (s.ctrOf a) ((s.counter (s.ctrOf a)).load d0 d1)).finish (.ctrSet a b t v)) := by
  have hlb : localBase = 0xF000000000000000 := rfl
  obtain ⟨hf0, hf1⟩ := fieldAt_read s.mem (localKey s.cur.1 o)
  have hsec : localKey s.cur.1 o % 16 + 16 ≤ 16 := by rw [localKey]; omega
  have hdie : s.dieRead (localKey s.cur.1 o) 16 = (Memory.read s.mem (localKey s.cur.1 o) 16, false) :=
    Prod.ext rfl ((dieRead_sector s (by decide) hsec).trans hbad)
  have hoff : (s.val b).toNat - localBase = o := by omega
  have hact' : s.self.act.any (fun x => x.counter == s.ctrOf a) = false := by
    cases hx : s.self.act with
    | none => rfl
    | some x => simpa using hact x hx
  have hctr : ctrKey s.cur.1 (s.val a).toNat = s.ctrOf a := rfl
  show execCtrSet a b t v s = _
  unfold execCtrSet
  simp only [hoff, hdie, hctr]
  rw [decide_eq_false (by omega), State.issueVal_go hi, if_neg (by simp [hh]), if_neg (by omega), if_neg (by omega), if_neg (by simpa [hl] using hu),
    if_neg (by simp [hl]), if_neg (by simp), hf0, hf1, ← h0, ← h1, if_neg (by simp [hd]), if_neg (by simp [hact']), if_neg (by simp [hrun])]

theorem word_eq (c : Counter) : c.word = BitVec.ofNat 64
    (c.count + c.reload * 2 ^ 16 + c.ring.length * 2 ^ 32 + c.pending.length * 2 ^ 40 + (if c.mask then 2 ^ 47 else 0) + c.prio * 2 ^ 48 + (c.cap - 1) * 2 ^ 50) := by
  rw [Counter.word]
  cases c.mask <;> rfl

/-- `trig` on a counter that the mode may touch: what the application of the decrement decides (R140). -/
theorem trig_applies {s : State} {a b : Reg} {t v : Bool} (hi : s.issues ⟨[(a, t), (b, v)], [], [], []⟩ = true) (hc : ctrCond s (.trig a b t v) (s.val a).toNat false = none)
    (hdec : (s.val b).toNat < 256) : exec (.trig a b t v) s = .next (
      if (s.applyCtr (s.ctrOf a) s.self.tenant s.self.job none (s.val b).toNat).1 = 1 then s.parkMe (.counterRoom (s.val a).toNat)
      else ((s.applyCtr (s.ctrOf a) s.self.tenant s.self.job none (s.val b).toNat).2.popAll [(a, t), (b, v)]).finish (.trig a b t v)) := by
  show execTrig a b t v s = _
  unfold execTrig
  simp only [issueCtr_go hi hc a (forms := [([b], decide (256 ≤ (s.val b).toNat))]) (by simpa using hdec)]
  obtain ⟨st, u⟩ := s.applyCtr (s.ctrOf a) s.self.tenant s.self.job none (s.val b).toNat
  by_cases hst : st = 1
  · subst hst; rfl
  · rw [if_neg hst]
    split
    next h => exact absurd (congrArg Prod.fst h) hst
    next h => rw [Prod.ext_iff] at h; rw [h.2]

/-- Settles O19: each instruction through the check of its counter's index, which is none, ILLEGAL or PROT. -/
theorem counters : Obligations.Counters := by
  refine ⟨⟨?set, ?readMask⟩, ?refused, ?trig⟩
  case set =>
    rintro s a b t v idx key d0 d1 o hi rfl hidx rfl hh hb ho hend hl hu hbad h0 h1 r1 r2 r3 r4 r5 r6 hact hrun
    exact ctrSet_loads hi hidx hh hb ho hend hl hu hbad h0 h1 (ctrDescBad_of_rules r1 r2 r3 r4 r5 r6) hact hrun
  case readMask =>
    rintro s d a t idx key c hd hs rfl hidx rfl rfl hu
    refine ⟨?_, fun hl => ⟨?_, ?_⟩⟩
    · rw [← word_eq]
      exact congrArg Host.Outcome.next (issueCtr_go hd (ctrCond_free hidx hu (.inl rfl) _) a (by simp) _)
    · exact congrArg Host.Outcome.next (issueCtr_go hs (ctrCond_free hidx hu (.inr hl) _) a (by simp) _)
    · exact congrArg Host.Outcome.next (issueCtr_go hs (ctrCond_free hidx hu (.inr hl) _) a (by simp) _)
  case refused =>
    rintro s d a t idx key hd hs rfl rfl
    refine ⟨fun hidx => ⟨?_, ?_, ?_⟩, fun hidx hu hden => ⟨?_, ?_, ?_⟩, fun hidx hu hl => ⟨?_, ?_⟩⟩
    · exact congrArg Host.Outcome.next (issueCtr_illegal hd (ctrCond_outOfRange hidx _ _) a _ _)
    · exact congrArg Host.Outcome.next (issueCtr_illegal hs (ctrCond_outOfRange hidx _ _) a _ _)
    · exact congrArg Host.Outcome.next (issueCtr_illegal hs (ctrCond_outOfRange hidx _ _) a _ _)
    · exact congrArg Host.Outcome.next (issueCtr_denied hd (ctrCond_denied hidx hu hden _ _) a _)
    · exact congrArg Host.Outcome.next (issueCtr_denied hs (ctrCond_denied hidx hu hden _ _) a _)
    · exact congrArg Host.Outcome.next (issueCtr_denied hs (ctrCond_denied hidx hu hden _ _) a _)
    · exact congrArg Host.Outcome.next (issueCtr_illegal hs (ctrCond_launch hidx hu hl _) a _ _)
    · exact congrArg Host.Outcome.next (issueCtr_illegal hs (ctrCond_launch hidx hu hl _) a _ _)
  case trig =>
    rintro s a b t v idx dec key hi rfl hidx rfl rfl hu hl
    have hc : ctrCond s (.trig a b t v) (s.val a).toNat false = none := ctrCond_free hidx (fun hp => ⟨hu hp, hl⟩) (.inr hl) _
    refine ⟨fun hdec hst => ?_, fun hdec hst => ?_, fun hdec => ?_⟩
    · exact (trig_applies hi hc hdec).trans (congrArg _ (if_neg hst))
    · exact (trig_applies hi hc hdec).trans (congrArg _ (if_pos hst))
    · exact congrArg Host.Outcome.next (issueCtr_badForm hi hc a (by simpa using hdec) _)

end Sys2Proof.ParallelProofs
end

section

/-! SUPPORT and THEOREMS. What a decrement does to a counter (R129), and the commands that claim and release counters and drop parcels (R329, R369): the theorem that settles O20. -/

namespace Sys2Proof.ParallelProofs
open Sys2Proof.Machine Sys2Proof.ScalarProofs

/-! ### A decrement at a counter (R129) -/

/-- The counter with the message's slot taken, when there is a message. -/
def withSlot (c : Counter) (msg : Option (List Word)) : Counter := { c with ring := c.ring ++ (if msg.isSome then [(0, false)] else []) }

/-- The state with the message in the slot behind the last one of the counter. -/
def storeMessage (s : State) (k : Nat) (c : Counter) : Option (List Word) → State
  | some ws => s.dieWrite (localKey (k / 64) (c.base + 64 * ((c.head + c.ring.length) % c.cap))) (ws.flatMap (fun (w : Word) => toBytes w.toNat 8))
  | none => s

/-- The activation that a decrement of at least the count makes. -/
def newActivation (c : Counter) (aid : Nat) (f : PendAct → PendAct) : PendAct := f
  { aid := aid, msgs := c.ring.length - c.owned, first := c.base + 64 * ((c.head + c.owned) % c.cap), entry := c.entry
    prio := c.prio, tenant := c.owner.getD 0, job := 0, launch := 0, group := 0, rect := 0, byLaunch := false, uid := 0 }

/-- The counter after a new activation: the count reloaded, the messages that nothing owned its own. -/
def activated (c : Counter) (aid : Nat) (f : PendAct → PendAct) : Counter :=
  { c with count := c.reload, pending := c.pending ++ [newActivation c aid f]
           ring := c.ring.map (fun (r : Nat × Bool) => if r.1 = 0 then (aid, r.2) else r) }

section
variable {s : State} {k dec : Nat} {msg : Option (List Word)} {f : PendAct → PendAct}

theorem applyTo_full (hm : msg.isSome = true) (hc : (s.counter k).cap ≤ (s.counter k).ring.length) : s.applyTo k msg dec f = (1, s) := by
  simp [State.applyTo, hm, hc]

theorem applyTo_limit (h1 : 1 ≤ dec) (h2 : (s.counter k).count ≤ dec) (h3 : (s.counter k).pending.length = 127) : s.applyTo k msg dec f = (1, s) := by
  simp [State.applyTo, h1, h2, h3]

/-- The parts of an application that nothing refuses. -/
theorem applyTo_taken (hm : msg.isSome = false ∨ (s.counter k).ring.length < (s.counter k).cap)
    (hp : dec = 0 ∨ dec < (s.counter k).count ∨ (s.counter k).pending.length ≠ 127) : s.applyTo k msg dec f =
      if dec = 0 then (0, (storeMessage s k (s.counter k) msg).setCounter k (withSlot (s.counter k) msg))
      else if dec < (withSlot (s.counter k) msg).count then
        (0, (storeMessage s k (s.counter k) msg).setCounter k { withSlot (s.counter k) msg with count := (withSlot (s.counter k) msg).count - dec })
      else (0, ({ storeMessage s k (s.counter k) msg with nid := (storeMessage s k (s.counter k) msg).nid + 1 } : State).setCounter k
        (activated (withSlot (s.counter k) msg) (storeMessage s k (s.counter k) msg).nid f)) := by
  have hroom : (msg.isSome && decide ((s.counter k).cap ≤ (s.counter k).ring.length)) = false := by
    rcases hm with hm | hm <;> simp [hm]
  have hlimit : (decide (1 ≤ dec) && decide ((s.counter k).count ≤ dec) && (s.counter k).pending.length == 127) = false := by
    rcases hp with hp | hp | hp <;> simp <;> omega
  have hcounter : (if msg.isSome = true then { s.counter k with ring := (s.counter k).ring ++ [(0, false)] } else s.counter k) = withSlot (s.counter k) msg := by
    cases msg with
    | none => simp [withSlot]
    | some ws => rfl
  rw [State.applyTo]
  simp only [hroom, hlimit, Bool.false_eq_true, if_false, hcounter]
  cases msg <;> rfl

end

@[simp] theorem counter_setCounter_self (s : State) (k : Nat) (c : Counter) : (s.setCounter k c).counter k = c := smGet_smPut_self _ _ _ _

theorem counter_setCounter_ne (s : State) {k j : Nat} (c : Counter) (h : j ≠ k) : (s.setCounter k c).counter j = s.counter j :=
  smGet_smPut_other _ _ _ _ _ _ h

theorem storeMessage_frame (s : State) (k : Nat) (c : Counter) (msg : Option (List Word)) : ∃ m b, storeMessage s k c msg = { s with mem := m, bad := b } := by
  cases msg with
  | none => exact ⟨_, _, rfl⟩
  | some ws => exact ⟨_, _, rfl⟩

theorem storeMessage_mem (s : State) (k : Nat) (c : Counter) (ws : List Word) : (storeMessage s k c (some ws)).mem =
    Memory.write s.mem (localKey (k / 64) (c.base + 64 * ((c.head + c.ring.length) % c.cap))) (ws.flatMap (fun (w : Word) => toBytes w.toNat 8)) := rfl

/-- The messages that no activation owns (R129). -/
theorem length_sub_owned (c : Counter) : c.ring.length - c.owned = (c.ring.filter (fun (r : Nat × Bool) => r.1 = 0)).length := by
  have h := List.length_eq_length_filter_add (l := c.ring) (fun r => decide (r.1 ≠ 0))
  have hn : (fun r : Nat × Bool => !decide (r.1 ≠ 0)) = fun r => decide (r.1 = 0) := by funext r; simp
  rw [hn] at h
  rw [Counter.owned]
  omega

/-- What a decrement that is taken leaves, below the count and at it (R129). -/
theorem applyTo_spec {s : State} {k dec : Nat} {msg : Option (List Word)} {f : PendAct → PendAct}
    (hm : msg.isSome = false ∨ (s.counter k).ring.length < (s.counter k).cap)
    (hp : dec = 0 ∨ dec < (s.counter k).count ∨ (s.counter k).pending.length ≠ 127) :
    ∃ u, s.applyTo k msg dec f = (0, u) ∧ u = { s with mem := u.mem, bad := u.bad, ctrs := u.ctrs, nid := u.nid } ∧ (∀ j, j ≠ k → u.counter j = s.counter j)
      ∧ u.mem = (storeMessage s k (s.counter k) msg).mem ∧ u.bad = (storeMessage s k (s.counter k) msg).bad
      ∧ ((dec = 0 ∨ dec < (s.counter k).count) → u.nid = s.nid ∧ u.counter k = { withSlot (s.counter k) msg with count := (s.counter k).count - dec })
      ∧ (dec ≠ 0 → (s.counter k).count ≤ dec → u.nid = s.nid + 1 ∧ u.counter k = activated (withSlot (s.counter k) msg) s.nid f) := by
  have hcount : (withSlot (s.counter k) msg).count = (s.counter k).count := rfl
  rw [applyTo_taken hm hp, hcount]
  obtain ⟨m, b, hst⟩ := storeMessage_frame s k (s.counter k) msg
  rw [hst]
  by_cases h0 : dec = 0
  · rw [if_pos h0]
    exact ⟨_, rfl, rfl, fun j hj => counter_setCounter_ne _ _ hj, rfl, rfl, fun _ => ⟨rfl, by rw [counter_setCounter_self, h0]; rfl⟩, fun h => absurd h0 h⟩
  · rw [if_neg h0]
    by_cases hlt : dec < (s.counter k).count
    · rw [if_pos hlt]
      exact ⟨_, rfl, rfl, fun j hj => counter_setCounter_ne _ _ hj, rfl, rfl, fun _ => ⟨rfl, counter_setCounter_self _ _ _⟩, fun _ h => by omega⟩
    · rw [if_neg hlt]
      exact ⟨_, rfl, rfl, fun j hj => counter_setCounter_ne _ _ hj, rfl, rfl, fun h => by omega, fun _ _ => ⟨rfl, counter_setCounter_self _ _ _⟩⟩

/-! ### Commands on counters and parcels (R329, R369) -/

theorem fwCmd_of_event {s : State} {core cmd : Nat} {e : StewEvent} (h : (s.core core).event = some e) (hf : e.fw = true) (hc : e.cmd = cmd) :
    s.fwCmd core cmd = some e := by
  simp [State.fwCmd, h, hf, hc]

theorem counterClaim_eq {s : State} {e : StewEvent} (h : s.fwCmd s.arg.a 7 = some e) : exec .counterClaim s = .next (
    if 320 ≤ e.word 1 ∨ 63 ≤ e.word 2 ∨ (s.counter (ctrKey (e.word 1) (e.word 2))).owner ≠ none then
      (s.groupResult .counterClaim e.src (ctrKey (e.word 1) (e.word 2)) 6).fwEnd s.arg.a
    else ((s.setCounter (ctrKey (e.word 1) (e.word 2)) { s.counter (ctrKey (e.word 1) (e.word 2)) with owner := some e.tenant }).groupResult .counterClaim e.src
      (ctrKey (e.word 1) (e.word 2)) 0).fwEnd s.arg.a) := by
  show execCounterClaim s = _
  rw [execCounterClaim]
  simp only [h, Option.isSome_iff_ne_none]

/-- A counter as COUNTER-RELEASE leaves it (R369). -/
def releasedCounter (c : Counter) : Counter :=
  if c.running.isEmpty then { c with mask := true, ring := [], pending := [], owner := none } else { c with mask := true, ring := [], pending := [], releasing := true }

theorem released_spec (c : Counter) : (releasedCounter c).mask = true ∧ (releasedCounter c).ring = [] ∧ (releasedCounter c).pending = [] ∧ (c.running = [] → (releasedCounter c).owner = none)
    ∧ (c.running ≠ [] → (releasedCounter c).owner = c.owner ∧ (releasedCounter c).releasing = true) := by
  unfold releasedCounter
  cases h : c.running <;> simp

theorem counterRelease_eq {s : State} {e : StewEvent} (h : s.fwCmd s.arg.a 8 = some e) : exec .counterRelease s = .next (
    if 320 ≤ e.word 1 ∨ 63 ≤ e.word 2 ∨ (s.counter (ctrKey (e.word 1) (e.word 2))).owner ≠ some e.tenant then s.fwEnd s.arg.a
    else (s.setCounter (ctrKey (e.word 1) (e.word 2)) (releasedCounter (s.counter (ctrKey (e.word 1) (e.word 2))))).fwEnd s.arg.a) := by
  show execCounterRelease s = _
  rw [execCounterRelease]
  simp only [h]
  rfl

theorem parcelDrop_none {s : State} {e : StewEvent} (h : s.fwCmd s.arg.a 9 = some e) (hl : ∀ l ∈ s.launches, l.tenant = e.tenant → l.lid ≠ e.word 1 % 2 ^ 32) :
    exec .parcelDrop s = .next (s.fwEnd s.arg.a) := by
  have hnone : (s.fwEnd s.arg.a).launches.find? (fun l => l.tenant == e.tenant && l.lid == e.word 1 % 2 ^ 32 && l.placed) = none := by
    rw [List.find?_eq_none]
    intro l hm
    have := hl l hm
    simp only [Bool.and_eq_true, beq_iff_eq]
    tauto
  show execParcelDrop s = _
  rw [execParcelDrop]
  simp only [h, hnone]

/-- A launch after its starved parcels of the pool are dropped (R329). -/
def dropPool (pool : List Nat) (l : Launch) : Launch :=
  { l with moved := l.moved.filter (fun m => !pool.contains m.2), done := l.done + pool.length, status := 6, starved := [] }

theorem parcelDrop_pool {s v : State} {e : StewEvent} {l : Launch} (h : s.fwCmd s.arg.a 9 = some e)
    (hl : s.launches.find? (fun l => l.tenant == e.tenant && l.lid == e.word 1 % 2 ^ 32 && l.placed) = some l) (hv : v = s.fwEnd s.arg.a)
    (hd : v.undealtStarved l = false) (hp : v.starvedPool l ≠ []) : exec .parcelDrop s = .next (v.mapLaunch l.id (dropPool (v.starvedPool l))) := by
  subst hv
  have hl' : (s.fwEnd s.arg.a).launches.find? (fun l => l.tenant == e.tenant && l.lid == e.word 1 % 2 ^ 32 && l.placed) = some l := hl
  show execParcelDrop s = _
  rw [execParcelDrop]
  simp only [h, hl', hd, Bool.false_eq_true, if_false, Nat.add_zero]
  rw [if_neg (by simpa using hp)]
  rfl

/-- Settles O20: refusals and applications by the cases of `applyTo`, the commands by what each does to the counter or the launch. -/
theorem counterUpdates : Obligations.CounterUpdates := by
  refine ⟨fun s k tenant job dec msg c hc => ?apply, fun s e c n k hev hfw hc hn hk => ⟨fun hcmd => ?claim, fun hcmd => ?release, fun hcmd => ?drop⟩⟩
  case apply =>
    subst hc
    have hdenied (h : (s.counter k).owner ≠ some tenant) : s.applyCtr k tenant job msg dec = (6, s) := if_pos h
    have htaken (h : (s.counter k).owner = some tenant) : s.applyCtr k tenant job msg dec = s.applyTo k msg dec (fun p => { p with job := job }) := if_neg (not_not.mpr h)
    refine ⟨hdenied, fun ho hm hfull => ?_, fun ho _ h1 h2 h3 => ?_, fun ho hm hp => ?_⟩
    · rw [htaken ho, applyTo_full hm hfull]
    · rw [htaken ho, applyTo_limit h1 h2 h3]
    · rw [htaken ho]
      obtain ⟨u, hu, hf, hj, hmem, hbad, hlow, hhigh⟩ := applyTo_spec (f := fun p => { p with job := job }) hm hp
      refine ⟨u, hu, hf, hj, ?_, ?_, hlow, fun h0 hle => ?_⟩
      · rintro rfl; exact ⟨hmem, hbad⟩
      · rintro ws rfl; exact hmem
      · obtain ⟨hnid, hctr⟩ := hhigh h0 hle
        rw [hctr]
        exact ⟨hnid, rfl, rfl, _, rfl, rfl, rfl, rfl, by show (s.counter k).owner.getD 0 = tenant; rw [ho]; rfl, rfl, length_sub_owned (withSlot (s.counter k) msg)⟩
  case claim =>
    subst hc hn hk
    have heq := counterClaim_eq (fwCmd_of_event hev hfw hcmd)
    exact ⟨fun h => heq.trans (congrArg _ (if_pos h)), fun h1 h2 h3 => heq.trans (congrArg _ (if_neg (not_or.mpr ⟨h1.not_ge, not_or.mpr ⟨h2.not_ge, not_not.mpr h3⟩⟩)))⟩
  case release =>
    subst hc hn hk
    have heq := counterRelease_eq (fwCmd_of_event hev hfw hcmd)
    refine ⟨fun h => heq.trans (congrArg _ (if_pos h)), fun h1 h2 h3 =>
      ⟨_, heq.trans (congrArg _ (if_neg (not_or.mpr ⟨h1.not_ge, not_or.mpr ⟨h2.not_ge, not_not.mpr h3⟩⟩))), ?_⟩⟩
    have hself (u : State) (x : Counter) : ((u.setCounter (ctrKey (e.word 1) (e.word 2)) x).fwEnd s.arg.a).counter (ctrKey (e.word 1) (e.word 2)) = x :=
      counter_setCounter_self u _ x
    obtain ⟨hmask, hring, hpend, hidle, hbusy⟩ := released_spec (s.counter (ctrKey (e.word 1) (e.word 2)))
    have hk : (e.words.getD 1 0).toNat * 64 + (e.words.getD 2 0).toNat = ctrKey (e.word 1) (e.word 2) := rfl
    beta_reduce
    rw [hk, hself]
    exact ⟨hmask, hring, hpend, hidle, fun h => ⟨(hbusy h).1.trans h3, (hbusy h).2⟩, fun j hj => counter_setCounter_ne _ _ hj⟩
  case drop =>
    subst hc
    have hcmd' := fwCmd_of_event hev hfw hcmd
    refine ⟨fun h => parcelDrop_none hcmd' h, fun l v hl hv hd hp => ⟨_, parcelDrop_pool hcmd' hl hv hd hp, by rw [hv]; rfl, ?_⟩⟩
    refine ⟨dropPool (v.starvedPool l) l, ?_, rfl, rfl, rfl, rfl, fun q hq => ?_⟩
    · have hmem : l ∈ v.launches := by rw [hv]; exact List.mem_of_find?_eq_some hl
      exact List.mem_map.mpr ⟨l, hmem, if_pos rfl⟩
    · simpa [dropPool] using hq

end Sys2Proof.ParallelProofs
end

section

/-! SUPPORT and THEOREMS. Packets on their way (R134 to R139, R418 to R420): headers, routes and delivery contexts, and the theorem that settles O21. -/

namespace Sys2Proof.ParallelProofs
open Sys2Proof.Machine Sys2Proof.ScalarProofs

/-! ### A later result leaves the rest of the machine (R9, R63) -/

theorem producer_frame (s : State) (d : Reg) : ∃ x q c r, (s.producer d).2 = { s with ctxs := x, queues := q, chains := c, reqs := r, nid := s.nid + 1 } := by
  obtain ⟨h, -⟩ := await_frame ({ s with nid := s.nid + 1 }.addReq (s.newReq s.nid .status (s.longDest d ⟨8, false⟩) 0 8 0)) d s.nid
  exact ⟨_, _, _, _, h.trans rfl⟩

@[simp] theorem producer_id (s : State) (d : Reg) : (s.producer d).1 = s.nid := rfl
@[simp] theorem producer_cube (s : State) (d : Reg) : (s.producer d).2.cube = s.cube := by obtain ⟨_, _, _, _, h⟩ := producer_frame s d; rw [h]
@[simp] theorem producer_core (s : State) (d : Reg) (c : Nat) : (s.producer d).2.core c = s.core c := by obtain ⟨_, _, _, _, h⟩ := producer_frame s d; rw [h]; rfl
@[simp] theorem producer_mem (s : State) (d : Reg) : (s.producer d).2.mem = s.mem := by obtain ⟨_, _, _, _, h⟩ := producer_frame s d; rw [h]

/-! ### Issue of an instruction with a header (R136, R137) -/

/-- With fixed sources alone and at most one destination no port is named twice. -/
theorem issues_fewer {s : State} {l l' : List (Reg × Bool)} {d : Reg} (h : s.issues ⟨[], l ++ l', [d], []⟩ = true) : s.issues ⟨[], l, [d], []⟩ = true := by
  obtain ⟨-, hfixed, hdst, -, -, hport⟩ := State.issues_parts h
  have hready (q : Reg × Bool) (hq : q ∈ l) : s.fixedReady q = true := hfixed q (List.mem_append_left _ hq)
  have hnoport (q : Reg × Bool) (hq : q ∈ l) : isPort q.1.val = false := by
    have := hready q hq
    simp only [State.fixedReady, Bool.and_eq_true, Bool.not_eq_true'] at this
    exact this.1
  have htwice (l : List Nat) (hl : ∀ r ∈ l, isPort r = false) : portTwice (l ++ [d.val]) = none := by
    induction l with
    | nil => simp [portTwice]
    | cons r l ih => simp [portTwice, hl r (List.mem_cons_self ..), ih fun r' h' => hl r' (List.mem_cons_of_mem _ h')]
  have htwice' := htwice (l.map (·.1.val)) fun r hr => by obtain ⟨q, hq, rfl⟩ := List.mem_map.mp hr; exact hnoport q hq
  have huse : s.self.home.isNone || !(⟨[], l, [d], []⟩ : Use).usesPort := by
    cases hh : s.self.home with
    | none => rfl
    | some m =>
      simp only [hh, Option.isSome_some, Bool.true_and, Use.usesPort, Use.sources, Use.dests, List.nil_append, List.append_nil, Bool.or_eq_false_iff,
        List.any_eq_false, Bool.not_eq_true, List.mem_append] at hport
      simp only [Option.isNone_some, Bool.false_or, Use.usesPort, Use.sources, Use.dests, List.nil_append, List.append_nil, Bool.not_eq_true',
        Bool.or_eq_false_iff, List.any_eq_false, Bool.not_eq_true]
      exact ⟨hnoport, hport.2⟩
  simp only [State.issues, Bool.and_eq_true, List.all_eq_true, Use.sources, Use.dests, List.nil_append, List.append_nil]
  exact ⟨⟨⟨⟨⟨by simp, hready⟩, hdst⟩, by simp⟩, by simpa using htwice'⟩, huse⟩

theorem readable_of_fixed {s : State} {a : Reg} {t : Bool} (h : s.fixedReady (a, t) = true) : isPort a.val = false ∧ s.readable [a] = true := by
  simp only [State.fixedReady, Bool.and_eq_true, Bool.not_eq_true'] at h
  obtain ⟨hp, hs⟩ := h
  have hcell := (State.srcReady_parts hs).2.2 hp
  exact ⟨hp, by simp [State.readable, hp, hcell.1]⟩

theorem issueHdr_go {s : State} {d a b : Reg} {t v : Bool} {i : Instr} {kind : PktKind}
    (h : s.issues ⟨[], [(a, t), (b, v)] ++ payload b (hdrWords (s.val a)), [d], []⟩ = true) (hc : hdrCond s i kind (s.val a) b = none)
    (hb : b.val + hdrWords (s.val a) - 1 ≤ 59) (k : State) : s.issueHdr i kind d a b t v k = k := by
  obtain ⟨-, hfixed, -⟩ := State.issues_parts h
  obtain ⟨hport, hread⟩ := readable_of_fixed (hfixed (a, t) (by simp))
  rw [State.issueHdr]
  simp only [hread, if_true, hc, hport, Option.isSome_none, Bool.false_eq_true, false_or, Bool.not_true, if_false]
  rw [if_neg (by omega), Use.waits_none (issues_fewer h)]
  exact State.issue_go h k

/-- What R137 to R139 ask of a header beyond the common rules. -/
def HdrOf (h : Word) : PktKind → Prop
  | .message => True
  | .spawn => hdrEnd h = 0
  | .fill => hdrWords h = 1 ∧ hdrDec h = 0 ∧ hdrIdx h ≠ 0 ∧ hdrIdx h < 60

theorem hdrCond_none {s : State} {h : Word} {b : Reg} {kind : PktKind} (h1 : bits h.toNat 63 54 = 0) (h2 : bits h.toNat 53 52 ≠ 2) (h3 : bits h.toNat 51 49 < 6)
    (h4 : hdrWords h ≤ 6) (h5 : b.val + hdrWords h - 1 ≤ 59) (h6 : bits h.toNat 53 52 = 3 → s.self.priv ≠ .user) (i : Instr) (hk : HdrOf h kind) :
    hdrCond s i kind h b = none := by
  have h2' : hdrClass h ≠ 2 := h2
  have h3' : ¬ 6 ≤ hdrFmt h := not_le.mpr h3
  have hclass : ¬ (hdrClass h = 3 ∧ s.self.priv = .user) := fun ⟨hc, hp⟩ => h6 hc hp
  unfold hdrCond
  cases kind with
  | message => simp [h1, h2', h3', h4.not_gt, h5.not_gt, hclass]
  | spawn =>
    have hk' : hdrEnd h = 0 := hk
    simp [h1, h2', h3', h4.not_gt, h5.not_gt, hclass, hk']
  | fill =>
    obtain ⟨hw, hd, hi, hlt⟩ := hk
    have h5' : ¬ 59 < b.val := by omega
    simp [h1, h2', h3', h5', hclass, hw, hd, hi, hlt.not_ge]

/-! ### Where a packet goes (R134) -/

/-- The packet as its source core sends it: to where the directory cache or its name says, a spawn to where it stands. -/
def deputed (s : State) (p : Packet) : Packet :=
  if p.kind = .spawn then p
  else if smGet 0 (s.core p.score).dir (dirKey p.tenant (hdrEnd p.hdr)) ≠ 0 then p.toEntry (smGet 0 (s.core p.score).dir (dirKey p.tenant (hdrEnd p.hdr)))
  else if isThreadEnd (hdrEnd p.hdr) then { p with cube := bits (hdrEnd p.hdr) 30 18, core := birthCore (hdrEnd p.hdr) }
  else { p with cube := s.cube, core := p.score }

theorem depute_eq (s : State) (p : Packet) : s.depute p = s.route (deputed s p) := rfl

theorem toEntry_frame (p : Packet) (e : Nat) : ∃ c k t, p.toEntry e = { p with cube := c, core := k, target := t } := by
  unfold Packet.toEntry
  split
  · exact ⟨_, _, _, rfl⟩
  · split <;> exact ⟨_, _, _, rfl⟩

/-- Leading a packet changes only where it goes. -/
theorem deputed_frame (s : State) (p : Packet) : ∃ c k t, deputed s p = { p with cube := c, core := k, target := t } := by
  unfold deputed
  split
  · exact ⟨_, _, _, rfl⟩
  · split
    · exact toEntry_frame p _
    · split <;> exact ⟨_, _, _, rfl⟩

theorem deputed_keeps (s : State) (p : Packet) : (deputed s p).kind = p.kind ∧ (deputed s p).req = p.req ∧ (deputed s p).hdr = p.hdr ∧ (deputed s p).src = p.src
    ∧ (deputed s p).tenant = p.tenant ∧ (deputed s p).job = p.job ∧ (deputed s p).scube = p.scube ∧ (deputed s p).score = p.score ∧ (deputed s p).words = p.words := by
  obtain ⟨_, _, _, h⟩ := deputed_frame s p
  rw [h]
  exact ⟨rfl, rfl, rfl, rfl, rfl, rfl, rfl, rfl, rfl⟩

theorem deputed_spawn (s : State) {p : Packet} (h : p.kind = .spawn) : deputed s p = p := if_pos h

/-- A name that the directory cache does not hold leads a packet itself (R134). -/
theorem deputed_by_name {s : State} {p : Packet} (hk : p.kind ≠ .spawn) (hd : smGet 0 (s.core p.score).dir (dirKey p.tenant (hdrEnd p.hdr)) = 0) :
    (isThreadEnd (hdrEnd p.hdr) = true → (deputed s p).cube = bits (hdrEnd p.hdr) 30 18 ∧ (deputed s p).core = birthCore (hdrEnd p.hdr))
      ∧ (isThreadEnd (hdrEnd p.hdr) = false → (deputed s p).cube = s.cube ∧ (deputed s p).core = p.score) := by
  rw [deputed, if_neg hk, if_neg (not_not.mpr hd)]
  refine ⟨fun h => ?_, fun h => ?_⟩
  · rw [if_pos h]; exact ⟨rfl, rfl⟩
  · rw [if_neg (by simp [h])]; exact ⟨rfl, rfl⟩

theorem isThreadEnd_hdrEnd (h : Word) : isThreadEnd (hdrEnd h) = h.getLsbD 31 := by
  rw [isThreadEnd, hdrEnd, bitAt_eq_testBit, Nat.testBit_mod_two_pow]
  simp [BitVec.getLsbD]

theorem hdrEnd_cube (h : Word) : bits (hdrEnd h) 30 18 = bits h.toNat 30 18 := by
  simp only [bits, hdrEnd]
  omega

/-- The packet leaves, and the destination awaits its status (R137). -/
theorem dispatchPacket_eq (s : State) (i : Instr) (d : Reg) (f : Nat → Packet) :
    s.dispatchPacket i d f = ((s.producer d).2.route (deputed (s.producer d).2 (f s.nid))).finish i := rfl

/-! ### Packets for another cube (R418, R420) -/

section
variable (s : State) (q mode : Nat) (op : Instr) (a : EvArg)

/-- A packet as it leaves: with its peer, class, number and time. -/
def outEv : Ev := ⟨op, { a with peer := some q, seq := some (mode, smGet 0 s.sendNo (pdcKey q mode), s.time) }⟩

/-- The state in which a packet waits for a context. -/
def sendWaits : State := { s with pdcWait := s.pdcWait ++ [(mode, ⟨op, { a with peer := some q }⟩)] }

/-- The state in which a packet has left, with the contexts l. -/
def sentOn (l : List Pdc) : State := { s with
  pdcs := l, outbox := outEv s q mode op a :: s.outbox, sendNo := smPut 0 s.sendNo (pdcKey q mode) (smGet 0 s.sendNo (pdcKey q mode) + 1) }

/-- A packet leaves with contexts of some list, or waits. -/
theorem sendTo_cases : s.sendTo q mode op a = sendWaits s q mode op a ∨ ∃ l, s.sendTo q mode op a = sentOn s q mode op a l := by
  unfold State.sendTo State.putPacket
  dsimp only
  split
  · exact .inl rfl
  · split
    · exact .inr ⟨_, rfl⟩
    · split
      · exact .inr ⟨_, rfl⟩
      · split
        · exact .inl rfl
        · exact .inr ⟨_, rfl⟩

theorem sendTo_frame : ∃ p o w n, s.sendTo q mode op a = { s with pdcs := p, outbox := o, pdcWait := w, sendNo := n } := by
  rcases sendTo_cases s q mode op a with h | ⟨l, h⟩ <;> exact ⟨_, _, _, _, h⟩

/-- A packet waits behind one for the same peer and class (R420). -/
theorem sendTo_behind (h : ∃ w ∈ s.pdcWait, w.1 = mode ∧ w.2.arg.peer = some q) : s.sendTo q mode op a = sendWaits s q mode op a := by
  have hany : s.pdcWait.any (fun p => p.1 == mode && p.2.arg.peer == some q) = true := by simpa using h
  rw [State.sendTo]
  simp only [hany, if_true]
  rfl

variable (hw : ∀ w ∈ s.pdcWait, w.1 ≠ mode ∨ w.2.arg.peer ≠ some q)
include hw

theorem sendTo_first : s.sendTo q mode op a = (s.putPacket q mode op a).getD (sendWaits s q mode op a) := by
  have hany : s.pdcWait.any (fun p => p.1 == mode && p.2.arg.peer == some q) = false := by
    rw [List.any_eq_false]
    intro w hm
    rcases hw w hm with h | h <;> simp [h]
  rw [State.sendTo]
  simp only [hany, Bool.false_eq_true, if_false]
  rfl

/-- On the peer's context of its class a packet leaves (R418). -/
theorem sendTo_on_context (h : s.pdcs.any (fun p => p.peer == q && p.mode == mode) = true) : s.sendTo q mode op a =
    sentOn s q mode op a (s.pdcs.map (fun (p : Pdc) => if p.peer = q ∧ p.mode = mode then p.load (smGet 0 s.sendNo (pdcKey q mode)) (outEv s q mode op a) s.time else p)) := by
  rw [sendTo_first s q mode op a hw, State.putPacket]
  simp only [h, if_true]
  rfl

/-- Without a context of its own, and with one to spare, a packet leaves on a new one (R418). -/
theorem sendTo_with_room (hlen : s.pdcs.length < 65536) : ∃ l, s.sendTo q mode op a = sentOn s q mode op a l := by
  cases h : s.pdcs.any (fun p => p.peer == q && p.mode == mode) with
  | true => exact ⟨_, sendTo_on_context s q mode op a hw h⟩
  | false =>
    have hlim : s.pdcs.length < pdcLimit := hlen
    rw [sendTo_first s q mode op a hw, State.putPacket]
    simp only [h, Bool.false_eq_true, if_false, hlim, if_true]
    exact ⟨_, rfl⟩

/-- With every context in use by unacknowledged packets a packet waits (R418). -/
theorem sendTo_full (h : ∀ p ∈ s.pdcs, p.peer ≠ q ∨ p.mode ≠ mode) (hlen : 65536 ≤ s.pdcs.length) (hs : ∀ p ∈ s.pdcs, p.sent ≠ []) :
    s.sendTo q mode op a = sendWaits s q mode op a := by
  have hany : s.pdcs.any (fun p => p.peer == q && p.mode == mode) = false := by
    rw [List.any_eq_false]
    intro p hm
    rcases h p hm with h | h <;> simp [h]
  have hlim : ¬ s.pdcs.length < pdcLimit := hlen.not_gt
  have hbusy : s.pdcs.filter (fun p => p.sent.isEmpty) = [] := by
    rw [List.filter_eq_nil_iff]
    intro p hm
    simpa using hs p hm
  rw [sendTo_first s q mode op a hw, State.putPacket]
  simp only [hany, Bool.false_eq_true, if_false, hlim, hbusy]
  rfl

end

theorem route_here {s : State} {p : Packet} (h : p.cube = s.cube) : s.route p = { s with nid := s.nid + 1, net := s.net ++ [{ p with id := s.nid }] } := if_pos h

/-- A packet for another cube changes the requests, the delivery contexts and the outbox at most. -/
theorem route_out {s : State} {p : Packet} (h : p.cube ≠ s.cube) : ∃ r c o w n, s.route p = { s with reqs := r, pdcs := c, outbox := o, pdcWait := w, sendNo := n } := by
  have hout : s.route p = State.sendTo (if p.scube = s.cube ∧ p.req ≠ 0 then
      { s with reqs := s.reqs.map (fun (r : Req) => if r.id = p.req then { r with pa := p.cube, remote := true, sent := true } else r) } else s)
      p.cube (hdrClass p.hdr) (match p.kind with | .fill => .fillArrival | _ => .messageArrival) { EvArg.zero with b := 2, pkt := some { p with id := s.nid } } := if_neg h
  rw [hout]
  split
  · obtain ⟨_, _, _, _, hf⟩ := sendTo_frame { s with reqs := s.reqs.map (fun (r : Req) => if r.id = p.req then { r with pa := p.cube, remote := true, sent := true } else r) } p.cube
      (hdrClass p.hdr) (match p.kind with | .fill => .fillArrival | _ => .messageArrival) { EvArg.zero with b := 2, pkt := some { p with id := s.nid } }
    exact ⟨_, _, _, _, _, hf⟩
  · obtain ⟨_, _, _, _, hf⟩ := sendTo_frame s p.cube (hdrClass p.hdr) (match p.kind with | .fill => .fillArrival | _ => .messageArrival) { EvArg.zero with b := 2, pkt := some { p with id := s.nid } }
    exact ⟨_, _, _, _, _, hf⟩

/-! ### O21 -/

theorem resolve_then_dispatch {s : State} {d a b : Reg} {t v : Bool} {va pa attr c la : Nat}
    (hi : s.issues ⟨[], [(a, t), (b, v)] ++ payload b (hdrWords (s.val a)), [d], []⟩ = true) (hc : hdrCond s (.spawn d a b t v) .spawn (s.val a) b = none)
    (hb : b.val + hdrWords (s.val a) - 1 ≤ 59) (hr : s.resolve (s.val b).toNat = .virt va pa attr) (hh : s.home pa = some (c, la)) :
    exec (.spawn d a b t v) s = .next (s.dispatchPacket (.spawn d a b t v) d (fun id =>
      { s.packet .spawn id (s.val a) (s.payloadWords b (s.val a) true) with cube := c, core := 256 + (s.place la).vault, target := hdrIdx (s.val a) + 1 })) := by
  show execSpawn d a b t v s = _
  rw [execSpawn]
  simp only [issueHdr_go hi hc hb, hr, hh, Option.getD_some]

/-- The first payload word of a spawn goes as it is (R138). -/
theorem payloadWords_raw (s : State) (b : Reg) (h : Word) : (s.payloadWords b h true).head? = some (s.val b) := by
  simp [State.payloadWords, upTo, hdrWords, List.range_succ_eq_map]

theorem payloadWords_narrow (s : State) (b : Reg) (h : Word) : s.payloadWords b h false =
    (List.range (hdrWords h)).map (fun j => BitVec.ofNat 64 (narrow (bits h.toNat 51 49) (s.val (Fin.ofNat 64 (b.val + j))))) := rfl

/-- Settles O21: the three instructions by the packet that leaves, then the route in the cube, then the delivery contexts. -/
theorem packets : Obligations.Packets := by
  refine ⟨?senders, ?route, ?fabric⟩
  case senders =>
    rintro s d a b t v h n rfl rfl hi hb hn h1 h2 h3 h4
    refine ⟨?send, fun hone hdec hidx hlt => ?fill, fun hend va pa attr c la hr hh => ?spawn⟩
    case send =>
      have hc := hdrCond_none (kind := .message) h1 h2 h3 hn hb h4 (.send d a b t v) trivial
      obtain ⟨hkind, hreq, hhdr, hsrc, hten, hjob, hcube, hcore, hwords⟩ := deputed_keeps (s.producer d).2 (s.packet .message s.nid (s.val a) (s.payloadWords b (s.val a) false))
      refine ⟨_, _, congrArg Host.Outcome.next (issueHdr_go hi hc hb _), rfl, hkind, hreq, hhdr, hsrc, hten, hjob, hcube, hcore, hwords, fun hd => ?_⟩
      obtain ⟨hthread, hlocal⟩ := deputed_by_name (s := (s.producer d).2) (p := s.packet .message s.nid (s.val a) (s.payloadWords b (s.val a) false))
        (by nofun) (by rw [producer_core]; exact hd)
      have hname : isThreadEnd (hdrEnd (s.val a)) = (s.val a).getLsbD 31 := isThreadEnd_hdrEnd _
      rw [← hname]
      refine ⟨fun h => ?_, fun h => ?_⟩
      · exact ⟨(hthread h).1.trans (hdrEnd_cube (s.val a)), (hthread h).2⟩
      · exact ⟨(hlocal h).1.trans (producer_cube s d), (hlocal h).2⟩
    case fill =>
      have hc := hdrCond_none (kind := .fill) h1 h2 h3 hn hb h4 (.fill d a b t v) ⟨hone, hdec, by show bits _ _ _ ≠ 0; omega, hlt⟩
      obtain ⟨hkind, hreq, hhdr, hsrc, hten, -, -, -, hwords⟩ := deputed_keeps (s.producer d).2 (s.packet .fill s.nid (s.val a) (s.payloadWords b (s.val a) false))
      refine ⟨_, _, congrArg Host.Outcome.next (issueHdr_go hi hc hb _), rfl, hkind, hreq, hhdr, hsrc, hten, hwords.trans ?_⟩
      have hlen : hdrWords (s.val a) = 1 := hone
      have hreg : Fin.ofNat 64 (b.val + 0) = b := Fin.ofNat_val_eq_self b
      show s.payloadWords b (s.val a) false = _
      rw [payloadWords_narrow, hlen, List.range_one, List.map_singleton, hreg]
    case spawn =>
      have hc := hdrCond_none (kind := .spawn) h1 h2 h3 hn hb h4 (.spawn d a b t v) hend
      have hx := resolve_then_dispatch hi hc hb hr hh
      rw [dispatchPacket_eq, deputed_spawn _ rfl] at hx
      exact ⟨_, _, hx, rfl, rfl, rfl, rfl, rfl, rfl, rfl, payloadWords_raw s b (s.val a)⟩
  case route =>
    intro s p
    refine ⟨route_here, fun h => ?_⟩
    obtain ⟨_, _, _, _, _, hr⟩ := route_out h
    rw [hr]
    exact ⟨rfl, rfl, rfl⟩
  case fabric =>
    rintro s q mode n op a e rfl rfl
    refine ⟨?_, fun hw => ⟨fun p hp hpeer hmode => ?_, fun hlen => ?_, sendTo_full s q mode op a hw⟩, sendTo_behind s q mode op a⟩
    · obtain ⟨_, _, _, _, hf⟩ := sendTo_frame s q mode op a
      rw [hf]
    · rw [sendTo_on_context s q mode op a hw (by simp [hp, hpeer, hmode]), hp, List.map_singleton, if_pos ⟨hpeer, hmode⟩]
      exact ⟨rfl, rfl, smGet_smPut_self _ _ _ _, _, rfl, rfl⟩
    · obtain ⟨l, hl⟩ := sendTo_with_room s q mode op a hw hlen
      rw [hl]; rfl

end Sys2Proof.ParallelProofs
end

section

/-! SUPPORT and THEOREMS. Messages and fills that arrive, and the words that are stored (R129, R130, R134, R139, R390): the theorem that settles O22. -/

namespace Sys2Proof.ParallelProofs
open Sys2Proof.Machine Sys2Proof.ScalarProofs

/-- The application of a decrement changes the counters, the memory behind a mailbox and the next identity at most. -/
theorem applyCtr_frame (s : State) (k tenant job : Nat) (msg : Option (List Word)) (dec : Nat) :
    ∃ m b c n, (s.applyCtr k tenant job msg dec).2 = { s with mem := m, bad := b, ctrs := c, nid := n } := by
  unfold State.applyCtr
  split
  · exact ⟨_, _, _, _, rfl⟩
  · by_cases hm : msg.isSome = false ∨ (s.counter k).ring.length < (s.counter k).cap
    · by_cases hp : dec = 0 ∨ dec < (s.counter k).count ∨ (s.counter k).pending.length ≠ 127
      · obtain ⟨u, hu, hf, -⟩ := applyTo_spec (f := fun p => { p with job := job }) hm hp
        rw [hu]
        exact ⟨_, _, _, _, hf⟩
      · rw [applyTo_limit (by omega) (by omega) (by omega)]
        exact ⟨_, _, _, _, rfl⟩
    · rw [not_or, Bool.not_eq_false, not_lt] at hm
      rw [applyTo_full hm.1 hm.2]
      exact ⟨_, _, _, _, rfl⟩

/-- A packet of this cube is settled by the answer to its sender's request (R134). -/
theorem settlePacket_here {s : State} {p : Packet} (h : p.scube = s.cube) (status : Nat) :
    s.settlePacket p status = { s with net := s.net.filter (fun (q : Packet) => q.id != p.id) }.answer p.req (BitVec.ofNat 64 status) := by
  have hf : s.net.filter (fun (q : Packet) => decide (q.id ≠ p.id)) = s.net.filter (fun (q : Packet) => q.id != p.id) :=
    congrArg (fun f => List.filter f s.net) (funext fun q => by by_cases hq : q.id = p.id <;> simp [hq])
  rw [State.settlePacket, hf]
  exact if_pos h

theorem mem_answer {s : State} {id : Nat} {v : Word} {q : Req} (h : q ∈ (s.answer id v).reqs) :
    q.id = id ∧ q.sampled = true ∧ q.data = toBytes v.toNat 8 ∨ q.id ≠ id ∧ q ∈ s.reqs := by
  obtain ⟨r, hr, rfl⟩ := List.mem_map.mp h
  by_cases hid : r.id = id
  · rw [if_pos hid]; exact .inl ⟨hid, rfl, rfl⟩
  · rw [if_neg hid]; exact .inr ⟨hid, hr⟩

/-! ### The words of a stored message (R130) -/

theorem takeD_length {α : Type} (d : α) (n : Nat) (l : List α) : (takeD d n l).length = n := by
  induction n generalizing l with
  | zero => rfl
  | succ n ih => cases l <;> simp [takeD, ih]

theorem takeD_getD {α : Type} (d : α) {n j : Nat} (l : List α) (h : j < n) : (takeD d n l).getD j d = l.getD j d := by
  induction n generalizing l j with
  | zero => omega
  | succ n ih =>
    cases l with
    | nil =>
      cases j with
      | zero => rfl
      | succ j => rw [takeD, List.getD_cons_succ, ih [] (by omega)]; simp
    | cons x l =>
      cases j with
      | zero => rfl
      | succ j => rw [takeD, List.getD_cons_succ, List.getD_cons_succ, ih l (by omega)]

/-- A message's payload, widened word by word (R130, R137). -/
def widened (p : Packet) : List Word := (List.range p.words.length).map (fun j => widen (bits p.hdr.toNat 51 49) (p.words.getD j 0).toNat)

theorem messageWords_eq {s : State} {p : Packet} (hf : p.firm = []) (hk : p.kind = .message) :
    s.messageWords p = BitVec.ofNat 64 (p.hdr.toNat / 2 ^ 32 * 2 ^ 32 + p.src) :: takeD 0 6 (widened p) ++ [BitVec.ofNat 64 s.time] := by
  have hspawn : ¬ p.kind = .spawn := by simp [hk]
  simp only [State.messageWords, hf, ne_eq, not_true_eq_false, if_false, hspawn, false_and]
  rfl

theorem widened_getD (p : Packet) (j : Nat) : (widened p).getD j 0 = if j < p.words.length then widen (bits p.hdr.toNat 51 49) (p.words.getD j 0).toNat else 0 := by
  rw [widened, List.getD_eq_getElem?_getD, List.getElem?_map]
  split
  next h => simp [h]
  next h => simp [not_lt.mp h]

/-! ### O22 -/

section
variable {s : State} {p : Packet}

/-- MESSAGE_ARRIVAL of a packet under way, with its checks in their order (R134, R390). -/
theorem messageArrival_found (hb : s.arg.b = 0) (hf : s.net.find? (fun q => q.id == s.arg.a) = some p) (hcore : p.core < 320) :
    (s.cancelled p.tenant p.job = true → exec .messageArrival s = .next (s.settlePacket p 4))
    ∧ (s.cancelled p.tenant p.job = false → s.fenceOver p.core = true → exec .messageArrival s = .next (s.settlePacket p 3))
    ∧ (s.cancelled p.tenant p.job = false → s.fenceOver p.core = false → (p.kind = .spawn ∨ isStewardEnd (hdrEnd p.hdr) = false) → p.target ≠ 0 → p.firm = [] →
      ∀ st u, s.applyCtr (ctrKey p.core (p.target - 1)) p.tenant p.job (some (s.messageWords p)) (hdrDec p.hdr) = (st, u) →
        exec .messageArrival s = .next (u.settlePacket p st)) := by
  have hnot : ¬ 320 ≤ p.core := hcore.not_ge
  refine ⟨fun hc => ?_, fun hc hfence => ?_, fun hc hfence hk ht hfirm st u hu => ?_⟩
  · show execMessageArrival s = _
    rw [execMessageArrival]
    simp only [hb, hf, hc, if_true]
  · show execMessageArrival s = _
    rw [execMessageArrival]
    simp only [hb, hf, hc, hnot, hfence, if_true, if_false, Bool.false_eq_true]
  · have hsteward : ¬ (p.kind ≠ .spawn ∧ isStewardEnd (hdrEnd p.hdr) = true) := by
      rcases hk with hk | hk <;> simp [hk]
    show execMessageArrival s = _
    rw [execMessageArrival]
    simp only [hb, hf, hc, hnot, hfence, hsteward, ht, hfirm, hu, if_true, if_false, Bool.false_eq_true, ne_eq, not_true_eq_false, not_false_eq_true, false_and]

/-- FILL_ARRIVAL of a packet for a thread of a core that nothing fences (R139). -/
theorem fillArrival_found (hb : s.arg.b = 0) (hf : s.net.find? (fun q => q.id == s.arg.a) = some p) (hcore : p.core < 320)
    (hc : s.cancelled p.tenant p.job = false) (hfence : s.fenceOver p.core = false) (ht : isThreadEnd (hdrEnd p.hdr) = true) (hs : isStewardEnd (hdrEnd p.hdr) = false) :
    exec .fillArrival s = .next ((s.applyFill p).2.settlePacket p (s.applyFill p).1) := by
  have hnot : ¬ 320 ≤ p.core := hcore.not_ge
  show execFillArrival s = _
  rw [execFillArrival]
  simp only [hb, hf, hc, hfence, hnot, ht, hs, if_false, Bool.not_true, Bool.or_self, Bool.false_eq_true]

theorem applyFill_resident {k : Nat} (h : s.residentNamed p.core (hdrEnd p.hdr) = some k) : s.applyFill p =
    if (s.ctx k).tenant ≠ p.tenant then (6, s)
    else if ((s.ctx k).cell (hdrIdx p.hdr)).st = .idle then (0, s.setCtx k ((s.ctx k).write (hdrIdx p.hdr) (widen (hdrFmt p.hdr) (p.words.getD 0 0).toNat)))
    else (5, s) := by
  rw [State.applyFill]
  simp only [h]

end

/-- Settles O22: each arrival by its checks in their order, the stored words by their place. -/
theorem messageArrivals : Obligations.MessageArrivals := by
  refine ⟨⟨?message, ?fill, fun s id v q => mem_answer⟩, ?words⟩
  case message =>
    intro s p hb hf hcube hcore hk
    obtain ⟨hcancelled, hfenced, happlied⟩ := messageArrival_found hb hf hcore
    refine ⟨fun hc => ?_, fun hc hfence => ?_, fun hc hfence hsp ht hfirm st u hu => ?_⟩
    · rw [hcancelled hc, settlePacket_here hcube]; rfl
    · rw [hfenced hc hfence, settlePacket_here hcube]; rfl
    · obtain ⟨_, _, _, _, hframe⟩ := applyCtr_frame s (ctrKey p.core (p.target - 1)) p.tenant p.job (some (s.messageWords p)) (bits p.hdr.toNat 45 38)
      have hcube' : p.scube = u.cube := by
        rw [hu] at hframe
        rw [show u = _ from hframe]
        exact hcube
      rw [happlied hc hfence hsp ht hfirm st u hu, settlePacket_here hcube']
  case fill =>
    rintro s p k r x hb hf hcube hcore hc hfence ht hs hres rfl rfl
    have harrival := fillArrival_found hb hf hcore hc hfence ht hs
    rw [applyFill_resident hres] at harrival
    refine ⟨fun hten hidle => ?_, fun hten hst => ?_, fun hten => ?_⟩
    · have hidle' : ((s.ctx k).cell (hdrIdx p.hdr)).st = .idle := hidle
      rw [if_neg (not_not.mpr hten), if_pos hidle'] at harrival
      exact harrival.trans (congrArg _ (settlePacket_here (s := s.setCtx k _) hcube 0))
    · have hst' : ((s.ctx k).cell (hdrIdx p.hdr)).st ≠ .idle := hst
      rw [if_neg (not_not.mpr hten), if_neg hst'] at harrival
      exact harrival.trans (congrArg _ (settlePacket_here hcube 5))
    · rw [if_pos hten] at harrival
      exact harrival.trans (congrArg _ (settlePacket_here hcube 6))
  case words =>
    rintro s p l hf hk hlen hsrc rfl
    have hword (j : Nat) (hj : j < 6) : (s.messageWords p).getD (j + 1) 0 = (widened p).getD j 0 := by
      rw [messageWords_eq hf hk, List.cons_append, List.getD_cons_succ, List.getD_append _ _ _ _ (by rwa [takeD_length]), takeD_getD _ _ hj]
    refine ⟨?_, ?_, fun j hj => ?_, fun j hj hlt => ?_, ?_⟩
    · rw [messageWords_eq hf hk]; simp [takeD_length]
    · rw [messageWords_eq hf hk, List.cons_append, List.getD_cons_zero, BitVec.toNat_ofNat]
      have := p.hdr.isLt
      omega
    · rw [hword j (by omega), widened_getD, if_pos hj]
    · rw [hword j hlt, widened_getD, if_neg hj.not_gt]
    · rw [messageWords_eq hf hk, List.cons_append, List.getD_cons_succ, List.getD_append_right _ _ _ _ (by rw [takeD_length]), takeD_length]; rfl

end Sys2Proof.ParallelProofs
end

section

/-! SUPPORT and THEOREMS. Threads that relocate and return, the directory, stubs and notices (R133 to R135, R225 to R229): the theorem that settles O23. -/

namespace Sys2Proof.ParallelProofs
open Sys2Proof.Machine Sys2Proof.ScalarProofs

/-! ### Relocation (R225 to R229) -/

theorem takeStub_frame (s : State) (core name cube dest : Nat) : ∃ c, s.takeStub core name cube dest = { s with cores := c } := by
  unfold State.takeStub
  dsimp only
  split <;> exact ⟨_, rfl⟩

/-- An accepted packet leaves the home context held (R226). -/
theorem departed_home {s : State} {uid k : Nat} (hk : s.departing uid = some k) (hh : (s.ctx k).home = none) (cube core : Nat) :
    ∃ c, s.departed uid cube core = { s.setCtx k { s.ctx k with park := some .away } with cores := c } := by
  obtain ⟨c, hc⟩ := takeStub_frame s (k / 16) (s.ctx k).name cube core
  rw [State.departed]
  simp only [hk, hh, Option.isSome_none, Bool.false_eq_true, if_false, hc]
  exact ⟨c, rfl⟩

/-- A refused packet lets its thread go on where it is (R227). -/
theorem stays_departing {s : State} {uid k : Nat} (hk : s.departing uid = some k) :
    ∃ t, s.stays uid = { s.setCtx k { s.ctx k with park := none, stay := true, memo := [] } with tenants := t } := by
  rw [State.stays]
  simp only [hk]
  exact ⟨_, rfl⟩

section
variable {s : State} {t : Stored}

theorem relocationArrival_taken {k : Nat} (h1 : s.arg.b ≠ 1) (h2 : s.arg.b ≠ 2) (hf : s.stored.find? (fun u => u.slot == 25 && !u.ret && u.ctx.uid == s.arg.a) = some t)
    (hk : s.departing s.arg.a = some k) (hroom : (s.inbox t.core).length < 16) (hc : s.cancelled t.ctx.tenant t.ctx.job = false) (hh : (s.ctx k).home = none) :
    ∃ c, exec .relocationArrival s = .next { s.setCtx k { s.ctx k with park := some .away } with
      cores := c, stored := s.stored.filter (fun (v : Stored) => v ≠ t) ++ [{ t with slot := 24 }] } := by
  obtain ⟨c, hd⟩ := departed_home (s := { s with stored := s.stored.filter (fun (v : Stored) => v ≠ t) ++ [{ t with slot := 24 }] }) hk hh s.cube t.core
  refine ⟨c, ?_⟩
  show execRelocationArrival s = _
  rw [execRelocationArrival]
  simp only [h1, h2, hf, hroom, hc, if_false, Bool.not_false, and_self, if_true, hd]
  rfl

theorem relocationArrival_refused (h1 : s.arg.b ≠ 1) (h2 : s.arg.b ≠ 2) (hf : s.stored.find? (fun u => u.slot == 25 && !u.ret && u.ctx.uid == s.arg.a) = some t)
    (hroom : 16 ≤ (s.inbox t.core).length) :
    exec .relocationArrival s = .next { s with stored := s.stored.filter (fun (v : Stored) => v ≠ t) ++ [{ t with slot := 27 }] } := by
  show execRelocationArrival s = _
  rw [execRelocationArrival]
  simp only [h1, h2, hf, hroom.not_gt, if_false, false_and]

theorem mothLoad_only {i : Nat} (hf : s.stored.find? (fun u => u.slot == 24 && u.ctx.uid == s.arg.a) = some t) (hfree : s.freeCtxs t.core = [i]) :
    exec .mothLoad s = .next (({ s with stored := s.stored.filter (fun (u : Stored) => u ≠ t) } : State).setCtx (ctxKey t.core i) { t.ctx with occ := true, issued := s.cycle }) := by
  show execMothLoad s = _
  rw [execMothLoad]
  simp only [hf, hfree]
  rfl

theorem mothReturn_found {k : Nat} (hb : s.arg.b = 0) (hk : s.heldHome s.arg.a = some k) (hf : s.stored.find? (fun u => u.slot == 25 && u.ret && u.ctx.uid == s.arg.a) = some t) :
    exec .mothReturn s = .next (({ s with stored := s.stored.filter (fun (v : Stored) => v ≠ t) } : State).landHome k t.ctx) := by
  show execMothReturn s = _
  rw [execMothReturn]
  simp only [hb, if_true, hk, hf]
  rfl

end

/-- A returned thread in its home context (R228). -/
def landed (h m : Ctx) (k : Nat) : Ctx :=
  { h with regs := m.regs, live := m.live, vlive := 0, pc := m.pc, fmode := m.fmode, fflags := m.fflags
           loops := m.loops, sig := m.sig, prio := m.prio, park := none, memo := [], stay := false
           tls := smPut Timeline.zero h.tls (tlClasses (k / 16)).1 (m.timeline (tlClasses (k / 16)).1), groups := m.groups, dying := h.dying || m.dying }

/-- A landed thread has what its packet brought, and keeps the identity of its home context. -/
theorem landed_spec {x h m : Ctx} {k : Nat} (hx : x = landed h m k) : (∀ r, x.cell r = m.cell r) ∧ x.pc = m.pc ∧ x.fflags = m.fflags ∧ x.live = m.live
    ∧ x.loops = m.loops ∧ x.sig = m.sig ∧ x.park = none ∧ x.uid = h.uid ∧ x.name = h.name ∧ x.tenant = h.tenant := by
  subst hx
  exact ⟨fun _ => rfl, rfl, rfl, rfl, rfl, rfl, rfl, rfl, rfl, rfl⟩

theorem landHome_untrapped (s : State) (k : Nat) {m : Ctx} (h : m.trapHome = none) : ∃ t, s.landHome k m = { s.setCtx k (landed (s.ctx k) m k) with tiles := t } := by
  rw [State.landHome]
  simp only [h]
  split <;> exact ⟨_, rfl⟩

/-! ### The directory, stubs and notices (R133 to R135) -/

theorem directed_none {s : State} {p : Packet} : s.directed p 0 = s.settlePacket p (if isThreadEnd (hdrEnd p.hdr) && s.fenceOver p.core then 3 else 2) := by
  unfold State.directed
  exact if_pos rfl

/-- A counter's entry leads a packet of another cube to the counter's core (R134). -/
theorem directed_counter {s : State} {p : Packet} {e : Nat} (hlo : 2 ^ 40 ≤ e) (hhi : e < 2 ^ 50) (hcube : (e - 2 ^ 40) / 64 / 512 = s.cube)
    (ht : isThreadEnd (hdrEnd p.hdr) = false) (hs : p.scube ≠ s.cube) (hh : p.hops ≠ 5) : s.directed p e = { s with net := s.net.map (fun (q : Packet) =>
      if q.id = p.id then { p with cube := s.cube, core := (e - 2 ^ 40) / 64 % 512, target := e % 64 + 1, asked := false } else q) } := by
  have hentry : p.toEntry e = { p with cube := s.cube, core := (e - 2 ^ 40) / 64 % 512, target := e % 64 + 1 } := by
    have hmod : (e - 2 ^ 40) % 64 = e % 64 := by omega
    rw [Packet.toEntry, if_neg (by omega), if_pos hlo]
    simp only [hcube, hmod]
  have he : e ≠ 0 := by omega
  rw [State.directed]
  simp [he, ht, hs, hh, hentry, State.forwardPacket]

theorem directoryLookup_found {s : State} {p : Packet} (hb : s.arg.b = 0) (hf : s.net.find? (fun q => q.id == s.arg.a) = some p)
    (hask : smGet 0 (s.tenant p.tenant).dir (hdrEnd p.hdr) ≠ 0 ∨ s.peers = []) :
    exec .directoryLookup s = .next (s.directed p (smGet 0 (s.tenant p.tenant).dir (hdrEnd p.hdr))) := by
  have hnot : ¬ (smGet 0 (s.tenant p.tenant).dir (hdrEnd p.hdr) = 0 ∧ s.peers ≠ []) := by tauto
  show execDirectoryLookup s = _
  rw [execDirectoryLookup]
  simp [hb, hf, hnot]

theorem tenant_setTenant_ne (s : State) {k j : Nat} (x : Tenant) (h : j ≠ k) : (s.setTenant k x).tenant j = s.tenant j := smGet_smPut_ne _ _ _ _ _ h

theorem directoryLookup_enters {s : State} (hb : s.arg.b = 3) :
    exec .directoryLookup s = .next (s.setTenant s.arg.e { s.tenant s.arg.e with dir := smPut 0 (s.tenant s.arg.e).dir s.arg.d s.arg.c }) :=
  congrArg Host.Outcome.next (if_pos hb)

/-- A stub of this cube, for a packet of this cube (R135). -/
theorem stubForward_found {s : State} {p : Packet} {b : Stub} (hf : s.net.find? (fun q => q.id == s.arg.a) = some p)
    (hb : s.stubOf p.core (hdrEnd p.hdr) = some b) (hcube : b.cube = s.cube) (hs : p.scube = s.cube) : exec .stubForward s = .next (
      if 4 ≤ p.hops then { s with net := s.net.map (fun (q : Packet) => if q.id = p.id then { q with hops := 5 } else q) }
      else { s with
        net := s.net.map (fun (q : Packet) => if q.id = p.id then { p with cube := b.cube, core := b.core, hops := p.hops + 1 } else q)
        notices := s.notices ++ [⟨p.score, dirKey p.tenant (hdrEnd p.hdr), threadEntry b.cube b.core⟩] }) := by
  have hforward : s.forwardPacket { p with cube := b.cube, core := b.core, hops := p.hops + 1 } =
      { s with net := s.net.map (fun (q : Packet) => if q.id = p.id then { p with cube := b.cube, core := b.core, hops := p.hops + 1 } else q) } := if_pos hcube
  show execStubForward s = _
  rw [execStubForward]
  simp only [hf, hb]
  by_cases h : 4 ≤ p.hops
  · rw [if_pos h, if_pos h]
  · rw [if_neg h, if_neg h, hforward]
    exact congrArg Host.Outcome.next (if_pos hs)

theorem movedNotice_first {s : State} {n : Notice} {l : List Notice} (hb : s.arg.b = 0) (hn : s.notices = n :: l)
    (hroom : smGet 0 (s.core n.core).dir n.key ≠ 0 ∨ (s.core n.core).dir.length < 64) : exec .movedNotice s =
      .next (({ s with notices := l } : State).setCore n.core { s.core n.core with dir := smPut 0 (s.core n.core).dir n.key n.entry }) := by
  show execMovedNotice s = _
  rw [execMovedNotice]
  simp only [hb, hn]
  exact congrArg Host.Outcome.next (if_pos hroom)

/-! ### O23 -/

/-- Settles O23: each event by the case in which it finds its thread, packet, stub or notice. -/
theorem relocation : Obligations.Relocation := by
  refine ⟨⟨?arrival, ?refusal, fun s t i => mothLoad_only, ?comesHome, fun s => rfl, ?home⟩, ?lookup, ?enter, ?stub, ?notice⟩
  case arrival =>
    intro s t k h1 h2 hf hk
    refine ⟨fun hroom hc hh => ?_, relocationArrival_refused h1 h2 hf⟩
    obtain ⟨c, hx⟩ := relocationArrival_taken h1 h2 hf hk hroom hc hh
    exact ⟨_, hx, rfl, State.ctx_setCtx_self s k _, fun j hj => State.ctx_setCtx_ne s k j _ hj, rfl⟩
  case refusal =>
    intro s k hk
    obtain ⟨t, hx⟩ := stays_departing (s := { s with stored := s.stored.filter fun t => !(t.slot == 27 && t.ctx.uid == s.arg.a) }) hk
    exact ⟨_, congrArg Host.Outcome.next hx, State.ctx_setCtx_self s k _, fun j hj => State.ctx_setCtx_ne s k j _ hj, rfl, rfl⟩
  case comesHome =>
    intro s t k hb hk hf ht
    obtain ⟨l, hx⟩ := landHome_untrapped { s with stored := s.stored.filter (fun (v : Stored) => v ≠ t) } k ht
    exact ⟨_, (mothReturn_found hb hk hf).trans (congrArg _ hx), rfl, rfl, fun j hj => State.ctx_setCtx_ne s k j _ hj, landed_spec (State.ctx_setCtx_self s k _)⟩
  case home =>
    intro s
    refine ⟨fun h => ?_, fun h => ?_⟩
    · exact congrArg Host.Outcome.next ((if_neg (by simp [h])).trans (issue_nothing s _))
    · exact congrArg Host.Outcome.next (if_pos (Option.isSome_iff_ne_none.mpr h))
  case lookup =>
    rintro s p e hb hf rfl
    refine ⟨fun he hp => ?_, fun hlo hhi hcube ht hs hh => ?_⟩
    · have hx := directoryLookup_found hb hf (.inr hp)
      rw [show smGet 0 (s.tenant p.tenant).dir (hdrEnd p.hdr) = 0 from he, directed_none] at hx
      exact hx
    · exact (directoryLookup_found hb hf (.inl (by show smGet 0 (s.tenant p.tenant).dir (p.hdr.toNat % 2 ^ 32) ≠ 0; omega))).trans
        (congrArg _ (directed_counter hlo hhi hcube ht hs hh))
  case enter =>
    intro s hb
    refine ⟨_, directoryLookup_enters hb, rfl, fun t ht => tenant_setTenant_ne s _ ht, ?_⟩
    rw [State.tenant_setTenant_self]
    exact ⟨smGet_smPut_self _ _ _ _, fun n hn => smGet_smPut_ne _ _ _ _ _ hn⟩
  case stub =>
    intro s p b hf hb hcube hs
    have hx := stubForward_found hf hb hcube hs
    exact ⟨fun h => hx.trans (congrArg _ (if_neg h.not_ge)), fun h => hx.trans (congrArg _ (if_pos h))⟩
  case notice =>
    intro s n l hb hn hroom
    refine ⟨_, movedNotice_first hb hn hroom, rfl, ?_⟩
    rw [State.core_setCore_self]
    exact ⟨smGet_smPut_self _ _ _ _, fun k hk => smGet_smPut_ne _ _ _ _ _ hk, fun c hc => State.core_setCore_ne _ _ _ _ hc⟩

end Sys2Proof.ParallelProofs
end

section
/-! SUPPORT and THEOREMS. O24: groups, their members and their barriers (R150 to R156). -/

namespace Sys2Proof.ParallelProofs
open Sys2Proof.Machine Sys2Proof.ScalarProofs

/-! ### The release part of a barrier (R153, R237) -/

/-- Writing dirty sectors back makes requests, takes their numbers and cleans lines; nothing else changes. -/
def WritesBack (s u : State) : Prop := ∃ q n t, u = { s with reqs := q, nid := n, tiles := t }

theorem WritesBack.refl (s : State) : WritesBack s s := ⟨_, _, _, rfl⟩

theorem WritesBack.trans {s u v : State} (h : WritesBack s u) (h' : WritesBack u v) : WritesBack s v := by
  obtain ⟨q, n, t, rfl⟩ := h
  obtain ⟨q', n', t', rfl⟩ := h'
  exact ⟨q', n', t', rfl⟩

/-- A relation that each step of a fold keeps holds between its ends. -/
theorem foldl_related {α : Type} {R : State → State → Prop} (hrefl : ∀ s, R s s) (htrans : ∀ {s u v}, R s u → R u v → R s v) (f : State → α → State)
    (hf : ∀ s a, R s (f s a)) (l : List α) (s : State) : R s (l.foldl f s) := by
  induction l generalizing s with
  | nil => exact hrefl s
  | cons a l ih => exact htrans (hf s a) (ih _)

theorem writesBack_foldl {α : Type} (f : State → α → State) (hf : ∀ s a, WritesBack s (f s a)) (l : List α) (s : State) : WritesBack s (l.foldl f s) :=
  foldl_related .refl .trans f hf l s

theorem writesBack_line (s : State) (q : Req) (t : Nat) (c : CLine) : WritesBack s (s.writeBackLine q t c) := by
  have hs : WritesBack s ((upTo 8).foldl (fun s i => if bitAt c.dirty i then s.writeBackSector q t c i else s) s) := by
    refine writesBack_foldl _ (fun s i => ?_) _ s
    split
    · exact ⟨_, _, _, rfl⟩
    · exact .refl s
  exact hs.trans ⟨_, _, _, rfl⟩

theorem writesBack_tile (s : State) (q : Req) (t : Nat) : WritesBack s (s.writeBackTile q t) := by
  have hl : WritesBack s ((s.tile t).lines.foldl (fun s c => if c.dirty = 0 then s else s.writeBackLine q t c) s) := by
    refine writesBack_foldl _ (fun s c => ?_) _ s
    split
    · exact .refl s
    · exact writesBack_line s q t c
  exact hl.trans ⟨_, _, _, rfl⟩

theorem writesBack_releaseStart (s : State) (scope : Nat) : WritesBack s (s.releaseStart scope) := by
  unfold State.releaseStart
  split
  · exact writesBack_tile s _ _
  · exact .refl s

/-- A release that is over, or that waits for nothing, goes on in the state `s1` (R237). -/
theorem fenced_of_released {s s1 : State} {scope : Nat} (h : s.released s1 true scope) (k : State → State) : s.fenced true false scope k = k s1 := by
  rcases h with ⟨h, -⟩ | ⟨-, hm, rfl⟩ | ⟨-, hm, hr, rfl, hq⟩
  · cases h
  · exact if_pos (by rw [State.second, hm]; rfl)
  · have hsec : s.second = false := by rw [State.second, beq_eq_false_iff_ne]; exact hm
    have hown : (s.releaseStart scope).fenceReqs true scope = [] := by
      obtain ⟨q, n, t, h⟩ := writesBack_releaseStart s scope
      have e1 : (s.releaseStart scope).agent = s.agent := by rw [h]; rfl
      have e2 : (s.releaseStart scope).cur = s.cur := by rw [h]
      rw [State.fenceReqs, if_pos rfl, e1, e2, hq]
    unfold State.fenced
    simp only [hsec, hr, if_true, hown, Bool.false_eq_true, if_false]

/-- The release leaves the running thread, the groups and the time as they were. -/
theorem released_frame {s s1 : State} {scope : Nat} (h : s.released s1 true scope) : WritesBack s s1 := by
  rcases h with ⟨h, -⟩ | ⟨-, -, rfl⟩ | ⟨-, -, -, rfl, -⟩
  · cases h
  · exact .refl _
  · exact writesBack_releaseStart s scope

/-! ### Groups and members -/

theorem group_popAll (s : State) (l : List (Reg × Bool)) (n k : Nat) : (s.popAll l).group n k = s.group n k := by
  obtain ⟨_, _, h⟩ := popAll_frame s l; rw [h]; rfl

theorem agent_popAll (s : State) (l : List (Reg × Bool)) : (s.popAll l).agent = s.agent := by
  obtain ⟨_, _, h⟩ := popAll_frame s l; rw [h]; rfl

theorem groups_popAll (s : State) (l : List (Reg × Bool)) : (s.popAll l).groups = s.groups := by
  obtain ⟨_, _, h⟩ := popAll_frame s l; rw [h]

/-- A handle is a word of 32 bits (R150). -/
theorem handle_ok {v : Word} (h : v.toNat < 2 ^ 32) : decide (v.toNat / 2 ^ 32 ≠ 0) = false :=
  decide_eq_false (by rw [Nat.div_eq_of_lt h]; exact fun h => h rfl)

theorem groupOf_handle {v : Word} (h : v.toNat < 2 ^ 32) (s : State) : s.groupOf v = s.group s.self.tenant v.toNat :=
  if_neg (of_decide_eq_false (handle_ok h))

theorem memberOf_some {s : State} {v : Word} {g : Group} {m : Member} (hg : s.groupOf v = some g) (hm : g.member s.agent = some m) :
    s.memberOf v = some (g, m) := by
  simp only [State.memberOf, hg, hm, Option.map_some]

theorem memberOf_none {s : State} {v : Word} (hg : s.groupOf v = none) : s.memberOf v = none := by
  simp only [State.memberOf, hg]

theorem memberOf_popAll (s : State) (l : List (Reg × Bool)) (v : Word) : (s.popAll l).memberOf v = s.memberOf v := by
  obtain ⟨_, _, h⟩ := popAll_frame s l; rw [h]; rfl

theorem multi_iff (g : Group) : g.multi = true ↔ g.cubes ≠ [] := by simp [Group.multi]

/-- A value that depends on the form of a group, by its cubes. -/
theorem if_multi {α : Type} (g : Group) (x y : α) : (if g.multi then x else y) = if g.cubes = [] then y else x := by
  by_cases h : g.cubes = [] <;> simp [multi_iff, h]

theorem scope_eq (g : Group) : g.scope = if g.cubes = [] then 1 else 2 := if_multi g 2 1

/-! ### Joining and leaving (R151) -/

theorem gjoin_free {s : State} {d a : Reg} {t : Bool} {g : Group} (hi : s.issues ⟨[(a, t)], [], [d], []⟩ = true) (hv : (s.val a).toNat < 2 ^ 32)
    (hg : s.group s.self.tenant (s.val a).toNat = some g) (hm : g.member s.agent = none) (hl : s.self.groups.length < 4) :
    exec (.gjoin d a t) s = .next (((((s.popAll [(a, t)]).mapGroup g.tenant g.handle (fun g => g.join s.agent)).setSelf
      { s.self with groups := s.self.groups ++ [g.handle] }).later d 0).finish (.gjoin d a t)) := by
  show execGjoin d a t s = _
  have hno : ¬ ((g.member s.agent).isSome = true ∨ 4 ≤ s.self.groups.length) := by simp [hm]; omega
  have hself : ((s.popAll [(a, t)]).mapGroup g.tenant g.handle (fun g => g.join s.agent)).self = s.self := popAll_self s _
  simp only [execGjoin, handle_ok hv, State.issueVal_go hi, groupOf_handle hv, group_popAll, hg, agent_popAll, popAll_self, hno, if_false, hself]

theorem gjoin_refused {s : State} {d a : Reg} {t : Bool} (hi : s.issues ⟨[(a, t)], [], [d], []⟩ = true) (hv : (s.val a).toNat < 2 ^ 32)
    (h : s.group s.self.tenant (s.val a).toNat = none ∨ 4 ≤ s.self.groups.length ∨ ∃ g m, s.group s.self.tenant (s.val a).toNat = some g ∧ g.member s.agent = some m) :
    exec (.gjoin d a t) s = .next (((s.popAll [(a, t)]).later d 6).finish (.gjoin d a t)) := by
  show execGjoin d a t s = _
  simp only [execGjoin, handle_ok hv, State.issueVal_go hi, groupOf_handle hv, group_popAll, agent_popAll, popAll_self]
  cases hg : s.group s.self.tenant (s.val a).toNat with
  | none => rfl
  | some g =>
    have hyes : (g.member s.agent).isSome = true ∨ 4 ≤ s.self.groups.length := by
      rcases h with h | h | ⟨g', m, h, hm⟩
      · rw [hg] at h; cases h
      · exact .inr h
      · rw [hg] at h; cases h; exact .inl (by rw [hm]; rfl)
    exact congrArg Host.Outcome.next (if_pos hyes)

theorem filter_ne_handle (l : List Nat) (k : Nat) : l.filter (fun h => decide (h ≠ k)) = l.filter (fun h => h != k) :=
  List.filter_congr (fun h _ => by by_cases e : h = k <;> simp [e])

theorem gleave_member {s : State} {d a : Reg} {t : Bool} {g : Group} {m : Member} (hi : s.issues ⟨[(a, t)], [], [d], []⟩ = true) (hv : (s.val a).toNat < 2 ^ 32)
    (hg : s.group s.self.tenant (s.val a).toNat = some g) (hm : g.member s.agent = some m) :
    exec (.gleave d a t) s = .next (((((s.popAll [(a, t)]).mapGroup g.tenant g.handle (fun g => g.leave s.agent)).setSelf
      { s.self with groups := s.self.groups.filter (fun h => h != g.handle) }).later d 0).finish (.gleave d a t)) := by
  show execGleave d a t s = _
  have hself : ((s.popAll [(a, t)]).mapGroup g.tenant g.handle (fun g => g.leave s.agent)).self = s.self := popAll_self s _
  simp only [execGleave, handle_ok hv, State.issueVal_go hi, memberOf_popAll, memberOf_some ((groupOf_handle hv s).trans hg) hm, agent_popAll, hself, filter_ne_handle]

theorem gleave_without_group {s : State} {d a : Reg} {t : Bool} (hi : s.issues ⟨[(a, t)], [], [d], []⟩ = true) (hv : (s.val a).toNat < 2 ^ 32)
    (hg : s.group s.self.tenant (s.val a).toNat = none) :
    exec (.gleave d a t) s = .next (((s.popAll [(a, t)]).later d 6).finish (.gleave d a t)) := by
  show execGleave d a t s = _
  simp only [execGleave, handle_ok hv, State.issueVal_go hi, memberOf_popAll, memberOf_none ((groupOf_handle hv s).trans hg)]

/-- A group's image and the running thread's new list, as the fields of the state say it. -/
theorem membership_frame (s : State) (l : List (Reg × Bool)) (tenant handle : Nat) (f : Group → Group) (c : Ctx) :
    ∀ u, u = ((s.popAll l).mapGroup tenant handle f).setSelf c → u = { s.popAll l with ctxs := u.ctxs, groups := u.groups } ∧ u.self = c
      ∧ u.groups = s.groups.map (fun q => if q.tenant = tenant ∧ q.handle = handle then f q else q) := by
  rintro u rfl
  have hg := groups_popAll s l
  generalize s.popAll l = p at hg ⊢
  refine ⟨rfl, State.self_setSelf _ _, ?_⟩
  rw [← hg]; rfl

/-- The lowest rank that no member has is free, and there is one (R151). -/
theorem freeRank_spec (g : Group) : (∀ m ∈ g.members, m.rank ≠ g.freeRank) ∧ ∀ k, k < g.freeRank → ∃ m ∈ g.members, m.rank = k := by
  unfold Group.freeRank
  cases h : firstFrom (fun r => !g.members.any (fun m => m.rank == r)) 0 (g.members.length + 1) with
  | some r =>
    obtain ⟨-, -, hfree, hlow⟩ := firstFrom_some h
    refine ⟨fun m hm he => ?_, fun k hk => ?_⟩
    · simp only [Bool.not_eq_true', List.any_eq_false, beq_iff_eq] at hfree
      exact hfree m hm he
    · have := hlow k (Nat.zero_le k) hk
      simpa using this
  | none =>
    have hall := firstFrom_none h
    have hsub : Finset.range (g.members.length + 1) ⊆ (g.members.map (·.rank)).toFinset := by
      intro k hk
      have := hall k (Nat.zero_le k) (by simpa using hk)
      simpa using this
    have hcard := (Finset.card_le_card hsub).trans (List.toFinset_card_le _)
    simp only [Finset.card_range, List.length_map] at hcard
    omega

theorem join_spec (g : Group) (uid : Nat) : ∃ r, (g.join uid).members = g.members ++ [⟨r, uid, if g.opened = none then g.gen else g.gen + 1⟩]
    ∧ (∀ m ∈ g.members, m.rank ≠ r) ∧ ∀ k, k < r → ∃ m ∈ g.members, m.rank = k := by
  refine ⟨g.freeRank, ?_, freeRank_spec g⟩
  unfold Group.join
  cases g.opened <;> rfl

/-! ### Queries (R154, R156) -/

theorem gsize_eq {s : State} {d a : Reg} {t : Bool} {g : Group} (hi : s.issues ⟨[(a, t)], [], [d], []⟩ = true) (hv : (s.val a).toNat < 2 ^ 32)
    (hg : s.group s.self.tenant (s.val a).toNat = some g) :
    exec (.gsize d a t) s = .next (s.retire (.gsize d a t) ⟨[(a, t)], [], [d], []⟩ d (BitVec.ofNat 64 (if g.cubes = [] then g.members.length else g.cubes.length))) := by
  show execGsize d a t s = _
  simp only [execGsize, groupOf_handle hv, hg, Option.isNone_some, State.issueVal_go hi, if_multi]

theorem grank_eq {s : State} {d a : Reg} {t : Bool} {g : Group} {m : Member} (hi : s.issues ⟨[(a, t)], [], [d], []⟩ = true) (hv : (s.val a).toNat < 2 ^ 32)
    (hg : s.group s.self.tenant (s.val a).toNat = some g) (hm : g.member s.agent = some m) :
    exec (.grank d a t) s = .next (s.retire (.grank d a t) ⟨[(a, t)], [], [d], []⟩ d (BitVec.ofNat 64 (if g.cubes = [] then m.rank else g.rank))) := by
  show execGrank d a t s = _
  simp only [execGrank, memberOf_some ((groupOf_handle hv s).trans hg) hm, Option.isNone_some, State.issueVal_go hi, if_multi]

/-- The operand of `gstg` breaks a rule just where its table says (R156). -/
theorem gstgBad_iff (q : Nat) : gstgBad q = true ↔ 2 ^ 34 ≤ q ∨ bits q 33 32 = 3 ∨ bits q 31 28 ≠ 0 ∨ bits q 15 4 ≠ 0 := by
  simp only [gstgBad, Bool.or_eq_true, bne_iff_ne, beq_iff_eq, or_assoc]
  refine or_congr_left ?_
  rw [Ne, Nat.div_eq_zero_iff_lt (by norm_num), not_lt]

theorem gstg_eq {s : State} {d a b : Reg} {t v : Bool} {g : Group} {m : Member} (hi : s.issues ⟨[(a, t), (b, v)], [], [d], []⟩ = true)
    (hv : (s.val a).toNat < 2 ^ 32) (hg : s.group s.self.tenant (s.val a).toNat = some g) (hm : g.member s.agent = some m) :
    exec (.gstg d a b t v) s = .next (if gstgBad (s.val b).toNat then s.trap 0x01 0x0D (BitVec.ofNat 64 ((encode (.gstg d a b t v)).headD 0))
      else ((s.popAll [(a, t), (b, v)]).later d (g.query (bits (s.val b).toNat 33 32) (bits (s.val b).toNat 27 16) ((s.val b).toNat % 16))).finish (.gstg d a b t v)) := by
  show execGstg d a b t v s = _
  simp only [execGstg, memberOf_some ((groupOf_handle hv s).trans hg) hm, Option.isNone_some]
  cases hb : gstgBad (s.val b).toNat with
  | true => exact congrArg Host.Outcome.next (issueVals_bad hi _ (by simp) _)
  | false => exact congrArg Host.Outcome.next (issueVals_go hi _ (by simp) _)

/-- What `gstg` delivers (R156). -/
theorem query_spec (g : Group) (kind rank age : Nat) : (g.record[age]? = none → g.query kind rank age = BitVec.allOnes 64)
    ∧ ∀ c, g.record[age]? = some c → (kind = 1 → g.query kind rank age = BitVec.ofNat 64 c.gen)
      ∧ (kind = 0 → g.query kind rank age = if smGet 0 c.offs rank = 0 then BitVec.allOnes 64 else BitVec.ofNat 64 (smGet 0 c.offs rank - 1)) := by
  refine ⟨fun h => ?_, fun c h => ⟨?_, ?_⟩⟩
  · simp only [Group.query, h]
  · rintro rfl; simp only [Group.query, h, if_true]
  · rintro rfl; simp only [Group.query, h, if_true, Nat.zero_ne_one, if_false]

/-! ### Arrivals and releases (R152, R153, R155) -/

theorem arrive_opens {g : Group} (h : g.opened = none) (rank now : Nat) : (g.arrive rank now false).opened = some now
    ∧ smGet 0 (g.arrive rank now false).arrived rank = 1 ∧ ∀ r, r ≠ rank → smGet 0 (g.arrive rank now false).arrived r = 0 := by
  simp only [Group.arrive, h]
  exact ⟨trivial, smGet_smPut_self _ _ _ _, fun r hr => smGet_smPut_ne _ _ _ _ _ hr⟩

theorem arrive_open {g : Group} {t0 : Nat} (h : g.opened = some t0) (rank now : Nat) : (g.arrive rank now false).opened = some t0
    ∧ smGet 0 (g.arrive rank now false).arrived rank = min (now - t0) 0xFFFFFFFE + 1
    ∧ ∀ r, r ≠ rank → smGet 0 (g.arrive rank now false).arrived r = smGet 0 g.arrived r := by
  simp only [Group.arrive, h]
  exact ⟨trivial, smGet_smPut_self _ _ _ _, fun r hr => smGet_smPut_ne _ _ _ _ _ hr⟩

theorem arrive_isSome (g : Group) (rank now : Nat) : (g.arrive rank now false).opened.isSome = true := by
  cases h : g.opened with
  | none => rw [(arrive_opens h rank now).1]; rfl
  | some t0 => rw [(arrive_open h rank now).1]; rfl

/-- A single-cube generation in which every expected member has arrived is released at once. -/
theorem settle_complete {q : Group} (ho : q.opened.isSome = true) (hc : q.cubes = []) (hcut : q.cut = false)
    (hall : ∀ m ∈ q.members, q.gen < m.since ∨ smGet 0 q.arrived m.rank ≠ 0) : q.settle = q.released q.arrived := by
  have hcomp : q.complete = true := by
    simp only [Group.complete, ho, Bool.true_and, List.all_eq_true, Bool.or_eq_true, decide_eq_true_eq, bne_iff_ne]
    exact hall
  have hm : q.multi = false := by rw [Group.multi, hc]; rfl
  exact if_pos (by rw [hcomp, hcut, hm]; rfl)

/-- A release closes the generation; the record takes its offsets and keeps sixteen entries (R155). -/
theorem released_spec_record (q : Group) (offs : SMap Nat) : (q.released offs).gen = q.gen + 1 ∧ (q.released offs).opened = none
    ∧ (q.released offs).arrived = [] ∧ (q.released offs).members = q.members ∧ (q.released offs).record.length ≤ 16
    ∧ ∃ c, (q.released offs).record.head? = some c ∧ c.gen = q.gen ∧ c.offs = offs.filter (fun o => o.1 < 256) :=
  ⟨rfl, rfl, rfl, rfl, List.length_take_le _ _, _, rfl, rfl, rfl⟩

/-- While an expected member is missing nothing happens. -/
theorem settle_missing {q : Group} (h : ∃ m ∈ q.members, m.since ≤ q.gen ∧ smGet 0 q.arrived m.rank = 0) : q.settle = q := by
  obtain ⟨m, hm, hs, ha⟩ := h
  have hcomp : q.complete = false := by
    rw [Group.complete, Bool.and_eq_false_iff]
    refine .inr (List.all_eq_false.mpr ⟨m, hm, ?_⟩)
    simp [ha, hs]
  exact if_neg (by rw [hcomp]; exact Bool.false_ne_true)

/-! ### The barrier instructions (R153) -/

section
variable {s s1 : State} {a : Reg} {t : Bool} {g : Group} {m : Member}

theorem garr_eq {d : Reg} (hi : s.issues ⟨[(a, t)], [], [d], []⟩ = true) (hmem : s.memberOf (s.val a) = some (g, m)) (hr : g.refuses false = false)
    (hw : g.waits m = false) (hrel : s.released s1 true g.scope) :
    exec (.garr d a t) s = .next ((((s1.popAll [(a, t)]).arriveIn g m false).later d (BitVec.ofNat 64 g.gen)).finish (.garr d a t)) := by
  show execGarr d a t s = _
  simp only [execGarr, hmem, Option.isNone_some, State.issueVal_go hi, hr, hw, Bool.false_eq_true, if_false]
  exact congrArg Host.Outcome.next (fenced_of_released hrel _)

theorem gbar_arrives (hi : s.issues ⟨[(a, t)], [], [], []⟩ = true) (hmem : s.memberOf (s.val a) = some (g, m)) (hr : g.refuses false = false)
    (hw : g.waits m = false) (hmemo : s.self.memo = [] ∨ s.self.memo = [1]) (hrel : s.released s1 true g.scope) :
    exec (.gbar a t) s = .next (((s1.setSelf { s1.self with memo := [5, g.gen, g.handle] }).arriveIn g m false).parkMe (.gen g.tenant g.handle g.gen)) := by
  show execGbar a t s = _
  rcases hmemo with hk | hk <;>
  · simp only [execGbar, hk, hmem, Option.isNone_some, State.issueVal_go hi, hr, hw, Bool.false_eq_true, if_false]
    exact congrArg Host.Outcome.next (fenced_of_released hrel _)

theorem gbar_arrived {k h : Nat} (hmemo : s.self.memo = [5, k, h]) (hg : s.groupOf (s.val a) = some g) :
    exec (.gbar a t) s = .next (if k < g.gen then ((s.popAll [(a, t)]).acquire g.scope).finish (.gbar a t)
      else s.parkMe (.gen s.self.tenant (s.val a).toNat k)) := by
  show execGbar a t s = _
  simp only [execGbar, hmemo, hg]

theorem gwait_eq {b : Reg} {u : Bool} (hi : s.issues ⟨[(a, t), (b, u)], [], [], []⟩ = true) (hmemo : s.self.memo ≠ [6]) (hmem : s.memberOf (s.val a) = some (g, m)) :
    exec (.gwait a b t u) s = .next (if (s.val b).toNat < g.gen then ((s.popAll [(a, t), (b, u)]).acquire g.scope).finish (.gwait a b t u)
      else s.parkMe (.gen g.tenant g.handle (s.val b).toNat)) := by
  show execGwait a b t u s = _
  simp only [execGwait, hmemo, if_false, hmem, Option.isNone_some, State.issueVal_go hi]

/-- What an arrival does to the groups. -/
theorem arriveIn_eq (u : State) (g : Group) (m : Member) {gs : List Group} {now : Nat} (hgs : u.groups = gs) (hnow : u.time = now) :
    u.arriveIn g m false = { u with groups := gs.map (fun q => if q.tenant = g.tenant ∧ q.handle = g.handle then (q.arrive m.rank now false).settle else q) } := by
  subst hgs hnow; rfl

end

theorem time_popAll (s : State) (l : List (Reg × Bool)) : (s.popAll l).time = s.time := by
  obtain ⟨_, _, h⟩ := popAll_frame s l; rw [h]

/-- Settles O24: the membership and the queries follow the group's own operations; a barrier's release part changes no group and no time, so that the arrival is the one that R152 gives. -/
theorem groups : Obligations.Groups := by
  unfold Obligations.Groups
  refine ⟨⟨?member, ?query, join_spec⟩, ?arrive, ?again, ?wait, ?generation⟩
  case member =>
    rintro s d a t v hi rfl hv
    refine ⟨fun g hg hm hl => ?_, gjoin_refused hi hv, fun g m hg hm => ?_, gleave_without_group hi hv, fun g hg => gsize_eq hi hv hg,
      fun g m hg hm => grank_eq hi hv hg hm⟩
    · exact ⟨_, gjoin_free hi hv hg hm hl, membership_frame s _ _ _ _ _ _ rfl⟩
    · obtain ⟨hf, hself, hgroups⟩ := membership_frame s [(a, t)] g.tenant g.handle (fun g => g.leave s.agent)
        { s.self with groups := s.self.groups.filter (fun h => h != g.handle) } _ rfl
      exact ⟨_, gleave_member hi hv hg hm, hf, hself, hgroups⟩
  case query =>
    rintro s d a b t v h q g m hi rfl hv hg hm rfl
    rw [gstg_eq hi hv hg hm]
    refine ⟨fun h1 h2 h3 h4 => ?_, fun h => ?_⟩
    · have hgood : ¬ gstgBad (s.val b).toNat = true := by
        rw [gstgBad_iff]
        rintro (h | h | h | h)
        · exact absurd h1 (not_lt.mpr h)
        · exact h2 h
        · exact h h3
        · exact h h4
      exact ⟨_, congrArg Host.Outcome.next (if_neg hgood), query_spec g _ _ _⟩
    · exact congrArg Host.Outcome.next (if_pos ((gstgBad_iff _).mpr h))
  case arrive =>
    rintro s d a t v g m s1 hi hi' rfl hv hg hm hr hw hmemo hrel
    have hmem := memberOf_some ((groupOf_handle hv s).trans hg) hm
    have hr' : g.refuses false = false := by
      have hcut : (g.cut != false) = g.cut := by cases g.cut <;> rfl
      rw [Group.refuses, hcut, hr]
    rw [← scope_eq] at hrel
    have htime : s1.time = s.time := by obtain ⟨_, _, _, rfl⟩ := released_frame hrel; rfl
    rw [garr_eq hi' hmem hr' hw hrel, gbar_arrives hi hmem hr' hw hmemo hrel,
      arriveIn_eq _ g m (groups_popAll s1 _) ((time_popAll s1 _).trans htime), arriveIn_eq (s1.setSelf _) g m (gs := s1.groups) (now := s.time) rfl htime]
    exact ⟨rfl, rfl⟩
  case again =>
    rintro s a t v g k h rfl hv hmemo hg
    rw [gbar_arrived hmemo ((groupOf_handle hv s).trans hg), scope_eq]
    exact ⟨fun h => congrArg Host.Outcome.next (if_pos h), fun h => congrArg Host.Outcome.next (if_neg (not_lt.mpr h))⟩
  case wait =>
    rintro s a b t u v g m hi rfl hv hmemo hg hm
    rw [gwait_eq hi hmemo (memberOf_some ((groupOf_handle hv s).trans hg) hm), scope_eq]
    exact ⟨fun h => congrArg Host.Outcome.next (if_pos h), fun h => congrArg Host.Outcome.next (if_neg (not_lt.mpr h))⟩
  case generation =>
    rintro g q rank now rfl
    refine ⟨fun h => arrive_opens h rank now, fun t0 h => arrive_open h rank now, fun hc hcut hall => ?_, settle_missing⟩
    rw [settle_complete (arrive_isSome g rank now) hc hcut hall]
    exact released_spec_record _ _

end Sys2Proof.ParallelProofs
end

section
/-! SUPPORT and THEOREMS. O27: thread control and the start of an activation (R117 to R122, R131, R459). -/

namespace Sys2Proof.ParallelProofs
open Sys2Proof.Machine Sys2Proof.ScalarProofs

/-! ### The end of a thread (R119) -/

/-- A step that changes no context and not which one runs. -/
def KeepsCtxs (s u : State) : Prop := u.ctxs = s.ctxs ∧ u.cur = s.cur

theorem KeepsCtxs.refl (s : State) : KeepsCtxs s s := ⟨rfl, rfl⟩

theorem KeepsCtxs.trans {s u v : State} (h : KeepsCtxs s u) (h' : KeepsCtxs u v) : KeepsCtxs s v := ⟨h'.1.trans h.1, h'.2.trans h.2⟩

theorem WritesBack.keepsCtxs {s u : State} (h : WritesBack s u) : KeepsCtxs s u := by
  obtain ⟨_, _, _, rfl⟩ := h; exact ⟨rfl, rfl⟩

theorem keepsCtxs_foldl {α : Type} (f : State → α → State) (hf : ∀ s a, KeepsCtxs s (f s a)) (l : List α) (s : State) : KeepsCtxs s (l.foldl f s) :=
  foldl_related .refl .trans f hf l s

theorem writesBack_evictSector (s : State) (q : Req) (t pa : Nat) : WritesBack s (s.evictSector q t pa) := by
  unfold State.evictSector
  cases (s.tile t).find pa with
  | none => exact .refl s
  | some c =>
    have hw : WritesBack s (if bitAt c.dirty (sectorOf pa) then s.writeBackSector q t c (sectorOf pa) else s) := by
      split
      · exact ⟨_, _, _, rfl⟩
      · exact .refl s
    dsimp only
    generalize (if bitAt c.dirty (sectorOf pa) then s.writeBackSector q t c (sectorOf pa) else s) = u at hw ⊢
    refine hw.trans ?_
    split <;> exact ⟨_, _, _, rfl⟩

theorem keepsCtxs_writeOut (s : State) (l : NtLine) : KeepsCtxs s (s.writeOut l) := by
  unfold State.writeOut
  dsimp only
  refine KeepsCtxs.trans ?_ (keepsCtxs_foldl _ (fun s i => by exact ⟨rfl, rfl⟩) _ _)
  have hnt : KeepsCtxs s { s with nt := s.nt.filter (fun m => m ≠ l) } := ⟨rfl, rfl⟩
  refine hnt.trans ?_
  split
  · exact keepsCtxs_foldl _ (fun s i => (writesBack_evictSector s _ _ _).keepsCtxs) _ _
  · exact .refl _

theorem keepsCtxs_writeOutAll (s : State) (agent : Nat) : KeepsCtxs s (s.writeOutAll agent) :=
  keepsCtxs_foldl _ keepsCtxs_writeOut _ s

theorem keepsCtxs_raise (s : State) (core : Nat) (e : StewEvent) : KeepsCtxs s (s.raise core e) := by
  unfold State.raise
  dsimp only
  split <;> exact ⟨rfl, rfl⟩

theorem keepsCtxs_orphanAll (s : State) (core uid : Nat) : KeepsCtxs s (s.orphanAll core uid) := by
  refine keepsCtxs_foldl _ (fun s r => ?_) _ s
  cases r.fault with
  | none => exact .refl s
  | some l => exact KeepsCtxs.trans (u := s.setCore core _) ⟨rfl, rfl⟩ (keepsCtxs_raise _ _ _)

theorem keepsCtxs_leaveArray (s : State) (core uid : Nat) : KeepsCtxs s (s.leaveArray core uid) := by
  unfold State.leaveArray
  split <;> exact ⟨rfl, rfl⟩

theorem keepsCtxs_unbind (s : State) (x : Ctx) : KeepsCtxs s (s.unbind x) := by
  unfold State.unbind
  cases x.act <;> exact ⟨rfl, rfl⟩

theorem groups_unbind (s : State) (x : Ctx) : (s.unbind x).groups = s.groups.map (fun g => g.leave x.uid) := by
  unfold State.unbind
  cases x.act <;> rfl

theorem settle_members (g : Group) : g.settle.members = g.members := by
  unfold Group.settle
  split <;> rfl

/-- Who has left a group is no member of it. -/
theorem member_leave (g : Group) (uid : Nat) : (g.leave uid).member uid = none := by
  unfold Group.leave
  cases h : g.member uid with
  | none => exact h
  | some m =>
    dsimp only
    rw [Group.member, settle_members, List.find?_eq_none]
    simp

/-- The end of a thread that is at home: its context is free, the others stand, and it is in no group. -/
theorem finishThread_spec (s : State) (k : Nat) (hh : (s.ctx k).home = none) :
    (s.finishThread k).cur = s.cur ∧ (s.finishThread k).ctx k = { Ctx.free with chain := (s.ctx k).chain }
      ∧ (∀ j, j ≠ k → (s.finishThread k).ctx j = s.ctx j) ∧ ∀ g ∈ (s.finishThread k).groups, g.member (s.ctx k).uid = none := by
  have he : ∃ v : State, KeepsCtxs s v ∧ s.finishThread k = (v.unbind (s.ctx k)).setCtx k (s.ctx k).freed := by
    refine ⟨_, ((keepsCtxs_writeOutAll s (s.ctx k).uid).trans (keepsCtxs_orphanAll _ (k / 16) (s.ctx k).uid)).trans (keepsCtxs_leaveArray _ (k / 16) (s.ctx k).uid), ?_⟩
    simp only [State.finishThread, hh]
  obtain ⟨v, hv, he⟩ := he
  obtain ⟨hctxs, hcur⟩ := hv.trans (keepsCtxs_unbind v (s.ctx k))
  rw [he]
  refine ⟨hcur, State.ctx_setCtx_self _ _ _, fun j hj => ?_, fun g hg => ?_⟩
  · rw [State.ctx_setCtx_ne _ _ _ _ hj, State.ctx, hctxs]; rfl
  · have hg' : g ∈ (v.unbind (s.ctx k)).groups := hg
    rw [groups_unbind, List.mem_map] at hg'
    obtain ⟨g', -, rfl⟩ := hg'
    exact member_leave g' _

theorem endThread_eq {s u : State} (hc : s.cur.2 ≠ 8) (hu : u = s.setSelf { (s.self.feed .endThread).issuedAt s.cycle with ending := true, park := some .drained }) :
    exec .endThread s = .next (if u.endReady s.me then u.finishThread s.me else u) := by
  subst hu
  show execEndThread s = _
  simp only [execEndThread, issue_nothing, hc, if_false]
  rfl

/-- Nothing of the thread but its issue changes before it ends. -/
theorem ending_ctx (s : State) : ∃ x : Ctx, (s.setSelf { (s.self.feed .endThread).issuedAt s.cycle with ending := true, park := some .drained }).ctx s.me = x
    ∧ x.regs = s.self.regs ∧ x.uid = s.self.uid ∧ x.home = s.self.home ∧ x.chain = s.self.chain := by
  refine ⟨_, State.self_setSelf _ _, ?_⟩
  obtain ⟨g, hg⟩ : ∃ g, s.self.feed .endThread = { s.self with sig := g } := by
    cases h : encode .endThread with
    | nil => exact ⟨_, by rw [Ctx.feed, h]⟩
    | cons w ws => exact ⟨_, feed_of_encode h _⟩
  rw [hg]
  exact ⟨rfl, rfl, rfl, rfl⟩

/-- A pending register holds the end of its thread up. -/
theorem endReady_pending {u : State} {k : Nat} (h : ∃ r ∈ (u.ctx k).regs, r.2.st = .pending) : u.endReady k = false := by
  obtain ⟨r, hr, hp⟩ := h
  have : (u.ctx k).regs.all (fun r => r.2.st != .pending) = false := List.all_eq_false.mpr ⟨r, hr, by rw [hp]; decide⟩
  simp only [State.endReady, this, Bool.false_and]

theorem endThread_spec (s u : State) (hc : s.cur.2 ≠ 8) (hu : u = s.setSelf { (s.self.feed .endThread).issuedAt s.cycle with ending := true, park := some .drained }) :
    ((∃ r ∈ s.self.regs, r.2.st = .pending) → exec .endThread s = .next u)
    ∧ (u.endReady s.me = true → s.self.home = none → Answers .endThread s (fun t => t.self = { Ctx.free with chain := s.self.chain }
      ∧ (∀ k, k ≠ s.me → t.ctx k = s.ctx k) ∧ ∀ g ∈ t.groups, g.member s.self.uid = none)) := by
  obtain ⟨x, hx, hregs, huid, hhome, hchain⟩ := ending_ctx s
  rw [← hu] at hx
  have heq := endThread_eq hc hu
  have hcur : u.cur = s.cur := by rw [hu]; rfl
  refine ⟨fun hp => ?_, fun hr hh => ?_⟩
  · have hno : u.endReady s.me = false := endReady_pending (by rw [hx, hregs]; exact hp)
    rw [heq, hno]; rfl
  · obtain ⟨fcur, fself, fne, fgroups⟩ := finishThread_spec u s.me (by rw [hx, hhome, hh])
    rw [hx, hchain] at fself
    rw [hx, huid] at fgroups
    refine ⟨_, heq.trans (congrArg Host.Outcome.next (if_pos hr)), ?_, fun k hk => ?_, fgroups⟩
    · show (u.finishThread s.me).ctx (ctxKey (u.finishThread s.me).cur.1 (u.finishThread s.me).cur.2) = _
      rw [fcur, hcur]; exact fself
    · rw [fne k hk, hu]; exact State.ctx_setSelf_ne _ _ _ hk

/-! ### `self` and `live` (R121, R122) -/

theorem selfId_eq {s : State} {d : Reg} (hi : s.issues ⟨[], [], [d], []⟩ = true) {n : Nat} (hn : s.selfWord s.cur.1 = n) :
    exec (.selfId d) s = .next (s.retire (.selfId d) ⟨[], [], [d], []⟩ d (BitVec.ofNat 64 (n + s.cur.2 % 8 * 2 ^ 33))) := by
  subst hn
  exact congrArg Host.Outcome.next (State.issue_go hi _)

theorem selfWord_unowned (s : State) (core : Nat) (h : 256 ≤ core ∨ (s.tile (tileOf core)).owner = none) :
    s.selfWord core = (if core < 256 then core % 2 else 0) * 2 ^ 32 := by
  have hn : (if core < 256 then (s.tile (tileOf core)).owner else none) = none := by
    split
    · exact h.resolve_left (by omega)
    · rfl
  simp only [State.selfWord, hn]

theorem selfWord_owned (s : State) {core id : Nat} {l : Launch} (hc : core < 256) (ho : (s.tile (tileOf core)).owner = some id) (hl : s.launch id = some l) :
    s.selfWord core = core % 2 * 2 ^ 32 + l.h * 2 ^ 24 + l.w * 2 ^ 16 + (tileOf core / 16 - l.y) * 2 ^ 8 + (tileOf core % 16 - l.x) := by
  simp only [State.selfWord, hc, if_true, ho, hl]

/-- Replacing n bits of a number from bit lo on. -/
theorem testBit_replaceField (m x lo n i : Nat) (hx : x < 2 ^ n) :
    (m - m / 2 ^ lo % 2 ^ n * 2 ^ lo + x * 2 ^ lo).testBit i = if lo ≤ i ∧ i < lo + n then x.testBit (i - lo) else m.testBit i := by
  have h1 : 2 ^ lo * (m / 2 ^ lo) + m % 2 ^ lo = m := Nat.div_add_mod m _
  have h2 : 2 ^ n * (m / 2 ^ lo / 2 ^ n) + m / 2 ^ lo % 2 ^ n = m / 2 ^ lo := Nat.div_add_mod _ _
  have hlow : m % 2 ^ lo < 2 ^ lo := Nat.mod_lt _ (by positivity)
  have hmid : m / 2 ^ lo % 2 ^ n < 2 ^ n := Nat.mod_lt _ (by positivity)
  generalize m / 2 ^ lo / 2 ^ n = h at h2
  generalize m / 2 ^ lo % 2 ^ n = mid at h2 hmid ⊢
  generalize m % 2 ^ lo = low at h1 hlow
  rw [← h2] at h1
  have e : m - mid * 2 ^ lo + x * 2 ^ lo = 2 ^ lo * (2 ^ n * h + x) + low := by
    rw [← h1, Nat.mul_add, Nat.mul_add, Nat.mul_comm mid, Nat.mul_comm x]; omega
  rw [e, Nat.testBit_two_pow_mul_add _ hlow, Nat.testBit_two_pow_mul_add _ hx, ← h1, Nat.testBit_two_pow_mul_add _ hlow, Nat.testBit_two_pow_mul_add _ hmid]
  by_cases ha : i < lo
  · simp [ha, not_le.mpr ha]
  · by_cases hb : i - lo < n
    · simp [ha, hb, not_lt.mp ha, show i < lo + n by omega]
    · simp [ha, hb, show ¬ i < lo + n by omega]

theorem liveSegment_bits (v : Word) (k : Fin 4) (m : BitVec 18) (i : Nat) (hi : i < 64) :
    (liveSegment v k.val m.toNat).getLsbD i = if 18 * k.val + 1 ≤ i ∧ i < 18 * k.val + 19 ∧ i < 60 then m.getLsbD (i - (18 * k.val + 1)) else v.getLsbD i := by
  have hk := k.isLt
  generalize k.val = k at hk
  obtain ⟨n, hn, hcond⟩ : ∃ n, (if k = 3 then 5 else 18) = n ∧ ((18 * k + 1 ≤ i ∧ i < 18 * k + 19 ∧ i < 60) ↔ (18 * k + 1 ≤ i ∧ i < 18 * k + 1 + n)) := by
    refine ⟨_, rfl, ?_⟩
    split <;> omega
  have hw : 18 * k + 1 + n - 1 + 1 - (18 * k + 1) = n := by
    have : 0 < n := by rw [← hn]; split <;> omega
    omega
  rw [if_congr hcond rfl rfl]
  simp only [liveSegment, hn, bits, hw, BitVec.getLsbD_ofNat, hi, decide_true, Bool.true_and]
  rw [testBit_replaceField _ _ _ _ _ (Nat.mod_lt _ (by positivity))]
  split
  · next h => rw [Nat.testBit_mod_two_pow, decide_eq_true (by omega), Bool.true_and]; rfl
  · rfl

/-! ### Which activation starts (R131) -/

/-- The least of a list by a measure, folded from a first value on. -/
theorem foldl_min_spec {α : Type} (f : α → Nat) (l : List α) (a : Nat) : (l.foldl (fun m e => min m (f e)) a ≤ a) ∧ (∀ e ∈ l, l.foldl (fun m e => min m (f e)) a ≤ f e)
    ∧ (l.foldl (fun m e => min m (f e)) a = a ∨ ∃ e ∈ l, l.foldl (fun m e => min m (f e)) a = f e) := by
  induction l generalizing a with
  | nil => exact ⟨le_rfl, by simp, .inl rfl⟩
  | cons e l ih =>
    obtain ⟨h1, h2, h3⟩ := ih (min a (f e))
    simp only [List.foldl_cons]
    refine ⟨h1.trans (min_le_left _ _), fun x hx => ?_, ?_⟩
    · rcases List.mem_cons.mp hx with hx | hx
      · rw [hx]; exact h1.trans (min_le_right _ _)
      · exact h2 x hx
    · rcases h3 with h3 | ⟨x, hx, h3⟩
      · rcases min_choice a (f e) with hm | hm
        · exact .inl (h3.trans hm)
        · exact .inr ⟨e, List.mem_cons_self, h3.trans hm⟩
      · exact .inr ⟨x, List.mem_cons_of_mem _ hx, h3⟩

/-- The next number in rotation of an ascending list: the first after the last one, or the first of all. -/
theorem afterWrap_spec (last : Nat) {l : List Nat} (hs : l.Pairwise (· < ·)) (hl : l ≠ []) : ∃ i, afterWrap last l = some i ∧ i ∈ l
    ∧ ∀ j ∈ l, (last < i ∧ (last < j → i ≤ j)) ∨ (i ≤ last ∧ j ≤ last ∧ i ≤ j) := by
  unfold afterWrap
  cases hf : l.find? (fun i => decide (last < i)) with
  | some i =>
    obtain ⟨hi, as, bs, rfl, has⟩ := List.find?_eq_some_iff_append.mp hf
    refine ⟨i, rfl, by simp, fun j hj => .inl ⟨by simpa using hi, fun hlj => ?_⟩⟩
    rcases List.mem_append.mp hj with hj | hj
    · exact absurd hlj (by simpa using has j hj)
    · rcases List.mem_cons.mp hj with rfl | hj
      · exact le_rfl
      · exact ((List.pairwise_cons.mp (List.pairwise_append.mp hs).2.1).1 j hj).le
  | none =>
    have hle : ∀ j ∈ l, j ≤ last := fun j hj => by simpa using List.find?_eq_none.mp hf j hj
    cases l with
    | nil => exact absurd rfl hl
    | cons i t =>
      refine ⟨i, rfl, List.mem_cons_self, fun j hj => .inr ⟨hle i List.mem_cons_self, hle j hj, ?_⟩⟩
      rcases List.mem_cons.mp hj with rfl | hj
      · exact le_rfl
      · exact ((List.pairwise_cons.mp hs).1 j hj).le

/-- A counter is a candidate when it is unmasked and has an activation pending. -/
theorem mem_pendingCtrs (s : State) (core i : Nat) (p : PendAct) :
    (i, p) ∈ s.pendingCtrs core ↔ i < 64 ∧ (s.counter (ctrKey core i)).mask = false ∧ (s.counter (ctrKey core i)).pending.head? = some p := by
  simp only [State.pendingCtrs, List.mem_filterMap, upTo, List.mem_range]
  constructor
  · rintro ⟨j, hj, h⟩
    split at h
    · cases h
    · next hm =>
      obtain ⟨q, hq, he⟩ := Option.map_eq_some_iff.mp h
      cases he
      exact ⟨hj, by simpa using hm, hq⟩
  · rintro ⟨hi, hm, hp⟩
    exact ⟨i, hi, by simp [hm, hp]⟩

/-- The candidates stand in the order of their indexes. -/
theorem pendingCtrs_sorted (s : State) (core : Nat) : (s.pendingCtrs core).Pairwise (fun a b => a.1 < b.1) := by
  unfold State.pendingCtrs upTo
  refine List.Pairwise.filterMap (R := (· < ·)) _ (fun i j hij a ha b hb => ?_) List.pairwise_lt_range
  have hfst : ∀ {n : Nat} {e : Nat × PendAct}, (if (s.counter (ctrKey core n)).mask then none else (s.counter (ctrKey core n)).pending.head?.map (fun p => (n, p))) = some e → e.1 = n := by
    intro n e he
    split at he
    · cases he
    · obtain ⟨q, -, rfl⟩ := Option.map_eq_some_iff.mp he; rfl
  rw [hfst ha, hfst hb]
  exact hij

/-- Without a candidate no activation starts; else one of highest priority does, in rotation. -/
theorem bestCtr_spec (s : State) (core : Nat) : (s.pendingCtrs core = [] ∧ s.bestCtr core = none)
    ∨ ∃ i p, s.bestCtr core = some (i, p) ∧ (i, p) ∈ s.pendingCtrs core ∧ ∀ e ∈ s.pendingCtrs core, p.prio ≤ e.2.prio
      ∧ (e.2.prio = p.prio → ∀ l, l = smGet 64 (s.core core).lastCtr p.prio → (l < i ∧ (l < e.1 → i ≤ e.1)) ∨ (i ≤ l ∧ e.1 ≤ l ∧ i ≤ e.1)) := by
  have hsorted := pendingCtrs_sorted s core
  unfold State.bestCtr
  cases hl : s.pendingCtrs core with
  | nil => exact .inl ⟨rfl, rfl⟩
  | cons x xs =>
    right
    obtain ⟨h1, h2, h3⟩ := foldl_min_spec (fun e : Nat × PendAct => e.2.prio) xs x.2.prio
    rw [hl] at hsorted
    dsimp only
    generalize xs.foldl (fun m e => min m e.2.prio) x.2.prio = q at h1 h2 h3
    have hle : ∀ e ∈ x :: xs, q ≤ e.2.prio := fun e he => (List.mem_cons.mp he).elim (fun h => h ▸ h1) (h2 e)
    obtain ⟨e0, he0, hq0⟩ : ∃ e ∈ x :: xs, e.2.prio = q :=
      h3.elim (fun h => ⟨x, List.mem_cons_self, h.symm⟩) (fun ⟨e, he, h⟩ => ⟨e, List.mem_cons_of_mem _ he, h.symm⟩)
    generalize x :: xs = l at hsorted hle he0
    have hsame : ∀ e, e ∈ l.filter (fun e => e.2.prio == q) ↔ e ∈ l ∧ e.2.prio = q := fun e => by simp [List.mem_filter]
    have hss : ((l.filter (fun e => e.2.prio == q)).map (·.1)).Pairwise (· < ·) := List.pairwise_map.mpr (hsorted.filter _)
    have hne : (l.filter (fun e => e.2.prio == q)).map (·.1) ≠ [] := by
      have := (hsame e0).mpr ⟨he0, hq0⟩
      intro h
      rw [List.map_eq_nil_iff] at h
      rw [h] at this
      cases this
    obtain ⟨i, hw, him, hrot⟩ := afterWrap_spec (smGet 64 (s.core core).lastCtr q) hss hne
    rw [hw]
    dsimp only
    cases hf : (l.filter (fun e => e.2.prio == q)).find? (fun e => e.1 == i) with
    | none =>
      obtain ⟨e, he, rfl⟩ := List.mem_map.mp him
      exact absurd (List.find?_eq_none.mp hf e he) (by simp)
    | some e =>
      obtain ⟨i', p⟩ := e
      have hi' : i' = i := by simpa using List.find?_some hf
      obtain ⟨hmem, hp⟩ := (hsame _).mp (List.mem_of_find?_eq_some hf)
      subst hi' hp
      refine ⟨_, p, rfl, hmem, fun e he => ⟨hle e he, fun heq last hlast => ?_⟩⟩
      subst hlast
      exact hrot e.1 (List.mem_map_of_mem ((hsame e).mpr ⟨he, heq⟩))

theorem bestCtr_chosen {s : State} {core i : Nat} {p : PendAct} (h : s.bestCtr core = some (i, p)) :
    (i, p) ∈ s.pendingCtrs core ∧ ∀ e ∈ s.pendingCtrs core, p.prio ≤ e.2.prio
      ∧ (e.2.prio = p.prio → ∀ l, l = smGet 64 (s.core core).lastCtr p.prio → (l < i ∧ (l < e.1 → i ≤ e.1)) ∨ (i ≤ l ∧ e.1 ≤ l ∧ i ≤ e.1)) := by
  rcases bestCtr_spec s core with ⟨-, h'⟩ | ⟨i', p', h', hs⟩
  · rw [h] at h'; cases h'
  · rw [h] at h'; cases h'; exact hs

theorem bestCtr_none_iff (s : State) (core : Nat) : s.bestCtr core = none ↔ s.pendingCtrs core = [] := by
  rcases bestCtr_spec s core with ⟨h, h'⟩ | ⟨i, p, h', hm, -⟩
  · exact ⟨fun _ => h, fun _ => h'⟩
  · refine ⟨fun h => ?_, fun h => ?_⟩
    · rw [h] at h'; cases h'
    · rw [h] at hm; cases hm

/-! ### The start of an activation (R117, R118, R459) -/

theorem pick_one {α : Type} (s : State) (d x : α) : s.pick d [x] = (x, s) := rfl

theorem activationStart_cancelled {s : State} {i : Nat} {p : PendAct} (hb : s.bestCtr s.arg.a = some (i, p)) (hc : s.cancelled p.tenant p.job = true) :
    exec .activationStart s = .next (((s.setCore s.arg.a { s.core s.arg.a with lastCtr := smPut 64 (s.core s.arg.a).lastCtr p.prio i }).leaveGroups p.uid).setCounter
      (ctrKey s.arg.a i) ({ s.counter (ctrKey s.arg.a i) with pending := (s.counter (ctrKey s.arg.a i)).pending.tail }.endAct p.aid)) := by
  show execActivationStart s = _
  unfold execActivationStart
  simp only [hb]
  exact congrArg Host.Outcome.next (if_pos hc)

theorem activationStart_allocates {s : State} {i f : Nat} {p : PendAct} (hb : s.bestCtr s.arg.a = some (i, p)) (hc : s.cancelled p.tenant p.job = false)
    (hf : s.allocatable s.arg.a = [f]) :
    exec .activationStart s = .next ((s.setCore s.arg.a { s.core s.arg.a with lastCtr := smPut 64 (s.core s.arg.a).lastCtr p.prio i }).allocate
      (ctrKey s.arg.a i) f p (s.counter (ctrKey s.arg.a i)).pending.tail) := by
  show execActivationStart s = _
  unfold execActivationStart
  simp only [hb]
  generalize hu : s.setCore s.arg.a { s.core s.arg.a with lastCtr := smPut 64 (s.core s.arg.a).lastCtr p.prio i } = u
  have hfu : u.allocatable s.arg.a = [f] := by rw [← hu]; exact hf
  have hcu : ¬ u.cancelled p.tenant p.job = true := by rw [← hu]; exact Bool.eq_false_iff.mp hc
  refine congrArg Host.Outcome.next ((if_neg hcu).trans ?_)
  have hone : (if (u.allocatable s.arg.a).filter (fun i => p.byLaunch && chainOn (u.ctx (ctxKey s.arg.a i))) = [] then u.allocatable s.arg.a
      else (u.allocatable s.arg.a).filter (fun i => p.byLaunch && chainOn (u.ctx (ctxKey s.arg.a i)))) = [f] := by
    rw [hfu, List.filter_singleton]
    cases p.byLaunch && chainOn (u.ctx (ctxKey s.arg.a f)) <;> rfl
  simp only [hone, pick_one]

theorem clearBank_frame (s : State) (k : Nat) : ∃ b, s.clearBank k = { s with vbanks := b } := by
  unfold State.clearBank
  split <;> exact ⟨_, rfl⟩

/-- What a new thread without a group finds, and what starting it changes (R117, R118). -/
theorem allocate_spec (s : State) {core i f : Nat} {p : PendAct} (rest : List PendAct) (hg : p.group = 0) (hi : i < 64) :
    ∃ (uid lid name : Nat) (q : SMap (List QEnt)), ((s.allocate (ctrKey core i) f p rest).ctxs = smPut Ctx.free s.ctxs (ctxKey core f)
        ((s.ctx (ctxKey core f)).allocate uid name p lid (ctrKey core i)
          (startWord { s.counter (ctrKey core i) with pending := rest, running := (s.counter (ctrKey core i)).running ++ [p.aid] } (ctrKey core i % 64) p) s.cycle))
      ∧ (s.allocate (ctrKey core i) f p rest).queues = smPut [] q (ctxKey core f) []
      ∧ (s.allocate (ctrKey core i) f p rest).ctrs = smPut (ctrDefault (ctrKey core i)) s.ctrs (ctrKey core i)
          { s.counter (ctrKey core i) with pending := rest, running := (s.counter (ctrKey core i)).running ++ [p.aid] }
      ∧ (s.allocate (ctrKey core i) f p rest).mem = s.mem := by
  have hdiv : ctrKey core i / 64 = core := by unfold ctrKey; omega
  unfold State.allocate
  simp only [hg, if_true, hdiv]
  by_cases hu : p.uid = 0
  all_goals
    simp only [hu, if_true, if_false]
    generalize hv : State.setCore _ _ _ = v
    obtain ⟨b, hb⟩ := clearBank_frame v (ctxKey core f)
    rw [hb, ← hv]
    exact ⟨_, _, _, _, rfl, rfl, rfl, rfl⟩

theorem cell_allocate (old : Ctx) (uid name : Nat) (p : PendAct) (lid key : Nat) (w : Word) (now r : Nat) :
    (old.allocate uid name p lid key w now).cell r = if r = 57 then ⟨w, .full, false⟩
      else if r = 56 then ⟨if p.msgs = 0 then 0 else BitVec.ofNat 64 (localBase + p.first), .full, false⟩ else ⟨0, .full, false⟩ := by
  unfold Ctx.cell Ctx.allocate
  dsimp only
  by_cases h0 : r = 0
  · subst h0; rfl
  · rw [if_neg h0]
    by_cases h57 : r = 57
    · subst h57; rw [smGet_smPut_self]; rfl
    · rw [smGet_smPut_ne _ _ _ _ _ h57, if_neg h57]
      by_cases h56 : r = 56
      · subst h56; rw [smGet_smPut_self]; rfl
      · rw [smGet_smPut_ne _ _ _ _ _ h56, if_neg h56]; rfl

theorem toNat_byLaunch (b : Bool) : b.toNat * 2 ^ 24 = if b then 2 ^ 24 else 0 := by cases b <;> rfl

/-- Settles O27: an ending thread's steps change no other context and take it out of every group; the choice of the next activation is the least priority's next index in rotation. -/
theorem threads : Obligations.Threads := by
  unfold Obligations.Threads
  refine ⟨⟨endThread_spec, ?yield, ?stewardYield, fun s d hi => ⟨fun h => ?unowned, fun id l hc ho hl => ?owned⟩, ?live⟩, ?chosen, ?noneChosen, ?start⟩
  case yield =>
    intro s hc
    show execYield s = _
    simp only [execYield, issue_nothing, hc, if_false]
  case stewardYield =>
    intro s hc
    show execYield s = _
    simp only [execYield, issue_nothing, hc, if_true]
  case unowned => exact selfId_eq hi (selfWord_unowned s _ h)
  case owned => exact selfId_eq hi (selfWord_owned s hc ho hl)
  case live =>
    intro s k m
    exact ⟨_, congrArg Host.Outcome.next (issue_nothing _ _), fun i hi => liveSegment_bits _ k m i hi⟩
  case chosen =>
    intro s core i p h
    obtain ⟨hmem, hbest⟩ := bestCtr_chosen h
    obtain ⟨hi, hm, hp⟩ := (mem_pendingCtrs s core i p).mp hmem
    exact ⟨hi, hm, hp, fun j q hj hmj hq => hbest (j, q) ((mem_pendingCtrs s core j q).mpr ⟨hj, hmj, hq⟩)⟩
  case noneChosen =>
    intro s core
    rw [bestCtr_none_iff, List.eq_nil_iff_forall_not_mem]
    refine ⟨fun h j hj hm => ?_, fun h e he => ?_⟩
    · rw [← List.head?_eq_none_iff, Option.eq_none_iff_forall_ne_some]
      exact fun p hp => h (j, p) ((mem_pendingCtrs s core j p).mpr ⟨hj, hm, hp⟩)
    · obtain ⟨hj, hm, hp⟩ := (mem_pendingCtrs s core e.1 e.2).mp he
      rw [h e.1 hj hm] at hp; cases hp
  case start =>
    rintro s i f k key p hb rfl rfl
    refine ⟨fun hc => ⟨_, activationStart_cancelled hb hc, rfl, rfl, fun j hj => counter_setCounter_ne _ _ hj, counter_setCounter_self _ _ _⟩, fun hc hf hg => ?_⟩
    obtain ⟨hi, -⟩ := (mem_pendingCtrs s s.arg.a i p).mp (bestCtr_chosen hb).1
    obtain ⟨uid, lid, name, q, hctxs, hqueues, hctrs, hmem⟩ := allocate_spec (core := s.arg.a) (f := f)
      (s.setCore s.arg.a { s.core s.arg.a with lastCtr := smPut 64 (s.core s.arg.a).lastCtr p.prio i }) (s.counter (ctrKey s.arg.a i)).pending.tail hg hi
    refine ⟨_, activationStart_allocates hb hc hf, ?_⟩
    generalize State.allocate _ _ _ _ _ = u at hctxs hqueues hctrs hmem
    rintro x rfl
    have hx := smGet_smPut_self Ctx.free (ctxKey s.arg.a f) ((s.ctx (ctxKey s.arg.a f)).allocate uid name p lid (ctrKey s.arg.a i)
          (startWord { s.counter (ctrKey s.arg.a i) with pending := (s.counter (ctrKey s.arg.a i)).pending.tail, running := (s.counter (ctrKey s.arg.a i)).running ++ [p.aid] }
            (ctrKey s.arg.a i % 64) p) s.cycle) s.ctxs
    have hctx : u.ctx (ctxKey s.arg.a f) = _ := (congrArg (fun c => smGet Ctx.free c (ctxKey s.arg.a f)) hctxs).trans hx
    rw [hctx]
    refine ⟨rfl, rfl, rfl, rfl, rfl, rfl, rfl, rfl, rfl, rfl, rfl, rfl, rfl, rfl, rfl, fun r h56 h57 => ?_, ?_, ?_, ?_, ?_, fun j hj => ?_, hmem⟩
    · rw [cell_allocate, if_neg h57, if_neg h56]
    · rw [cell_allocate]; rfl
    · rw [cell_allocate, if_pos rfl, ← toNat_byLaunch]; rfl
    · exact (congrArg (fun q => smGet [] q (ctxKey s.arg.a f)) hqueues).trans (smGet_smPut_self _ _ _ _)
    · exact (congrArg (fun c => smGet (ctrDefault (ctrKey s.arg.a i)) c (ctrKey s.arg.a i)) hctrs).trans (smGet_smPut_self _ _ _ _)
    · exact (congrArg (fun c => smGet Ctx.free c j) hctxs).trans (smGet_smPut_ne _ _ _ _ _ hj)

end Sys2Proof.ParallelProofs
end

section
/-! SUPPORT and THEOREMS. O28: parcels, their instructions and their movement (R161 to R168, R173, R174, R463). -/

namespace Sys2Proof.ParallelProofs
open Sys2Proof.Machine Sys2Proof.ScalarProofs

/-! ### Slots and queues -/

/-- The first number that a test holds of. -/
theorem firstFrom_eq {p : Nat → Bool} {i n j : Nat} (h1 : i ≤ j) (h2 : j < i + n) (hp : p j = true) (hlow : ∀ k, i ≤ k → k < j → p k = false) :
    firstFrom p i n = some j := by
  cases h : firstFrom p i n with
  | none => rw [firstFrom_none h j h1 h2] at hp; cases hp
  | some k =>
    obtain ⟨k1, -, kp, klow⟩ := firstFrom_some h
    rcases Nat.lt_trichotomy k j with hk | rfl | hk
    · rw [hlow k k1 hk] at kp; cases kp
    · rfl
    · rw [klow j h1 hk] at hp; cases hp

theorem freeSlot_eq_some {t : TileSt} {i : Nat} (hi : i < 256) (hfree : ∀ q ∈ t.parcels, q.slot ≠ i) (hlow : ∀ j, j < i → ∃ q ∈ t.parcels, q.slot = j) :
    t.freeSlot = some i :=
  firstFrom_eq (Nat.zero_le i) (by omega) (by simpa using hfree) (fun k _ hk => by simpa using hlow k hk)

theorem freeSlot_eq_none {t : TileSt} (h : ∀ i, i < 256 → ∃ q ∈ t.parcels, q.slot = i) : t.freeSlot = none := by
  cases hf : t.freeSlot with
  | none => rfl
  | some i =>
    obtain ⟨-, hi, hp, -⟩ := firstFrom_some hf
    obtain ⟨q, hq, he⟩ := h i (by omega)
    simp only [Bool.not_eq_true', List.any_eq_false, beq_iff_eq] at hp
    exact absurd he (hp q hq)

theorem enqueue_some {s : State} {t i : Nat} (p : Parcel) (h : (s.tile t).freeSlot = some i) :
    s.enqueue t p = some (({ s with nid := s.nid + 1 } : State).setTile t
      { s.tile t with parcels := (s.tile t).parcels ++ [{ p with slot := i, st := .queued, order := s.nid, since := s.cycle }] }) := by
  simp only [State.enqueue, h]

theorem enqueue_none {s : State} {t : Nat} (p : Parcel) (h : (s.tile t).freeSlot = none) : s.enqueue t p = none := by
  simp only [State.enqueue, h]

theorem myOwner_tile {s : State} (h : s.cur.1 < 256) : s.myOwner = (s.tile (tileOf s.cur.1)).owner := if_pos h

theorem parcelBad_iff (p : Nat) : parcelBad p = true ↔ bits p 63 56 ≠ 0 ∨ 6 ≤ bits p 29 27 ∨ 6 ≤ bits p 26 24 := by
  simp only [parcelBad, Bool.or_eq_true, bne_iff_ne, decide_eq_true_eq, or_assoc]

/-! ### `pq.put` (R163) -/

section
variable {s : State} {a b : Reg} {t v : Bool}

theorem pqPut_bad (hi : s.issues ⟨[(a, t), (b, v)], [], [], []⟩ = true) (hb : parcelBad (s.val b).toNat = true) :
    exec (.pqPut a b t v) s = .next (s.trap 0x01 0x0D (BitVec.ofNat 64 ((encode (.pqPut a b t v)).headD 0))) := by
  show execPqPut a b t v s = _
  rw [execPqPut]
  simp only [hb]
  exact congrArg Host.Outcome.next (State.issueVal_bad hi _ _ _)

theorem pqPut_unowned (hi : s.issues ⟨[(a, t), (b, v)], [], [], []⟩ = true) (hb : parcelBad (s.val b).toNat = false) (ho : s.myOwner = none) :
    exec (.pqPut a b t v) s = .next s.noOwner := by
  show execPqPut a b t v s = _
  simp only [execPqPut, hb, State.issueVal_go hi, ho]

theorem pqPut_full (hi : s.issues ⟨[(a, t), (b, v)], [], [], []⟩ = true) (hb : parcelBad (s.val b).toNat = false) {id : Nat} (ho : s.myOwner = some id)
    (hf : (s.tile (tileOf s.cur.1)).freeSlot = none) : exec (.pqPut a b t v) s = .next (s.parkMe .parcelSlot) := by
  show execPqPut a b t v s = _
  simp only [execPqPut, hb, State.issueVal_go hi, ho, enqueue_none _ hf]

theorem pqPut_room (hi : s.issues ⟨[(a, t), (b, v)], [], [], []⟩ = true) (hb : parcelBad (s.val b).toNat = false) {id i : Nat} (ho : s.myOwner = some id)
    (hf : (s.tile (tileOf s.cur.1)).freeSlot = some i) :
    exec (.pqPut a b t v) s = .next (((({ s with nid := s.nid + 1 } : State).setTile (tileOf s.cur.1) { s.tile (tileOf s.cur.1) with parcels := (s.tile (tileOf s.cur.1)).parcels ++
      [{ slot := i, e := s.val a, p := s.val b, st := .queued, order := s.nid, since := s.cycle, owner := s.cube, borrowed := none, launch := id }] }).popAll [(a, t), (b, v)]).finish (.pqPut a b t v)) := by
  show execPqPut a b t v s = _
  simp only [execPqPut, hb, State.issueVal_go hi, ho, enqueue_some _ hf]
  rfl

end

/-! ### `pq.take` (R164) -/

/-- The older of a choice so far and a parcel, if the parcel may be taken. -/
def olderOf (ok : Parcel → Bool) (acc : Option Parcel) (p : Parcel) : Option Parcel :=
  if ok p then
    match acc with
    | none => some p
    | some q => if p.order < q.order then some p else some q
  else acc

theorem takeable_eq (s : State) (t : Nat) : s.takeable t = (s.tile t).parcels.foldl (olderOf (fun p => p.queued && s.meets t p.p)) none := rfl

/-- One step keeps the older: what stands is the parcel or what stood, and nothing allowed is older. -/
theorem olderOf_spec (ok : Parcel → Bool) (acc : Option Parcel) (p : Parcel) :
    (∀ r, olderOf ok acc p = some r → (r = p ∧ ok p = true) ∨ acc = some r)
      ∧ (ok p = true → ∃ r, olderOf ok acc p = some r ∧ r.order ≤ p.order)
      ∧ ∀ q, acc = some q → ∃ r, olderOf ok acc p = some r ∧ r.order ≤ q.order := by
  unfold olderOf
  by_cases hp : ok p = true
  · cases acc with
    | none => simp [hp, eq_comm]
    | some q =>
      by_cases hlt : p.order < q.order
      · simp [hp, hlt, hlt.le, eq_comm]
      · simp [hp, hlt, not_lt.mp hlt]
  · simp only [hp, if_false, Bool.false_eq_true, and_false, false_implies, true_and]
    exact ⟨fun r h => .inr h, fun q h => ⟨q, h, le_rfl⟩⟩

theorem foldl_olderOf_spec (ok : Parcel → Bool) (l : List Parcel) (acc : Option Parcel) :
    (∀ r, l.foldl (olderOf ok) acc = some r → (r ∈ l ∧ ok r = true) ∨ acc = some r)
      ∧ (∀ p ∈ l, ok p = true → ∃ r, l.foldl (olderOf ok) acc = some r ∧ r.order ≤ p.order)
      ∧ ∀ q, acc = some q → ∃ r, l.foldl (olderOf ok) acc = some r ∧ r.order ≤ q.order := by
  induction l generalizing acc with
  | nil => exact ⟨fun r h => .inr h, by simp, fun q h => ⟨q, h, le_rfl⟩⟩
  | cons p l ih =>
    obtain ⟨i1, i2, i3⟩ := ih (olderOf ok acc p)
    obtain ⟨o1, o2, o3⟩ := olderOf_spec ok acc p
    refine ⟨fun r h => ?_, fun q hq hok => ?_, fun q h => ?_⟩
    · rcases i1 r h with ⟨hr, hok⟩ | hr
      · exact .inl ⟨List.mem_cons_of_mem _ hr, hok⟩
      · exact (o1 r hr).imp (fun ⟨he, hok⟩ => ⟨he ▸ List.mem_cons_self, he ▸ hok⟩) id
    · rcases List.mem_cons.mp hq with rfl | hq
      · obtain ⟨r, hr, hle⟩ := o2 hok
        obtain ⟨r', hr', hle'⟩ := i3 r hr
        exact ⟨r', hr', hle'.trans hle⟩
      · exact i2 q hq hok
    · obtain ⟨r, hr, hle⟩ := o3 q h
      obtain ⟨r', hr', hle'⟩ := i3 r hr
      exact ⟨r', hr', hle'.trans hle⟩

theorem queued_iff (p : Parcel) : p.queued = true ↔ p.st = .queued := by
  unfold Parcel.queued
  cases p.st <;> simp

/-- What may be taken is the oldest QUEUED parcel that the tile meets (R164). -/
theorem takeable_spec {s : State} {k : Nat} {p : Parcel} (h : s.takeable k = some p) : p ∈ (s.tile k).parcels ∧ p.st = .queued ∧ s.meets k p.p = true
    ∧ ∀ q ∈ (s.tile k).parcels, q.st = .queued → s.meets k q.p = true → p.order ≤ q.order := by
  obtain ⟨h1, h2, -⟩ := foldl_olderOf_spec (fun p => p.queued && s.meets k p.p) (s.tile k).parcels none
  rw [← takeable_eq] at h1 h2
  obtain ⟨hm, hok⟩ := (h1 p h).resolve_right (by simp)
  obtain ⟨hq, hmeets⟩ := Bool.and_eq_true_iff.mp hok
  refine ⟨hm, (queued_iff p).mp hq, hmeets, fun q hmq hqq hqm => ?_⟩
  obtain ⟨r, hr, hle⟩ := h2 q hmq (Bool.and_eq_true_iff.mpr ⟨(queued_iff q).mpr hqq, hqm⟩)
  rw [h] at hr
  cases hr
  exact hle

section
variable {s : State} {d e : Reg}

theorem pqTake_unowned (hi : s.issues ⟨[], [], [], [d, e]⟩ = true) (he : Fin.ofNat 64 (d.val + 1) = e) (ho : s.myOwner = none) : exec (.pqTake d) s = .next s.noOwner := by
  show execPqTake d s = _
  simp only [execPqTake, he, State.issue_go hi, ho]

theorem pqTake_takes (hi : s.issues ⟨[], [], [], [d, e]⟩ = true) (he : Fin.ofNat 64 (d.val + 1) = e) {id : Nat} (ho : s.myOwner = some id) {p : Parcel}
    (hp : s.takeable (tileOf s.cur.1) = some p) :
    exec (.pqTake d) s = .next (((s.mapParcel (tileOf s.cur.1) p.slot (fun _ => { p with st := .taken s.agent })).setSelf
      ((s.self.write d.val p.e).write e.val { p with st := .taken s.agent }.word)).finish (.pqTake d)) := by
  show execPqTake d s = _
  simp only [execPqTake, he, State.issue_go hi, ho, hp]
  rfl

theorem pqTake_none (hi : s.issues ⟨[], [], [], [d, e]⟩ = true) (he : Fin.ofNat 64 (d.val + 1) = e) {id : Nat} (ho : s.myOwner = some id)
    (hp : s.takeable (tileOf s.cur.1) = none) :
    exec (.pqTake d) s = .next (if s.workLeft id then s.parkMe .parcel else (s.setSelf ((s.self.write d.val 0).write e.val 0)).finish (.pqTake d)) := by
  show execPqTake d s = _
  simp only [execPqTake, he, State.issue_go hi, ho, hp]

end

/-! ### `pq.done` and `pq.cnt` (R165, R166) -/

/-- The parcel that a P word names is one that the running thread has taken. -/
def isMine (s : State) (v : Word) (q : Parcel) : Prop := q.st = .taken s.agent ∧ q.slot = bits v.toNat 55 48 ∧ q.index = v.toNat % 2 ^ 24

theorem mine_test (s : State) (v : Word) (q : Parcel) :
    (q.slot == bits v.toNat 55 48 && q.index == v.toNat % 2 ^ 24 && q.st == .taken s.agent) = true ↔ isMine s v q := by
  simp only [Bool.and_eq_true, beq_iff_eq, isMine]
  tauto

theorem mine_none {s : State} {v : Word} (h : ∀ j, ∀ q ∈ (s.tile j).parcels, ¬ isMine s v q) : s.mine v = none := by
  rw [State.mine, List.findSome?_eq_none_iff]
  intro j _
  rw [Option.map_eq_none_iff, List.find?_eq_none]
  exact fun q hq ht => h j q hq ((mine_test s v q).mp ht)

theorem mine_some {s : State} {v : Word} {j : Nat} {p : Parcel} (h : s.mine v = some (j, p)) : p ∈ (s.tile j).parcels ∧ isMine s v p
    ∧ ((∃ q ∈ (s.tile (tileOf s.cur.1)).parcels, isMine s v q) → j = tileOf s.cur.1) := by
  refine ⟨?_, ?_, ?_⟩
  · obtain ⟨k, -, hk⟩ := List.exists_of_findSome?_eq_some h
    obtain ⟨q, hq, he⟩ := Option.map_eq_some_iff.mp hk
    cases he
    exact List.mem_of_find?_eq_some hq
  · obtain ⟨k, -, hk⟩ := List.exists_of_findSome?_eq_some h
    obtain ⟨q, hq, he⟩ := Option.map_eq_some_iff.mp hk
    cases he
    have ht := List.find?_some hq
    exact (mine_test s v p).mp ht
  · rintro ⟨q, hq, hmine⟩
    rw [State.mine, List.findSome?_cons] at h
    cases hf : (s.tile (tileOf s.cur.1)).parcels.find? (fun q => q.slot == bits v.toNat 55 48 && q.index == v.toNat % 2 ^ 24 && q.st == .taken s.agent) with
    | none => exact absurd ((mine_test s v q).mpr hmine) (List.find?_eq_none.mp hf q hq)
    | some r =>
      rw [hf] at h
      simp only [Option.map_some, Option.some.injEq, Prod.mk.injEq] at h
      exact h.1.symm

section
variable {s : State} {a : Reg} {t : Bool}

theorem pqDone_none (hi : s.issues ⟨[(a, t)], [], [], []⟩ = true) (hm : s.mine (s.val a) = none) :
    exec (.pqDone a t) s = .next (s.trap 0x01 0x0D (BitVec.ofNat 64 ((encode (.pqDone a t)).headD 0))) := by
  show execPqDone a t s = _
  rw [execPqDone, hm]
  exact congrArg Host.Outcome.next (State.issueVal_bad hi _ _ _)

theorem pqDone_own (hi : s.issues ⟨[(a, t)], [], [], []⟩ = true) {j : Nat} {p : Parcel} (hm : s.mine (s.val a) = some (j, p)) (hb : p.borrowed = none) :
    exec (.pqDone a t) s = .next (({ s.popAll [(a, t)] with
      tiles := (s.setTile j { s.tile j with parcels := (s.tile j).parcels.filter (fun (q : Parcel) => q.slot ≠ p.slot) }).tiles
      launches := s.launches.map (fun (l : Launch) => if l.id = p.launch then { l with done := l.done + 1 } else l) } : State).finish (.pqDone a t)) := by
  show execPqDone a t s = _
  simp only [execPqDone, hm, Option.isNone_some, State.issueVal_go hi]
  obtain ⟨q, c, h⟩ := popAll_frame s [(a, t)]
  rw [h, State.reportDone, hb]
  rfl

end

theorem pqCnt_eq {s : State} {d : Reg} (hi : s.issues ⟨[], [], [d], []⟩ = true) {id : Nat} (ho : s.myOwner = some id) :
    exec (.pqCnt d) s = .next (s.retire (.pqCnt d) ⟨[], [], [d], []⟩ d (BitVec.ofNat 64 ((s.tile (tileOf s.cur.1)).queuedCount
      + ((s.tile (tileOf s.cur.1)).parcels.filter (·.isTaken)).length * 2 ^ 16 + (s.tile (tileOf s.cur.1)).freeSlots * 2 ^ 32))) := by
  show execPqCnt d s = _
  simp only [execPqCnt, State.issue_go hi, ho]

theorem queuedCount_eq (t : TileSt) : t.queuedCount = (t.parcels.filter (fun q => q.st == .queued)).length := by
  refine congrArg List.length (List.filter_congr (fun q _ => Bool.eq_iff_iff.mpr ?_))
  rw [queued_iff, beq_iff_eq]

/-! ### `pq.steal` (R463) -/

/-- Reserving slots for a steal changes one tile's queue, and adds only parcels held for it. -/
theorem reserveSlots_spec (s : State) (t req id n : Nat) : ∃ x, s.reserveSlots t req id n = { s with tiles := x }
    ∧ ∀ p, p ∈ ((s.reserveSlots t req id n).tile t).parcels → p ∈ (s.tile t).parcels ∨ p.st = .held req := by
  induction n generalizing s with
  | zero => exact ⟨_, rfl, fun p hp => .inl hp⟩
  | succ n ih =>
    obtain ⟨x, hx, hp⟩ := ih (s.reserveSlot t req id)
    have hone : ∃ y, s.reserveSlot t req id = { s with tiles := y } ∧ ∀ p, p ∈ ((s.reserveSlot t req id).tile t).parcels → p ∈ (s.tile t).parcels ∨ p.st = .held req := by
      unfold State.reserveSlot
      cases (s.tile t).freeSlot with
      | none => exact ⟨_, rfl, fun p hp => .inl hp⟩
      | some i =>
        refine ⟨_, rfl, fun p hp => ?_⟩
        rw [State.tile_setTile_self] at hp
        rcases List.mem_append.mp hp with hp | hp
        · exact .inl hp
        · rw [List.mem_singleton.mp hp]; exact .inr rfl
    obtain ⟨y, hy, hq⟩ := hone
    refine ⟨x, hx.trans (by rw [hy]), fun p h => ?_⟩
    exact (hp p h).elim (hq p) .inr

/-- The request of a steal, on its way to the victim. -/
def stealSent (s : State) (req victim : Nat) : State :=
  { s with reqs := s.reqs.map (fun (r : Req) => if r.id = req then { r with pa := victim, remote := true, sent := true } else r) }

section
variable {s : State} {d a : Reg} {id : Nat} {g : Group} {m : Member}

/-- A well-formed `pq.steal` of a member on an owned tile (R463). -/
theorem pqSteal_eq (hi : s.issues ⟨[(a, false)], [], [d], []⟩ = true) (hv : (s.val a).toNat < 2 ^ 45) (ho : s.myOwner = some id)
    (hg : s.group s.self.tenant ((s.val a).toNat % 2 ^ 32) = some g) (hm : g.member s.agent = some m) :
    exec (.pqSteal d a) s = .next (
      if !g.multi || (s.val a).toNat / 2 ^ 32 == s.cube then ((s.popAll [(a, false)]).later d 6).finish (.pqSteal d a)
      else if min 32 (256 - (s.tile (tileOf s.cur.1)).parcels.length) = 0 then ((s.popAll [(a, false)]).later d 0).finish (.pqSteal d a)
      else ((stealSent (((s.popAll [(a, false)]).producer d).2.reserveSlots (tileOf s.cur.1) s.nid id (min 32 (256 - (s.tile (tileOf s.cur.1)).parcels.length))) s.nid ((s.val a).toNat / 2 ^ 32)).sendTo
        ((s.val a).toNat / 2 ^ 32) 3 .stealRequest { EvArg.zero with a := s.cube, b := s.nid, c := min 32 (256 - (s.tile (tileOf s.cur.1)).parcels.length), d := tileOf s.cur.1, e := g.handle, words := [BitVec.ofNat 64 s.self.tenant, BitVec.ofNat 64 s.self.job, BitVec.ofNat 64 (s.array (tileOf s.cur.1)).rows, BitVec.ofNat 64 (s.array (tileOf s.cur.1)).cols] }).finish (.pqSteal d a)) := by
  show execPqSteal d a s = _
  have hw : (BitVec.ofNat 64 ((s.val a).toNat % 2 ^ 32) : Word).toNat = (s.val a).toNat % 2 ^ 32 := by
    rw [BitVec.toNat_ofNat]; exact Nat.mod_eq_of_lt (by omega)
  have hlt : (BitVec.ofNat 64 ((s.val a).toNat % 2 ^ 32) : Word).toNat < 2 ^ 32 := by rw [hw]; omega
  have hmem : s.memberOf (BitVec.ofNat 64 ((s.val a).toNat % 2 ^ 32)) = some (g, m) :=
    memberOf_some ((groupOf_handle hlt s).trans (by rw [hw]; exact hg)) hm
  have hform : (decide ((s.val a).toNat / 2 ^ 45 ≠ 0) || (some (g, m)).isNone) = false := by
    rw [Nat.div_eq_of_lt hv]; rfl
  have hvictim : bits (s.val a).toNat 44 32 = (s.val a).toNat / 2 ^ 32 := by
    unfold bits; omega
  have hfree : ((s.popAll [(a, false)]).tile (tileOf s.cur.1)).freeSlots = (256 - (s.tile (tileOf s.cur.1)).parcels.length) := by
    obtain ⟨_, _, h⟩ := popAll_frame s [(a, false)]; rw [h]; rfl
  have hcube : (s.popAll [(a, false)]).cube = s.cube := by obtain ⟨_, _, h⟩ := popAll_frame s [(a, false)]; rw [h]
  have hnid : (s.popAll [(a, false)]).nid = s.nid := by obtain ⟨_, _, h⟩ := popAll_frame s [(a, false)]; rw [h]
  have harr : ((s.popAll [(a, false)]).producer d).2.array (tileOf s.cur.1) = s.array (tileOf s.cur.1) := by
    obtain ⟨_, _, _, _, h⟩ := producer_frame (s.popAll [(a, false)]) d
    obtain ⟨_, _, h'⟩ := popAll_frame s [(a, false)]
    rw [h, h']; rfl
  have hrcube : ∀ n, (((s.popAll [(a, false)]).producer d).2.reserveSlots (tileOf s.cur.1) s.nid id n).cube = s.cube := fun n => by
    obtain ⟨x, h, -⟩ := reserveSlots_spec ((s.popAll [(a, false)]).producer d).2 (tileOf s.cur.1) s.nid id n
    rw [h]; exact (producer_cube _ d).trans hcube
  unfold execPqSteal
  simp only [hform, State.issueVal_go hi, ho, hmem, hvictim, hfree, hcube, producer_id, hnid, harr, popAll_self]
  refine congrArg Host.Outcome.next (if_congr Iff.rfl rfl (if_congr Iff.rfl rfl ?_))
  rw [← hrcube (min 32 (256 - (s.tile (tileOf s.cur.1)).parcels.length))]
  rfl

end

/-! ### Diffusion (R168) -/

theorem diffuse_spec (s : State) (a b : Nat) : (s.diffuse a b).length ≤ 256 - (s.tile b).parcels.length
    ∧ (∀ p ∈ s.diffuse a b, p ∈ (s.tile a).parcels ∧ p.st = .queued ∧ p.migratable = true ∧ p.borrowed = none ∧ s.meets b p.p = true)
    ∧ ((s.diffuse a b).filter (fun p => s.meets a p.p)).length ≤ ((s.tile a).queuedCount - (s.tile b).queuedCount) / 4
    ∧ ((s.diffuse a b).length < 256 - (s.tile b).parcels.length → ∀ p ∈ (s.tile a).parcels, p.st = .queued → p.migratable = true → p.borrowed = none →
      s.meets b p.p = true → s.meets a p.p = false → p ∈ s.diffuse a b) := by
  have helig : ∀ p, p ∈ ((s.tile a).parcels.filter (fun p => p.queued && p.migratable && p.borrowed.isNone && s.meets b p.p)).reverse ↔
      p ∈ (s.tile a).parcels ∧ p.st = .queued ∧ p.migratable = true ∧ p.borrowed = none ∧ s.meets b p.p = true := fun p => by
    simp only [List.mem_reverse, List.mem_filter, Bool.and_eq_true, queued_iff, Option.isNone_iff_eq_none, and_assoc]
  unfold State.diffuse
  dsimp only
  generalize ((s.tile a).parcels.filter (fun p => p.queued && p.migratable && p.borrowed.isNone && s.meets b p.p)).reverse = elig at helig
  generalize ((s.tile a).queuedCount - (s.tile b).queuedCount) / 4 = quota
  have hfree : (s.tile b).freeSlots = 256 - (s.tile b).parcels.length := rfl
  rw [hfree]
  generalize 256 - (s.tile b).parcels.length = free
  refine ⟨List.length_take_le _ _, fun p hp => ?_, ?_, fun hlen p hp h1 h2 h3 h4 h5 => ?_⟩
  · rcases List.mem_append.mp (List.mem_of_mem_take hp) with hp | hp
    · exact (helig p).mp (List.mem_of_mem_filter hp)
    · exact (helig p).mp (List.mem_of_mem_filter (List.mem_of_mem_take hp))
  · have hno : (elig.filter (fun p => !s.meets a p.p)).filter (fun p => s.meets a p.p) = [] :=
      List.filter_eq_nil_iff.mpr (fun p hp h => by simp [h] at hp)
    calc (((elig.filter (fun p => !s.meets a p.p) ++ (elig.filter (fun p => s.meets a p.p)).take (quota - (elig.filter (fun p => !s.meets a p.p)).length)).take free).filter
          (fun p => s.meets a p.p)).length
        ≤ ((elig.filter (fun p => !s.meets a p.p) ++ (elig.filter (fun p => s.meets a p.p)).take (quota - (elig.filter (fun p => !s.meets a p.p)).length)).filter
          (fun p => s.meets a p.p)).length := ((List.take_sublist _ _).filter _).length_le
      _ ≤ ((elig.filter (fun p => s.meets a p.p)).take (quota - (elig.filter (fun p => !s.meets a p.p)).length)).length := by
          rw [List.filter_append, hno, List.nil_append]; exact List.length_filter_le _ _
      _ ≤ quota := (List.length_take_le _ _).trans (Nat.sub_le _ _)
  · have hmem : p ∈ elig.filter (fun p => !s.meets a p.p) := List.mem_filter.mpr ⟨(helig p).mpr ⟨hp, h1, h2, h3, h4⟩, by rw [h5]; rfl⟩
    rw [List.take_of_length_le]
    · exact List.mem_append_left _ hmem
    · rw [List.length_take] at hlen
      omega

theorem pairOf_spec (p t b : Nat) (ht : t < 128) : pairOf p t = some b ↔ b < 128 ∧ ((p % 4 < 2 ∧ b / 16 = t / 16 ∧ (if t % 16 % 2 = p % 2 then b = t + 1 else b + 1 = t))
    ∨ (2 ≤ p % 4 ∧ b % 16 = t % 16 ∧ (if t / 16 % 2 = p % 2 then b = t + 16 else b + 16 = t))) := by
  have hq : p % 4 % 2 = p % 2 := by omega
  have hlt : p % 4 < 4 := Nat.mod_lt _ (by norm_num)
  simp only [pairOf, hq]
  by_cases h2 : p % 4 < 2
  · simp only [h2, if_true, not_le.mpr h2, false_and, or_false, true_and]
    by_cases hc : t % 16 % 2 = p % 2
    · simp only [hc, if_true]; split <;> simp only [Option.some.injEq, reduceCtorEq, false_iff] <;> omega
    · simp only [hc, if_false]; split <;> simp only [Option.some.injEq, reduceCtorEq, false_iff] <;> omega
  · simp only [h2, if_false, not_lt.mp h2, false_and, false_or, true_and]
    by_cases hc : t / 16 % 2 = p % 2
    · simp only [hc, if_true]; split <;> simp only [Option.some.injEq, reduceCtorEq, false_iff] <;> omega
    · simp only [hc, if_false]; split <;> simp only [Option.some.injEq, reduceCtorEq, false_iff] <;> omega

/-- Parcels leave their queues and move: nothing else changes. -/
def SetsMoving (s u : State) : Prop :=
  u = { s with tiles := u.tiles, moving := u.moving } ∧ (∃ l, u.moving = s.moving ++ l) ∧ ∀ t, ∀ p ∈ (u.tile t).parcels, p ∈ (s.tile t).parcels

theorem SetsMoving.refl (s : State) : SetsMoving s s := ⟨rfl, ⟨[], by simp⟩, fun _ _ hp => hp⟩

theorem SetsMoving.trans {s u v : State} (h : SetsMoving s u) (h' : SetsMoving u v) : SetsMoving s v := by
  obtain ⟨e, ⟨l, hl⟩, hp⟩ := h
  obtain ⟨e', ⟨l', hl'⟩, hp'⟩ := h'
  exact ⟨e'.trans (by rw [e]), ⟨l ++ l', by rw [hl', hl, List.append_assoc]⟩, fun t p h => hp t p (hp' t p h)⟩

theorem setsMoving_one (s : State) (a b : Nat) (q : Parcel) : SetsMoving s { s.dropParcel a q.slot with moving := s.moving ++ [(b, q)] } := by
  refine ⟨rfl, ⟨_, rfl⟩, fun t p hp => ?_⟩
  have hp' : p ∈ ((s.dropParcel a q.slot).tile t).parcels := hp
  by_cases ht : t = a
  · subst ht
    rw [State.dropParcel, State.tile_setTile_self] at hp'
    exact List.mem_of_mem_filter hp'
  · rwa [State.dropParcel, State.tile_setTile_ne _ _ _ _ ht] at hp'

theorem setsMoving_foldl (l : List (Nat × Nat × Parcel)) (s : State) :
    SetsMoving s (l.foldl (fun s m => { s.dropParcel m.1 m.2.2.slot with moving := s.moving ++ [(m.2.1, m.2.2)] }) s) :=
  foldl_related .refl .trans _ (fun s m => setsMoving_one s m.1 m.2.1 m.2.2) l s

/-- A period moves parcels, and the machine notes it. -/
theorem diffusionPeriod_spec (s : State) : ∃ v, SetsMoving s v ∧ exec .diffusionPeriod s = .next { v with diffused := s.cycle / 256 + 1 } :=
  ⟨_, setsMoving_foldl _ s, rfl⟩

theorem diffusionPeriod_unowned {s : State} (h : ∀ t, t < 128 → (s.tile t).owner = none) : exec .diffusionPeriod s = .next { s with diffused := s.cycle / 256 + 1 } := by
  show execDiffusionPeriod s = _
  have hpairs : ∀ f : Nat → Option (Nat × Nat), (∀ a, a < 128 → f a = none) → (upTo 128).filterMap f = [] := fun f hf =>
    List.filterMap_eq_nil_iff.mpr (fun a ha => hf a (List.mem_range.mp ha))
  unfold execDiffusionPeriod
  dsimp only
  rw [hpairs _ (fun a ha => ?_)]
  · rfl
  · cases pairOf (s.cycle / 256) a with
    | none => rfl
    | some b => simp only [h a ha, Option.isSome_none, Bool.false_and, Bool.false_eq_true, if_false]

/-! ### Arrivals and the backlog (R162, R173) -/

theorem parcelArrival_room {s : State} {t i : Nat} {p : Parcel} {r : List (Nat × Parcel)} (hmv : s.moving = (t, p) :: r) (hf : (s.tile t).freeSlot = some i) :
    exec .parcelArrival s = .next (({ s with moving := r, nid := s.nid + 1 } : State).setTile t
      { s.tile t with parcels := (s.tile t).parcels ++ [{ p with slot := i, st := .queued, order := s.nid, since := s.cycle }] }) := by
  show execParcelArrival s = _
  simp only [execParcelArrival, hmv, enqueue_some _ hf]
  rfl

theorem parcelArrival_full {s : State} {t : Nat} {p : Parcel} {r : List (Nat × Parcel)} (hmv : s.moving = (t, p) :: r) (hf : (s.tile t).freeSlot = none) :
    exec .parcelArrival s = .next { s with moving := r ++ [(t, p)] } := by
  show execParcelArrival s = _
  simp only [execParcelArrival, hmv, enqueue_none _ hf]

/-- Without moved parcels the backlog holds the next undealt one. -/
theorem feedChoice_undealt {s : State} {l : Launch} {t : Nat} (hm : l.moved = []) (hn : l.next < l.count) (ht : s.feedTile l.id (l.parcelP l.next) = some t) :
    s.feedChoice l = some (l.next, none, l.argument, l.parcelP l.next, t) := by
  have hb : s.backlog l = [(l.next, none)] := by
    simp [State.backlog, hm, hn, sortNats, insertSorted]
  rw [State.feedChoice, hb]
  simp only [List.findSome?_cons, ht, Option.map_some]

theorem backlogFeed_undealt {s u : State} {l : Launch} {t : Nat} (hb : s.arg.b = 0) (hl : s.launch s.arg.a = some l) (hm : l.moved = []) (hn : l.next < l.count)
    (ht : s.feedTile l.id (l.parcelP l.next) = some t) (hu : s.enqueue t (s.parcelOf l.id l.argument (l.parcelP l.next)) = some u) :
    exec .backlogFeed s = .next (({ u with launches := u.launches.map (fun (m : Launch) => if m.id = l.id then { m with next := m.next + 1 } else m) }).evaluate l.id 0x7F) := by
  show execBacklogFeed s = _
  have hsp : s.spoilt l = none := by rw [State.spoilt, hm]; rfl
  have hno : ¬ (0 : Nat) = 2 ^ 40 := by norm_num
  simp only [execBacklogFeed, hl, hb, hno, if_false, lt_irrefl, hm, List.any_nil, Bool.false_eq_true, hsp, feedChoice_undealt hm hn ht, State.feedTo, hu]
  rfl

/-- The first of the greatest of an ascending list, folded. -/
theorem foldl_argmax_spec (f : Nat → Nat) (l : List Nat) (a : Nat) (hs : (a :: l).Pairwise (· < ·)) :
    l.foldl (fun a b => if f a < f b then b else a) a ∈ a :: l
      ∧ ∀ u ∈ a :: l, f u ≤ f (l.foldl (fun a b => if f a < f b then b else a) a) ∧ (f u = f (l.foldl (fun a b => if f a < f b then b else a) a) →
        l.foldl (fun a b => if f a < f b then b else a) a ≤ u) := by
  induction l generalizing a with
  | nil => simp
  | cons b l ih =>
    obtain ⟨ha, hbl⟩ := List.pairwise_cons.mp hs
    obtain ⟨hb, hl⟩ := List.pairwise_cons.mp hbl
    have hab : a < b := ha b List.mem_cons_self
    rw [List.foldl_cons]
    by_cases hlt : f a < f b
    · rw [if_pos hlt]
      obtain ⟨hm, hmax⟩ := ih b hbl
      obtain ⟨hb1, -⟩ := hmax b List.mem_cons_self
      refine ⟨List.mem_cons_of_mem _ hm, fun u hu => ?_⟩
      rcases List.mem_cons.mp hu with rfl | hu
      · exact ⟨by omega, fun he => by omega⟩
      · exact hmax u hu
    · rw [if_neg hlt]
      obtain ⟨hm, hmax⟩ := ih a (List.pairwise_cons.mpr ⟨fun x hx => ha x (List.mem_cons_of_mem _ hx), hl⟩)
      obtain ⟨ha1, ha2⟩ := hmax a List.mem_cons_self
      refine ⟨?_, fun u hu => ?_⟩
      · exact (List.mem_cons.mp hm).elim (fun h => by rw [h]; exact List.mem_cons_self) (fun h => List.mem_cons_of_mem _ (List.mem_cons_of_mem _ h))
      · rcases List.mem_cons.mp hu with rfl | hu
        · exact ⟨ha1, ha2⟩
        · rcases List.mem_cons.mp hu with rfl | hu
          · refine ⟨by omega, fun he => ?_⟩
            have := ha2 (by omega)
            omega
          · exact hmax u (List.mem_cons_of_mem _ hu)

/-- A backlog parcel goes to the tile that meets it with most free slots, the lowest of several (R173). -/
theorem feedTile_spec {s : State} {id t : Nat} {p : Word} (h : s.feedTile id p = some t) : (s.tile t).owner = some id ∧ s.meets t p = true ∧ 0 < (s.tile t).freeSlots
    ∧ ∀ u, u < 128 → (s.tile u).owner = some id → s.meets u p = true → (s.tile u).freeSlots ≤ (s.tile t).freeSlots ∧ ((s.tile u).freeSlots = (s.tile t).freeSlots → t ≤ u) := by
  have hmem : ∀ u, u ∈ (s.cluster id).filter (fun t => s.meets t p && decide (0 < (s.tile t).freeSlots)) ↔
      u < 128 ∧ (s.tile u).owner = some id ∧ s.meets u p = true ∧ 0 < (s.tile u).freeSlots := fun u => by
    simp only [State.cluster, upTo, List.mem_filter, List.mem_range, beq_iff_eq, Bool.and_eq_true, decide_eq_true_eq, and_assoc]
  have hsorted : ((s.cluster id).filter (fun t => s.meets t p && decide (0 < (s.tile t).freeSlots))).Pairwise (· < ·) :=
    (List.pairwise_lt_range.filter _).filter _
  unfold State.feedTile at h
  dsimp only at h
  generalize (s.cluster id).filter (fun t => s.meets t p && decide (0 < (s.tile t).freeSlots)) = l at h hmem hsorted
  cases l with
  | nil => cases h
  | cons a l =>
    obtain ⟨hm, hmax⟩ := foldl_argmax_spec (fun t => (s.tile t).freeSlots) l a hsorted
    have ht := Option.some.inj h
    rw [ht] at hm hmax
    obtain ⟨-, ho, hmeets, hpos⟩ := (hmem t).mp hm
    refine ⟨ho, hmeets, hpos, fun u hu huo hum => ?_⟩
    by_cases h0 : 0 < (s.tile u).freeSlots
    · exact hmax u ((hmem u).mpr ⟨hu, huo, hum, h0⟩)
    · exact ⟨by omega, fun he => by omega⟩

/-- The fields of a dealt parcel's P (R161, R173). -/
theorem parcelP_spec (l : Launch) (i : Nat) (hi : i < 2 ^ 24) : (l.parcelP i).toNat % 2 ^ 24 = i ∧ bits (l.parcelP i).toNat 29 27 = bits (l.dword 3) 51 49
    ∧ bits (l.parcelP i).toNat 26 24 = bits (l.dword 3) 48 46 ∧ bitAt (l.parcelP i).toNat 31 = bitAt (l.dword 3) 45 ∧ bitAt (l.parcelP i).toNat 30 = bitAt (l.dword 3) 44 := by
  have hp : (l.parcelP i).toNat = (i % 2 ^ 24 + bits (l.dword 3) 48 46 * 2 ^ 24 + bits (l.dword 3) 51 49 * 2 ^ 27 + bits (l.dword 3) 44 44 * 2 ^ 30 + bits (l.dword 3) 45 45 * 2 ^ 31) % 2 ^ 64 :=
    BitVec.toNat_ofNat _ _
  have h1 : bits (l.dword 3) 48 46 < 8 := Nat.mod_lt _ (by norm_num)
  have h2 : bits (l.dword 3) 51 49 < 8 := Nat.mod_lt _ (by norm_num)
  have h3 : bits (l.dword 3) 44 44 = l.dword 3 / 2 ^ 44 % 2 := rfl
  have h4 : bits (l.dword 3) 45 45 = l.dword 3 / 2 ^ 45 % 2 := rfl
  rw [hp, h3, h4]
  generalize bits (l.dword 3) 48 46 = x at h1
  generalize bits (l.dword 3) 51 49 = y at h2
  simp only [bitAt, beq_eq_beq, bits]
  generalize l.dword 3 / 2 ^ 44 = z
  generalize l.dword 3 / 2 ^ 45 = w
  refine ⟨by omega, by omega, by omega, ?_, ?_⟩ <;> omega

/-- Settles O28: every parcel instruction acts on the queue of its own tile, and what moves by itself is what the rules of diffusion and of the backlog choose. -/
theorem parcels : Obligations.Parcels := by
  unfold Obligations.Parcels
  refine ⟨⟨?put, ?take, ?done, ?cnt, ?steal⟩, fun s a b l hl => hl ▸ diffuse_spec s a b, pairOf_spec, fun s h => diffusionPeriod_unowned h, ?period, ?arrival,
    fun s u l t hb hl hm hn ht hu => backlogFeed_undealt hb hl hm hn ht hu, fun s id t p h => feedTile_spec h, ?dealt⟩
  case put =>
    rintro s a b t v k id p hi rfl rfl hc
    refine ⟨fun hb => pqPut_bad hi ((parcelBad_iff _).mpr hb), fun h1 h2 h3 => ?_⟩
    have hok : parcelBad (s.val b).toNat = false := by
      rw [Bool.eq_false_iff, Ne, parcelBad_iff]
      rintro (h | h | h)
      · exact h h1
      · exact absurd h2 (not_lt.mpr h)
      · exact absurd h3 (not_lt.mpr h)
    exact ⟨fun ho => pqPut_unowned hi hok ((myOwner_tile hc).trans ho), fun ho hf => pqPut_full hi hok ((myOwner_tile hc).trans ho) (freeSlot_eq_none hf),
      fun i ho hlt hf hlow => pqPut_room hi hok ((myOwner_tile hc).trans ho) (freeSlot_eq_some hlt hf hlow)⟩
  case take =>
    rintro s d e k id hi he rfl hc
    have he' : Fin.ofNat 64 (d.val + 1) = e := by
      apply Fin.ext
      rw [Fin.val_ofNat, ← he]
      exact Nat.mod_eq_of_lt e.isLt
    refine ⟨fun ho => pqTake_unowned hi he' ((myOwner_tile hc).trans ho), fun p ho hp => ⟨_, rfl, pqTake_takes hi he' ((myOwner_tile hc).trans ho) hp⟩,
      fun ho hp hw => ?_, fun ho hp hw => ?_, fun p hp => takeable_spec hp⟩
    · exact (pqTake_none hi he' ((myOwner_tile hc).trans ho) hp).trans (congrArg Host.Outcome.next (if_pos hw))
    · exact (pqTake_none hi he' ((myOwner_tile hc).trans ho) hp).trans (congrArg Host.Outcome.next (if_neg (Bool.eq_false_iff.mp hw)))
  case done =>
    rintro s a t k v hi rfl rfl
    refine ⟨fun h => pqDone_none hi (mine_none fun j q hq ⟨h1, h2, h3⟩ => h j q hq h1 h2 h3), fun j p hm => ?_, fun j p hm hb => pqDone_own hi hm hb⟩
    obtain ⟨hmem, ⟨hst, hslot, hidx⟩, hhere⟩ := mine_some hm
    exact ⟨hmem, hst, hslot, hidx, fun ⟨q, hq, h1, h2, h3⟩ => hhere ⟨q, hq, h1, h2.trans hslot, h3.trans hidx⟩⟩
  case cnt =>
    rintro s d k id c hi rfl hc rfl ho
    rw [pqCnt_eq hi ((myOwner_tile hc).trans ho), queuedCount_eq]
    rfl
  case steal =>
    rintro s w d a v k id n g m hi rfl rfl hv rfl hc ho hg hm rfl
    have heq := pqSteal_eq hi hv ((myOwner_tile hc).trans ho) hg hm
    have hown : g.cubes ≠ [] → (s.val a).toNat / 2 ^ 32 ≠ s.cube → ¬ (!g.multi || (s.val a).toNat / 2 ^ 32 == s.cube) = true := fun h1 h2 => by
      rw [(multi_iff g).mpr h1, beq_eq_false_iff_ne.mpr h2]; exact Bool.false_ne_true
    refine ⟨fun h => ?_, fun h1 h2 h3 => ?_, fun h1 h2 h3 => ?_⟩
    · refine heq.trans (congrArg Host.Outcome.next (if_pos ?_))
      rcases h with h | h
      · simp [Group.multi, h]
      · rw [beq_iff_eq.mpr h, Bool.or_true]
    · exact heq.trans (congrArg Host.Outcome.next ((if_neg (hown h1 h2)).trans (if_pos h3)))
    · obtain ⟨x, hx, hp⟩ := reserveSlots_spec ((s.popAll [(a, false)]).producer d).2 (tileOf s.cur.1) s.nid id (min 32 (256 - (s.tile (tileOf s.cur.1)).parcels.length))
      have htile : ((s.popAll [(a, false)]).producer d).2.tile (tileOf s.cur.1) = s.tile (tileOf s.cur.1) := by
        obtain ⟨_, _, _, _, h⟩ := producer_frame (s.popAll [(a, false)]) d
        obtain ⟨_, _, h'⟩ := popAll_frame s [(a, false)]
        rw [h, h']; rfl
      have hmem : ((s.popAll [(a, false)]).producer d).2.mem = s.mem := by
        rw [producer_mem]
        obtain ⟨_, _, h'⟩ := popAll_frame s [(a, false)]
        rw [h']
      rw [htile] at hp
      refine ⟨stealSent _ s.nid ((s.val a).toNat / 2 ^ 32), heq.trans (congrArg Host.Outcome.next ((if_neg (hown h1 h2)).trans (if_neg h3))), ?_, ?_, hp⟩
      · rw [hx]; rfl
      · rw [hx]; exact hmem
  case period =>
    intro s
    obtain ⟨v, ⟨he, hl, hp⟩, hx⟩ := diffusionPeriod_spec s
    exact ⟨_, hx, by rw [he], hl, hp⟩
  case arrival =>
    intro s t i p r hmv
    exact ⟨fun hi hf hlow => parcelArrival_room hmv (freeSlot_eq_some hi hf hlow), fun hf => parcelArrival_full hmv (freeSlot_eq_none hf)⟩
  case dealt =>
    rintro l i p hi rfl
    exact parcelP_spec l i hi

end Sys2Proof.ParallelProofs
end

section
/-! SUPPORT and THEOREMS. O29: the life of a launch (R158 to R160, R170, R171, R173, R175, R176, R454). -/

namespace Sys2Proof.ParallelProofs
open Sys2Proof.Machine Sys2Proof.ScalarProofs

/-! ### Validation (R169, R170, R459) -/

/-- The rules of an LPB, with the tenant's tiles, the launch's own id among its prerequisites, and a second active launch of the id (R170). -/
def refusedLaunch (s : State) (l : Launch) : Prop :=
  lpbBad l = true ∨ l.prereqs.contains l.lid = true ∨ s.granted l.tenant < l.width * l.height ∨ ∃ n ∈ s.launches, n.tenant = l.tenant ∧ n.lid = l.lid ∧ n.active = true

/-- A launch is appended; of its state and status an earlier check decides before a later one (R170). -/
theorem accept_spec (s : State) (t : Nat) (lpb : List Nat) (sl : Option (Nat × Nat)) :
    ∃ m : Launch, s.accept t lpb sl = { s with nid := s.nid + 1, launches := s.launches ++ [m] } ∧ m.tenant = t ∧ m.lid = lpb.getD 0 0 / 2 ^ 32
      ∧ m.job = lpb.getD 0 0 % 2 ^ 24 ∧ m.lpb = lpb ∧ m.slot = sl
      ∧ (s.cancelled t m.job = true → m.st = .rejected ∧ m.status = 5)
      ∧ (s.cancelled t m.job = false → refusedLaunch s m → m.st = .rejected ∧ m.status = 3)
      ∧ (s.cancelled t m.job = false → ¬ refusedLaunch s m → 2 ^ 24 ≤ m.count → m.st = .rejected ∧ m.status = 1)
      ∧ (s.cancelled t m.job = false → ¬ refusedLaunch s m → m.count < 2 ^ 24 → m.st = .waiting) := by
  generalize hl : s.newLaunch t lpb sl = l
  have htenant : l.tenant = t := by rw [← hl]; rfl
  have hlid : l.lid = lpb.getD 0 0 / 2 ^ 32 := by rw [← hl]; rfl
  have hjob : l.job = lpb.getD 0 0 % 2 ^ 24 := by rw [← hl]; rfl
  have hlpb : l.lpb = lpb := by rw [← hl]; rfl
  have hslot : l.slot = sl := by rw [← hl]; rfl
  have hdup : (s.launches.any (fun m => m.tenant == t && m.lid == l.lid && m.active)) = true ↔ ∃ n ∈ s.launches, n.tenant = t ∧ n.lid = l.lid ∧ n.active = true := by
    simp only [List.any_eq_true, Bool.and_eq_true, beq_iff_eq, and_assoc]
  have hbad : (lpbBad l || l.prereqs.contains l.lid || decide (s.granted t < l.width * l.height) || s.launches.any (fun m => m.tenant == t && m.lid == l.lid && m.active)) = true
      ↔ refusedLaunch s l := by
    simp only [Bool.or_eq_true, decide_eq_true_eq, hdup, or_assoc, refusedLaunch, htenant]
  unfold State.accept
  rw [hl]
  dsimp only
  by_cases hc : s.cancelled t l.job = true
  · rw [if_pos hc]
    exact ⟨_, rfl, htenant, hlid, hjob, hlpb, hslot, fun _ => ⟨rfl, rfl⟩, fun h => absurd hc (by rw [h]; exact Bool.false_ne_true),
      fun h => absurd hc (by rw [h]; exact Bool.false_ne_true), fun h => absurd hc (by rw [h]; exact Bool.false_ne_true)⟩
  · rw [if_neg hc]
    by_cases hb : refusedLaunch s l
    · rw [if_pos (hbad.mpr hb)]
      exact ⟨_, rfl, htenant, hlid, hjob, hlpb, hslot, fun h => absurd h hc, fun _ _ => ⟨rfl, rfl⟩, fun _ h => absurd hb h, fun _ h => absurd hb h⟩
    · rw [if_neg (fun h => hb (hbad.mp h))]
      by_cases hn : 2 ^ 24 ≤ l.count
      · rw [if_pos hn]
        exact ⟨_, rfl, htenant, hlid, hjob, hlpb, hslot, fun h => absurd h hc, fun _ h => absurd h hb, fun _ _ _ => ⟨rfl, rfl⟩, fun _ _ h => absurd hn (not_le.mpr h)⟩
      · rw [if_neg hn]
        exact ⟨_, rfl, htenant, hlid, hjob, hlpb, hslot, fun h => absurd h hc, fun _ h => absurd h hb, fun _ _ h => absurd h hn, fun _ _ _ => rfl⟩

theorem lpbBad_iff (l : Launch) : lpbBad l = true ↔ l.lid = 0 ∨ bits (l.dword 0) 31 24 ≠ 0 ∨ l.dword 1 % 4 ≠ 0 ∨ bits (l.dword 3) 63 59 ≠ 0 ∨ bits (l.dword 3) 55 54 = 0
    ∨ 6 ≤ bits (l.dword 3) 51 49 ∨ 6 ≤ bits (l.dword 3) 48 46 ∨ bits (l.dword 3) 40 37 = 0 ∨ 8 < bits (l.dword 3) 40 37 ∨ bits (l.dword 3) 36 32 = 0 ∨ 16 < bits (l.dword 3) 36 32
    ∨ bits (l.dword 6) 63 34 ≠ 0 ∨ l.dword 7 % 64 ≠ 0 := by
  simp only [lpbBad, Bool.or_eq_true, bne_iff_ne, beq_iff_eq, decide_eq_true_eq, or_assoc]
  rfl

theorem ownPrereq_iff (l : Launch) : l.prereqs.contains l.lid = true ↔
    l.lid ∈ [l.dword 4 % 2 ^ 32, l.dword 4 / 2 ^ 32, l.dword 5 % 2 ^ 32, l.dword 5 / 2 ^ 32] ∧ l.lid ≠ 0 := by
  rw [List.contains_iff_mem, Launch.prereqs, List.mem_filter, decide_eq_true_eq]

/-- The rules in the order of R170. -/
theorem refusedLaunch_iff (s : State) (l : Launch) : refusedLaunch s l ↔ l.lid = 0 ∨ bits (l.dword 0) 31 24 ≠ 0 ∨ l.dword 1 % 4 ≠ 0 ∨ bits (l.dword 3) 63 59 ≠ 0
    ∨ bits (l.dword 3) 55 54 = 0 ∨ 6 ≤ bits (l.dword 3) 51 49 ∨ 6 ≤ bits (l.dword 3) 48 46 ∨ bits (l.dword 3) 40 37 = 0 ∨ 8 < bits (l.dword 3) 40 37 ∨ bits (l.dword 3) 36 32 = 0
    ∨ 16 < bits (l.dword 3) 36 32 ∨ bits (l.dword 6) 63 34 ≠ 0 ∨ l.dword 7 % 64 ≠ 0
    ∨ (l.lid ∈ [l.dword 4 % 2 ^ 32, l.dword 4 / 2 ^ 32, l.dword 5 % 2 ^ 32, l.dword 5 / 2 ^ 32] ∧ l.lid ≠ 0)
    ∨ s.granted l.tenant < bits (l.dword 3) 36 32 * bits (l.dword 3) 40 37 ∨ ∃ n ∈ s.launches, n.tenant = l.tenant ∧ n.lid = l.lid ∧ n.active = true := by
  rw [refusedLaunch, lpbBad_iff, ownPrereq_iff]
  simp only [or_assoc]
  rfl

/-! ### The launch message (R169, R451) -/

section
variable {s : State} {p : Packet}

theorem launchMessage_cancelled (hf : s.net.find? (fun q => q.id == s.arg.a) = some p) (hc : s.cancelled p.tenant p.job = true) :
    exec .launchMessage s = .next (s.settlePacket p 4) := by
  show execLaunchMessage s = _
  simp only [execLaunchMessage, hf, hc, if_true]

theorem launchMessage_full (hf : s.net.find? (fun q => q.id == s.arg.a) = some p) (hc : s.cancelled p.tenant p.job = false) (hb : s.bufferFull p.tenant = true) :
    exec .launchMessage s = .next (s.settlePacket p 1) := by
  show execLaunchMessage s = _
  simp only [execLaunchMessage, hf, hc, hb, if_true, Bool.false_eq_true, if_false]

theorem launchMessage_read (hf : s.net.find? (fun q => q.id == s.arg.a) = some p) (hc : s.cancelled p.tenant p.job = false) (hb : s.bufferFull p.tenant = false)
    {pa attr : Nat} {b : List Byte} {u : State} (hx : s.xlate p.tenant ((s.messageWords p).getD 1 0).toNat false false = .ok pa attr)
    (hr : s.unitRead 0 pa 64 = some ((b, false), u)) :
    exec .launchMessage s = .next ((u.accept p.tenant ((List.range 8).map (fun i => ofBytes ((b.drop (8 * i)).take 8))) none).settlePacket p 0) := by
  show execLaunchMessage s = _
  simp only [execLaunchMessage, hf, hc, hb, Bool.false_eq_true, if_false, hx, hr]
  rfl

end

/-! ### Prerequisites (R171, R176) -/

theorem prereqs_failed {s : State} {l : Launch} (h : ∃ p ∈ l.prereqs, ∃ k, s.prereq l.tenant p = some k ∧ k ≠ 0 ∧ k ≠ 4) : s.prereqs l = some false := by
  obtain ⟨p, hp, k, hk, h0, h4⟩ := h
  refine if_pos (List.any_eq_true.mpr ⟨some k, List.mem_map.mpr ⟨p, hp, hk⟩, ?_⟩)
  simp [h0, h4]

theorem prereqs_met {s : State} {l : Launch} (h : ∀ p ∈ l.prereqs, s.prereq l.tenant p = some 0 ∨ s.prereq l.tenant p = some 4) : s.prereqs l = some true := by
  have hall : ∀ x ∈ l.prereqs.map (s.prereq l.tenant), x = some 0 ∨ x = some 4 := by
    intro x hx
    obtain ⟨p, hp, rfl⟩ := List.mem_map.mp hx
    exact h p hp
  have hbad : ¬ (l.prereqs.map (s.prereq l.tenant)).any (fun x => x.any (fun st => st != 0 && st != 4)) = true := by
    rw [List.any_eq_true]
    rintro ⟨x, hx, h⟩
    rcases hall x hx with rfl | rfl <;> cases h
  have hopen : ¬ (l.prereqs.map (s.prereq l.tenant)).any (·.isNone) = true := by
    rw [List.any_eq_true]
    rintro ⟨x, hx, h⟩
    rcases hall x hx with rfl | rfl <;> cases h
  exact (if_neg hbad).trans (if_neg hopen)

section
variable {s : State} {l : Launch}

theorem prerequisitesMet_failed (hl : s.launch s.arg.a = some l) (hw : l.st = .waiting) (h : s.prereqs l = some false) :
    exec .prerequisitesMet s = .next (s.mapLaunch l.id (fun m => { m with st := .failed, status := 2 })) := by
  show execPrerequisitesMet s = _
  simp only [execPrerequisitesMet, hl, hw, ne_eq, not_true_eq_false, if_false, h]

theorem prerequisitesMet_met (hl : s.launch s.arg.a = some l) (hw : l.st = .waiting) (h : s.prereqs l = some true) :
    exec .prerequisitesMet s = .next (s.mapLaunch l.id (fun m => if l.count = 0 then { m with st := .completing } else { m with st := .placing, placing := s.time })) := by
  show execPrerequisitesMet s = _
  simp only [execPrerequisitesMet, hl, hw, ne_eq, not_true_eq_false, if_false, h]
  by_cases hc : l.count = 0 <;> simp only [hc, if_true, if_false]

/-! ### Admission (R158 to R160) -/

theorem engineFree_iff (s : State) (l : Launch) (hp : l.st = .placing) : s.engineFree l = true ↔ l.engine = false ∧ s.engines < 4
    ∧ ∀ m ∈ s.launches, m.head = true → m.st = .placing → m.id ≠ l.id → l.width * l.height < m.width * m.height → l.prio < m.prio := by
  simp only [State.engineFree, State.unguardedLine, hp, beq_self_eq_true, Bool.true_and, Bool.and_eq_true, Bool.not_eq_true', decide_eq_true_eq, and_assoc,
    List.any_eq_false, beq_iff_eq, bne_iff_ne, not_and, not_le]

theorem admissionScan_engine (hl : s.launch s.arg.a = some l) (h : s.engineFree l = true) :
    exec .admissionScan s = .next (s.mapLaunch l.id (fun m => { m with engine := true, cand := s.rotate % m.candidates, left := m.candidates, tiles := [] })) := by
  show execAdmissionScan s = _
  simp only [execAdmissionScan, hl, h, if_true]

/-- An engine that scans looks at its candidate, and then reserves or gives way. -/
theorem admissionScan_scanning (hl : s.launch s.arg.a = some l) (hp : l.st = .placing) (he : l.engine = true) (hb : l.backoff = none) (h0 : 0 < l.left)
    (hn : l.tiles.length < l.width * l.height) :
    exec .admissionScan s = .next (
      if l.tiles = [] ∧ !((l.rectAt l.cand).all (s.tileOpen l.tenant)) then s.mapLaunch l.id (·.advance)
      else if (s.tile ((l.rectAt l.cand).getD l.tiles.length 0)).owner.isSome || (s.tile ((l.rectAt l.cand).getD l.tiles.length 0)).reserved.isSome then
        (s.unreserve l.tiles).mapLaunch l.id (fun (m : Launch) =>
          { m with tiles := [], conflicts := m.conflicts + 1, backoff := some (s.cycle + (min (256 * 2 ^ l.conflicts) 65536 + l.job % 256)) })
      else (s.setTile ((l.rectAt l.cand).getD l.tiles.length 0) { s.tile ((l.rectAt l.cand).getD l.tiles.length 0) with reserved := some l.id }).mapLaunch l.id
        (fun m => { m with tiles := m.tiles ++ [(l.rectAt l.cand).getD l.tiles.length 0] })) := by
  show execAdmissionScan s = _
  have hfree : s.engineFree l = false := by rw [State.engineFree, he, Bool.not_true, Bool.and_false, Bool.false_and, Bool.false_and]
  have hscan : l.scanning = true := by simp [Launch.scanning, hp, he, hb, h0, hn]
  simp only [execAdmissionScan, hl, hfree, hscan, Bool.not_true, Bool.false_eq_true, if_false]

end

/-- Giving reservations back frees the tiles that were reserved and touches no other. -/
theorem unreserve_spec (s : State) (ts : List Nat) : (∀ q ∈ ts, ((s.unreserve ts).tile q).reserved = none) ∧ (∀ q, q ∉ ts → (s.unreserve ts).tile q = s.tile q)
    ∧ (s.unreserve ts).launches = s.launches := by
  unfold State.unreserve
  induction ts using List.reverseRecOn with
  | nil => exact ⟨by simp, fun _ _ => rfl, rfl⟩
  | append_singleton ts t ih =>
    obtain ⟨h1, h2, h3⟩ := ih
    rw [List.foldl_append]
    refine ⟨fun q hq => ?_, fun q hq => ?_, h3⟩
    · by_cases hqt : q = t
      · subst hqt; rw [List.foldl_cons, List.foldl_nil, State.tile_setTile_self]
      · rw [List.foldl_cons, List.foldl_nil, State.tile_setTile_ne _ _ _ _ hqt]
        exact h1 q (by simpa [hqt] using hq)
    · have hqt : q ≠ t := fun h => hq (by simp [h])
      rw [List.foldl_cons, List.foldl_nil, State.tile_setTile_ne _ _ _ _ hqt]
      exact h2 q (fun h => hq (List.mem_append_left _ h))

/-- What an engine does with its candidate (R158, R159). -/
theorem admissionScan_candidate {s : State} {l : Launch} (hl : s.launch s.arg.a = some l) (hp : l.st = .placing) (he : l.engine = true) (hb : l.backoff = none) (h0 : 0 < l.left)
    (hn : l.tiles.length < l.width * l.height) :
    (l.tiles = [] → (∃ t ∈ l.rectAt l.cand, s.tileOpen l.tenant t = false) →
        exec .admissionScan s = .next (s.mapLaunch l.id (fun m => { m with cand := (m.cand + 1) % m.candidates, left := m.left - 1, tiles := [] })))
      ∧ ((l.tiles ≠ [] ∨ ∀ t ∈ l.rectAt l.cand, s.tileOpen l.tenant t = true) → ∀ t, t = (l.rectAt l.cand).getD l.tiles.length 0 →
        ((s.tile t).owner = none → (s.tile t).reserved = none → exec .admissionScan s = .next ((s.setTile t { s.tile t with reserved := some l.id }).mapLaunch l.id (fun m => { m with tiles := m.tiles ++ [t] })))
        ∧ (((s.tile t).owner ≠ none ∨ (s.tile t).reserved ≠ none) → Answers .admissionScan s (fun u => (∀ q ∈ l.tiles, (u.tile q).reserved = none) ∧ (∀ q, q ∉ l.tiles → u.tile q = s.tile q)
          ∧ u.launches = s.launches.map (fun (m : Launch) => if m.id = l.id then { m with tiles := [], conflicts := m.conflicts + 1, backoff := some (s.cycle + (min (256 * 2 ^ l.conflicts) 65536 + l.job % 256)) } else m)))) := by
  have heq := admissionScan_scanning hl hp he hb h0 hn
  refine ⟨fun ht hc => ?_, fun hok t ht => ?_⟩
  · refine heq.trans (congrArg Host.Outcome.next (if_pos ⟨ht, ?_⟩))
    obtain ⟨t, hm, ho⟩ := hc
    rw [Bool.not_eq_true', List.all_eq_false]
    exact ⟨t, hm, by rw [ho]; exact Bool.false_ne_true⟩
  · have hgo : ¬ (l.tiles = [] ∧ (!((l.rectAt l.cand).all (s.tileOpen l.tenant))) = true) := by
      rintro ⟨h1, h2⟩
      rw [Bool.not_eq_true'] at h2
      rw [List.all_eq_true.mpr (hok.resolve_left (not_not.mpr h1))] at h2
      cases h2
    rw [if_neg hgo, ← ht] at heq
    refine ⟨fun ho hr => ?_, fun h => ?_⟩
    · exact heq.trans (congrArg Host.Outcome.next (if_neg (by rw [ho, hr]; exact Bool.false_ne_true)))
    · have hbusy : ((s.tile t).owner.isSome || (s.tile t).reserved.isSome) = true := by
        rw [Bool.or_eq_true, Option.isSome_iff_ne_none, Option.isSome_iff_ne_none]; exact h
      obtain ⟨h1, h2, h3⟩ := unreserve_spec s l.tiles
      refine ⟨_, heq.trans (congrArg Host.Outcome.next (if_pos hbusy)), h1, h2, ?_⟩
      rw [State.mapLaunch, h3]

/-! ### Commit (R159, R172, R173) -/

/-- A step that changes no tile and not where the next scan begins. -/
def KeepsTiles (s u : State) : Prop := u.tiles = s.tiles ∧ u.rotate = s.rotate

theorem KeepsTiles.refl (s : State) : KeepsTiles s s := ⟨rfl, rfl⟩

theorem KeepsTiles.trans {s u v : State} (h : KeepsTiles s u) (h' : KeepsTiles u v) : KeepsTiles s v := ⟨h'.1.trans h.1, h'.2.trans h.2⟩

theorem keepsTiles_foldl {α : Type} (f : State → α → State) (hf : ∀ s a, KeepsTiles s (f s a)) (l : List α) (s : State) : KeepsTiles s (l.foldl f s) :=
  foldl_related .refl .trans f hf l s

theorem keepsTiles_loadImages (s : State) (tenant t : Nat) : KeepsTiles s (s.loadImages tenant t) := by
  refine keepsTiles_foldl _ (fun s m => ?_) _ s
  split
  · exact keepsTiles_foldl _ (fun s j => by exact ⟨rfl, rfl⟩) _ _
  · exact ⟨rfl, rfl⟩

theorem keepsTiles_setChains (s : State) (l : Launch) : KeepsTiles s (s.setChains l) :=
  keepsTiles_foldl _ (fun s ts => keepsTiles_foldl _ (fun s n => keepsTiles_foldl _ (fun s c => keepsTiles_foldl _ (fun s i => by exact ⟨rfl, rfl⟩) _ s) _ s) _ s) _ s

theorem keepsTiles_launchGroup (s : State) (l : Launch) : KeepsTiles s (s.launchGroup l) := by
  unfold State.launchGroup
  split <;> exact ⟨rfl, rfl⟩

theorem keepsTiles_applyTo (s : State) (k : Nat) (msg : Option (List Word)) (dec : Nat) (f : PendAct → PendAct) : KeepsTiles s (s.applyTo k msg dec f).2 := by
  by_cases hm : msg.isSome = false ∨ (s.counter k).ring.length < (s.counter k).cap
  · by_cases hp : dec = 0 ∨ dec < (s.counter k).count ∨ (s.counter k).pending.length ≠ 127
    · have hst : KeepsTiles s (storeMessage s k (s.counter k) msg) := by cases msg <;> exact ⟨rfl, rfl⟩
      rw [applyTo_taken hm hp]
      refine hst.trans ?_
      generalize storeMessage s k (s.counter k) msg = u
      split
      · exact ⟨rfl, rfl⟩
      · split <;> exact ⟨rfl, rfl⟩
    · rw [applyTo_limit (by omega) (by omega) (by omega)]
      exact .refl s
  · rw [not_or, Bool.not_eq_false, not_lt] at hm
    rw [applyTo_full hm.1 hm.2]
    exact .refl s

theorem keepsTiles_launchAct (s : State) (l : Launch) (core : Nat) : KeepsTiles s (s.launchAct l core) := by
  unfold State.launchAct
  dsimp only
  have h : KeepsTiles s s.fresh.2 := ⟨rfl, rfl⟩
  split
  · exact h.trans (keepsTiles_applyTo _ _ _ _ _)
  · exact h.trans ((keepsTiles_applyTo _ _ _ _ _).trans ⟨rfl, rfl⟩)

/-- A tile that a launch has been given, as the commit leaves it (R159, R381). -/
def ownedBy (l : Launch) (x : TileSt) : Prop := x.owner = some l.id ∧ x.reserved = none ∧ x.last = some l.tenant ∧ x.scrubbed = false

/-- The tile as the commit gives it to the launch. -/
def givenTile (s : State) (l : Launch) (t : Nat) : TileSt :=
  { s.tile t with n := s.commitWays l.tenant, lines := [], owner := some l.id, reserved := none, scrubbed := false, last := some l.tenant, parcels := [] }

theorem keepsTiles_commitTile (s : State) (l : Launch) (t : Nat) : KeepsTiles (s.setTile t (givenTile s l t)) (s.commitTile l t) := by
  refine KeepsTiles.trans ?_ (keepsTiles_loadImages _ l.tenant t)
  exact ⟨rfl, rfl⟩

theorem commitTile_spec (s : State) (l : Launch) (t : Nat) : ownedBy l ((s.commitTile l t).tile t) ∧ (∀ q, q ≠ t → (s.commitTile l t).tile q = s.tile q)
    ∧ (s.commitTile l t).rotate = s.rotate := by
  obtain ⟨htiles, hrot⟩ := keepsTiles_commitTile s l t
  have htile : ∀ q, (s.commitTile l t).tile q = (s.setTile t (givenTile s l t)).tile q := fun q => by rw [State.tile, htiles]; rfl
  refine ⟨?_, fun q hq => ?_, hrot⟩
  · rw [htile, State.tile_setTile_self]; exact ⟨rfl, rfl, rfl, rfl⟩
  · rw [htile, State.tile_setTile_ne _ _ _ _ hq]

theorem commitTiles_spec (s : State) (l : Launch) (ts : List Nat) : (∀ t ∈ ts, ownedBy l ((ts.foldl (fun s t => s.commitTile l t) s).tile t))
    ∧ (∀ q, q ∉ ts → (ts.foldl (fun s t => s.commitTile l t) s).tile q = s.tile q) ∧ (ts.foldl (fun s t => s.commitTile l t) s).rotate = s.rotate := by
  induction ts using List.reverseRecOn with
  | nil => exact ⟨by simp, fun _ _ => rfl, rfl⟩
  | append_singleton ts t ih =>
    obtain ⟨h1, h2, h3⟩ := ih
    rw [List.foldl_append, List.foldl_cons, List.foldl_nil]
    obtain ⟨c1, c2, c3⟩ := commitTile_spec (ts.foldl (fun s t => s.commitTile l t) s) l t
    refine ⟨fun q hq => ?_, fun q hq => ?_, c3.trans h3⟩
    · by_cases hqt : q = t
      · subst hqt; exact c1
      · rw [c2 q hqt]; exact h1 q (by simpa [hqt] using hq)
    · rw [c2 q (fun h => hq (by simp [h]))]
      exact h2 q (fun h => hq (List.mem_append_left _ h))

/-- The numbers of the parcels that are dealt to tile j of n: slot and index (R173). -/
def dealt (n count j : Nat) : List (Nat × Nat) :=
  ((List.range 256).filter (fun q => decide (q * n + j < min count (256 * n)))).map (fun q => (q, (q * n + j) % 2 ^ 24))

/-- The parcels that the commit puts into tile j of ts. -/
def dealtParcels (s : State) (l : Launch) (ts : List Nat) (j : Nat) : List Parcel :=
  ((upTo 256).filter (fun q => decide (q * ts.length + j < min l.count (256 * ts.length)))).map (fun q =>
    { s.parcelOf l.id l.argument (l.parcelP (q * ts.length + j)) with slot := q, order := s.nid + (q * ts.length + j) })

theorem parcelP_index (l : Launch) (i : Nat) : (l.parcelP i).toNat % 2 ^ 24 = i % 2 ^ 24 := by
  have h : l.parcelP i = l.parcelP (i % 2 ^ 24) := by simp only [Launch.parcelP, Nat.mod_mod]
  rw [h, (parcelP_spec l _ (Nat.mod_lt _ (by norm_num))).1]

theorem dealtParcels_fields (s : State) (l : Launch) (ts : List Nat) (j : Nat) : (dealtParcels s l ts j).map (fun p => (p.slot, p.index)) = dealt ts.length l.count j := by
  rw [dealtParcels, dealt, List.map_map]
  refine List.map_congr_left (fun q _ => ?_)
  exact Prod.ext rfl (parcelP_index l _)

/-- The parcels of tile j put into its queue. -/
def dealTile (l : Launch) (ts : List Nat) (s : State) (j : Nat) : State :=
  s.setTile (ts.getD j 0) { s.tile (ts.getD j 0) with parcels := dealtParcels s l ts j }

theorem dealTiles_spec (s : State) (l : Launch) (ts : List Nat) (hnd : ts.Nodup) (n : Nat) (hn : n ≤ ts.length) :
    (∀ t, ∃ ps, ((List.range n).foldl (dealTile l ts) s).tile t = { s.tile t with parcels := ps }) ∧ (∀ t, t ∉ ts → ((List.range n).foldl (dealTile l ts) s).tile t = s.tile t)
    ∧ (∀ j, j < n → (((List.range n).foldl (dealTile l ts) s).tile (ts.getD j 0)).parcels.map (fun p => (p.slot, p.index)) = dealt ts.length l.count j)
    ∧ ((List.range n).foldl (dealTile l ts) s).rotate = s.rotate := by
  induction n with
  | zero => exact ⟨fun t => ⟨_, rfl⟩, fun _ _ => rfl, fun j hj => absurd hj (Nat.not_lt_zero j), rfl⟩
  | succ n ih =>
    obtain ⟨h1, h2, h3, h4⟩ := ih (by omega)
    rw [List.range_succ, List.foldl_append, List.foldl_cons, List.foldl_nil]
    generalize (List.range n).foldl (dealTile l ts) s = u at h1 h2 h3 h4
    refine ⟨fun t => ?_, fun t ht => ?_, fun j hj => ?_, h4⟩
    · by_cases hte : t = ts.getD n 0
      · subst hte
        obtain ⟨ps, hps⟩ := h1 (ts.getD n 0)
        exact ⟨dealtParcels u l ts n, by rw [dealTile, State.tile_setTile_self, hps]⟩
      · rw [dealTile, State.tile_setTile_ne _ _ _ _ hte]; exact h1 t
    · have hte : t ≠ ts.getD n 0 := fun h => ht (by rw [h, List.getD_eq_getElem _ _ (by omega)]; exact List.getElem_mem _)
      rw [dealTile, State.tile_setTile_ne _ _ _ _ hte]; exact h2 t ht
    · by_cases hjn : j = n
      · subst hjn
        rw [dealTile, State.tile_setTile_self]
        exact dealtParcels_fields u l ts j
      · have hne : ts.getD j 0 ≠ ts.getD n 0 := by
          rw [List.getD_eq_getElem _ _ (by omega), List.getD_eq_getElem _ _ (by omega), Ne, hnd.getElem_inj_iff]
          exact hjn
        rw [dealTile, State.tile_setTile_ne _ _ _ _ hne]
        exact h3 j (by omega)

/-- Dealing gives every tile of a cluster its parcels in round-robin order and changes nothing else of the tiles (R173). -/
theorem deal_spec (s : State) (l : Launch) (ts : List Nat) (hnd : ts.Nodup) :
    (∀ t, ∃ ps, (s.deal l ts).tile t = { s.tile t with parcels := ps }) ∧ (∀ t, t ∉ ts → (s.deal l ts).tile t = s.tile t)
    ∧ (∀ j, j < ts.length → ((s.deal l ts).tile (ts.getD j 0)).parcels.map (fun p => (p.slot, p.index)) = dealt ts.length l.count j) ∧ (s.deal l ts).rotate = s.rotate := by
  exact dealTiles_spec s l ts hnd ts.length le_rfl

/-- The launch as its commit makes it (R159). -/
def committed (l : Launch) : Launch :=
  { l with st := .running, engine := false, tiles := [], head := false, placed := true, x := l.tiles.headD 0 % 16, y := l.tiles.headD 0 / 16
           w := l.width, h := l.height, next := 0, moved := [], leaving := [], done := 0, starved := [], phase := 0
           guard := if l.guarded then .hold else .none, lost := false }

/-- What the commit does between the tiles and the parcels: the launch runs, its chains, its group and its threads are made. -/
def commitThreads (s : State) (l : Launch) (ts : List Nat) : State :=
  ts.foldl (fun s t => (l.cores t).foldl (fun s c => (upTo l.contexts).foldl (fun s _ => s.launchAct l c) s) s)
    ((({ s with rotate := s.rotate + 1 } : State).mapLaunch l.id (fun _ => l)).setChains l |>.launchGroup l)

theorem commitThreads_spec (s : State) (l : Launch) (ts : List Nat) : (commitThreads s l ts).tiles = s.tiles ∧ (commitThreads s l ts).rotate = s.rotate + 1 := by
  have h : KeepsTiles (({ s with rotate := s.rotate + 1 } : State).mapLaunch l.id (fun _ => l)) (commitThreads s l ts) :=
    ((keepsTiles_setChains _ l).trans (keepsTiles_launchGroup _ l)).trans
      (keepsTiles_foldl _ (fun s t => keepsTiles_foldl _ (fun s c => keepsTiles_foldl _ (fun s _ => keepsTiles_launchAct s l c) _ s) _ s) _ _)
  exact h

theorem clusterCommit_eq {s : State} {l : Launch} (hb : s.arg.b ≠ 1) (hl : s.launch s.arg.a = some l) (hr : l.reservedAll = true) :
    exec .clusterCommit s = .next (((commitThreads (l.tiles.foldl (fun s t => s.commitTile (committed l) t) s) (committed l) l.tiles).deal (committed l) l.tiles).evaluate l.id 0x7F) := by
  show execClusterCommit s = _
  simp only [execClusterCommit, hb, if_false, hl, hr, Bool.not_true, Bool.false_eq_true]
  rfl

theorem clusterCommit_spec {s : State} {l : Launch} (hb : s.arg.b ≠ 1) (hl : s.launch s.arg.a = some l) (hr : l.reservedAll = true) (hnd : l.tiles.Nodup) :
    ∃ u : State, exec .clusterCommit s = .next (u.evaluate l.id 0x7F) ∧ u.rotate = s.rotate + 1 ∧ (∀ t ∈ l.tiles, ownedBy l (u.tile t))
      ∧ (∀ t, t ∉ l.tiles → u.tile t = s.tile t)
      ∧ (∀ j, j < l.tiles.length → (u.tile (l.tiles.getD j 0)).parcels.map (fun p => (p.slot, p.index)) = dealt l.tiles.length l.count j) := by
  refine ⟨_, clusterCommit_eq hb hl hr, ?_⟩
  obtain ⟨c1, c2, c3⟩ := commitTiles_spec s (committed l) l.tiles
  generalize l.tiles.foldl (fun s t => s.commitTile (committed l) t) s = a at c1 c2 c3
  obtain ⟨t1, t2⟩ := commitThreads_spec a (committed l) l.tiles
  generalize commitThreads a (committed l) l.tiles = b at t1 t2
  obtain ⟨d1, d2, d3, d4⟩ := deal_spec b (committed l) l.tiles hnd
  have htile : ∀ t, b.tile t = a.tile t := fun t => by rw [State.tile, t1]; rfl
  refine ⟨by rw [d4, t2, c3], fun t ht => ?_, fun t ht => by rw [d2 t ht, htile, c2 t ht], d3⟩
  obtain ⟨ps, hps⟩ := d1 t
  rw [hps, htile]
  exact c1 t ht

/-! ### Completion (R170, R175, R176, R454) -/

theorem history_remember (s : State) (l : Launch) : (s.remember l).history.head? = some ⟨l.tenant, l.lid, l.job, l.status⟩
    ∧ ((s.remember l).history.filter (fun h => h.tenant == l.tenant)).length ≤ 4096 := by
  refine ⟨rfl, ?_⟩
  have hothers : (s.history.filter (fun h => h.tenant != l.tenant)).filter (fun h => h.tenant == l.tenant) = [] :=
    List.filter_eq_nil_iff.mpr (fun h hm he => by simp [beq_iff_eq.mp he] at hm)
  have htake : ((s.history.filter (fun h => h.tenant == l.tenant)).take 4095).length ≤ 4095 := List.length_take_le _ _
  have hown := List.length_filter_le (fun (h : DoneLaunch) => h.tenant == l.tenant) ((s.history.filter (fun h => h.tenant == l.tenant)).take 4095)
  unfold State.remember
  dsimp only
  rw [List.cons_append, List.filter_cons, List.filter_append, hothers, List.append_nil]
  split
  · rw [List.length_cons]; omega
  · omega

section
variable {s : State} {l : Launch}

theorem completion_step (hl : s.launch s.arg.a = some l) (ha : l.active = true) (h : l.st = .completing ∨ s.finished l = true) :
    exec .launchCompletion s = .next (s.completeStep l) := by
  show execLaunchCompletion s = _
  have hgo : (decide (l.st = .completing) || s.finished l) = true := by rcases h with h | h <;> simp [h]
  simp only [execLaunchCompletion, hl, ha, if_true]
  exact congrArg Host.Outcome.next (if_pos hgo)

theorem completeStep_writing (hp : l.phase = 1) (hw : s.launchWrites l.id = true) : s.completeStep l = s := by
  simp only [State.completeStep, hp, hw, if_true]

/-- The launch with its final status, its record still to be written (R175, R261). -/
def retired (l : Launch) : Launch := { l with status := if l.status = 0 ∧ l.lost then 4 else l.status, phase := 2, guard := .none }

theorem completeStep_retires (hp : l.phase = 1) (hg : l.guard = .none) (hw : s.launchWrites l.id = false) :
    s.completeStep l = (s.mapLaunch l.id (fun _ => retired l)).remember (retired l) := by
  have hn : (GuardSt.none == GuardSt.hold) = false := rfl
  simp only [State.completeStep, hp, hw, hg, hn, Bool.false_and, Bool.false_eq_true, if_false, reduceCtorEq]
  rfl

theorem completeStep_releases (hp : l.phase = 0) (hst : l.status = 0) (hsc : l.scope = 0) (hg : l.guard = .none) (hcl : s.cluster l.id = []) :
    s.completeStep l = s.mapLaunch l.id (fun m => { m with st := .completing, phase := 1 }) := by
  have hret : s.returnBorrowed l = s := by rw [State.returnBorrowed, hcl]; rfl
  have hno : ¬ (1 ≤ (0 : Nat) ∨ GuardSt.none = GuardSt.hold) := by rintro (h | h) <;> cases h
  simp only [State.completeStep, hp, hst, hsc, hg, ne_eq, not_true_eq_false, if_false, hret, hno]

theorem inactive_iff (l : Launch) : l.active = false ↔ l.st = .rejected ∨ l.st = .failed := by
  unfold Launch.active
  cases l.st <;> simp

theorem completion_inactive (hl : s.launch s.arg.a = some l) (h : l.st = .rejected ∨ l.st = .failed) :
    exec .launchCompletion s = .next (if l.phase = 0 then (if l.dup then s.mapLaunch l.id (fun l => { l with phase := 2 })
      else (s.mapLaunch l.id (fun l => { l with phase := 2 })).remember l) else s.writeRecord l) := by
  show execLaunchCompletion s = _
  simp only [execLaunchCompletion, hl, (inactive_iff l).mpr h, Bool.false_eq_true, if_false]

/-- The record is written at the end of every launch, started or not. -/
theorem completion_record (hl : s.launch s.arg.a = some l) (h : (l.st = .rejected ∨ l.st = .failed) ∧ l.phase ≠ 0 ∨ l.st = .completing ∧ 2 ≤ l.phase) :
    exec .launchCompletion s = .next (s.writeRecord l) := by
  rcases h with ⟨h, hp⟩ | ⟨h, hp⟩
  · exact (completion_inactive hl h).trans (congrArg Host.Outcome.next (if_neg hp))
  · have ha : l.active = true := by rw [Launch.active, h]
    rw [completion_step hl ha (.inl h)]
    obtain ⟨n, hn⟩ := Nat.exists_eq_add_of_le hp
    have hphase : l.phase = n + 2 := by omega
    simp only [State.completeStep, hphase]

theorem writeRecord_written {pa attr : Nat} {u : State} (hx : s.xlate l.tenant l.record false true = .ok pa attr) (hw : s.unitWrite ⟨l.tenant, 0⟩ pa attr (s.recordBytes l) false = some u) :
    s.writeRecord l = u.launchDone l := by
  simp only [State.writeRecord, hx, hw]

theorem writeRecord_abandoned {c v : Nat} (hx : s.xlate l.tenant l.record false true = .fault c v) :
    s.writeRecord l = (s.raise l.origin (StewEvent.msg l.tenant 0x05 l.lid 0 0)).launchDone l := by
  simp only [State.writeRecord, hx]

/-- A launch that was never placed only leaves the unit, and its window is told. -/
theorem launchDone_unplaced (hp : l.placed = false) : s.launchDone l = { s with
    launches := s.launches.filter (fun (m : Launch) => m.id ≠ l.id)
    outbox := (match l.slot with | some (t, v) => ⟨.launchCompletion, { EvArg.zero with a := t, b := v, c := l.lid }⟩ :: s.outbox | none => s.outbox) } := by
  rw [State.launchDone]
  simp only [hp, Bool.false_eq_true, if_false]
  cases l.slot <;> rfl

end

/-- A dword at the front of a record, and what follows it. -/
theorem ofBytes_front (x : Nat) (rest : List Byte) (hx : x < 2 ^ 64) : ofBytes ((toBytes x 8 ++ rest).take 8) = x ∧ (toBytes x 8 ++ rest).drop 8 = rest := by
  have hlen := toBytes_length x 8
  refine ⟨?_, List.drop_left' hlen⟩
  rw [List.take_left' hlen, ofBytes_toBytes]
  exact Nat.mod_eq_of_lt (by norm_num; exact hx)

theorem recordBytes_spec (s : State) (l : Launch) (hlid : l.lid < 2 ^ 32) (hst : l.status < 256) (hjob : l.job < 2 ^ 24) (hadm : l.admitAt < 2 ^ 64) (htime : s.time < 2 ^ 64)
    (hdone : l.done < 2 ^ 64) (hx : l.x < 16) (hy : l.y < 16) : (s.recordBytes l).length = 64 ∧ ofBytes ((s.recordBytes l).take 8) = l.status + l.lid * 2 ^ 32
      ∧ ofBytes (((s.recordBytes l).drop 8).take 8) = l.job ∧ ofBytes (((s.recordBytes l).drop 16).take 8) = l.admitAt ∧ ofBytes (((s.recordBytes l).drop 24).take 8) = s.time
      ∧ ofBytes (((s.recordBytes l).drop 32).take 8) = l.done ∧ ofBytes (((s.recordBytes l).drop 40).take 8) = (if l.placed then l.x + l.y * 256 else 0)
      ∧ ofBytes ((s.recordBytes l).drop 48) = 0 := by
  have horigin : (if l.placed then l.x + l.y * 256 else 0) < 2 ^ 64 := by split <;> omega
  have hhead : l.status + l.lid * 2 ^ 32 < 2 ^ 64 := by omega
  have hb : s.recordBytes l = toBytes (l.status + l.lid * 2 ^ 32) 8 ++ (toBytes l.job 8 ++ (toBytes l.admitAt 8 ++ (toBytes s.time 8 ++ (toBytes l.done 8
      ++ (toBytes (if l.placed then l.x + l.y * 256 else 0) 8 ++ toBytes 0 16))))) := by
    simp only [State.recordBytes, List.append_assoc]
  generalize (if l.placed then l.x + l.y * 256 else 0) = origin at horigin hb
  generalize l.status + l.lid * 2 ^ 32 = head at hhead hb
  obtain ⟨f0, r0⟩ := ofBytes_front head (toBytes l.job 8 ++ (toBytes l.admitAt 8 ++ (toBytes s.time 8 ++ (toBytes l.done 8 ++ (toBytes origin 8 ++ toBytes 0 16))))) hhead
  obtain ⟨f1, r1⟩ := ofBytes_front l.job (toBytes l.admitAt 8 ++ (toBytes s.time 8 ++ (toBytes l.done 8 ++ (toBytes origin 8 ++ toBytes 0 16)))) (by omega)
  obtain ⟨f2, r2⟩ := ofBytes_front l.admitAt (toBytes s.time 8 ++ (toBytes l.done 8 ++ (toBytes origin 8 ++ toBytes 0 16))) hadm
  obtain ⟨f3, r3⟩ := ofBytes_front s.time (toBytes l.done 8 ++ (toBytes origin 8 ++ toBytes 0 16)) htime
  obtain ⟨f4, r4⟩ := ofBytes_front l.done (toBytes origin 8 ++ toBytes 0 16) hdone
  obtain ⟨f5, r5⟩ := ofBytes_front origin (toBytes 0 16) horigin
  have d16 : (s.recordBytes l).drop 16 = ((s.recordBytes l).drop 8).drop 8 := by rw [List.drop_drop]
  have d24 : (s.recordBytes l).drop 24 = ((s.recordBytes l).drop 16).drop 8 := by rw [List.drop_drop]
  have d32 : (s.recordBytes l).drop 32 = ((s.recordBytes l).drop 24).drop 8 := by rw [List.drop_drop]
  have d40 : (s.recordBytes l).drop 40 = ((s.recordBytes l).drop 32).drop 8 := by rw [List.drop_drop]
  have d48 : (s.recordBytes l).drop 48 = ((s.recordBytes l).drop 40).drop 8 := by rw [List.drop_drop]
  rw [d48, d40, d32, d24, d16, hb, r0, r1, r2, r3, r4, r5]
  exact ⟨by simp only [List.length_append, toBytes_length], f0, f1, f2, f3, f4, f5, by rw [ofBytes_toBytes]; rfl⟩

/-- Settles O29: validation decides in the order of R170, an engine reserves tile by tile, the commit's later steps touch no tile but to deal the parcels, and completion goes through its phases. -/
theorem launches : Obligations.Launches := by
  unfold Obligations.Launches
  refine ⟨⟨?accept, ?message, ?prerequisites, ?scan, fun s => ⟨rfl, rfl⟩, ?commit⟩, ?retire, ?release, ?inactive, ?record, ?bytes, fun s l h => launchDone_unplaced h⟩
  case accept =>
    rintro s t lpb sl c w h rfl rfl rfl
    obtain ⟨m, he, htenant, hlid, hjob, hlpb, hslot, h5, h3, h1, hw⟩ := accept_spec s t lpb sl
    refine ⟨m, he, htenant, hlid, hjob, hlpb, hslot, fun bad hbad => ?_⟩
    have hiff : refusedLaunch s m ↔ bad := by
      rw [refusedLaunch_iff, hbad]
      simp only [Launch.dword, hlpb, htenant, hlid]
    rw [hiff] at h3 h1 hw
    have hcount : m.count = lpb.getD 3 0 % 2 ^ 32 := by rw [Launch.count, hlpb]
    rw [hcount] at h1 hw
    exact ⟨h5, h3, h1, hw⟩
  case message =>
    rintro s p va hf rfl
    exact ⟨launchMessage_cancelled hf, launchMessage_full hf, fun hc hb pa attr b u hx hr => launchMessage_read hf hc hb hx hr⟩
  case prerequisites =>
    intro s l hl hw
    exact ⟨fun h => prerequisitesMet_failed hl hw (prereqs_failed h), fun h => prerequisitesMet_met hl hw (prereqs_met h)⟩
  case scan =>
    intro s l hl hp
    exact ⟨fun he hn hg => admissionScan_engine hl ((engineFree_iff s l hp).mpr ⟨he, hn, hg⟩), fun he hb h0 hn => admissionScan_candidate hl hp he hb h0 hn⟩
  case commit =>
    rintro s l ts hb hl hr rfl hnd
    exact clusterCommit_spec hb hl hr hnd
  case retire =>
    intro s l hl ha hst hp hg
    have hstep := completion_step hl ha (.inl hst)
    refine ⟨fun hw => hstep.trans (congrArg Host.Outcome.next (completeStep_writing hp hw)), fun hw => ?_⟩
    rw [completeStep_retires hp hg hw] at hstep
    obtain ⟨hhead, hlen⟩ := history_remember (s.mapLaunch l.id (fun _ => retired l)) (retired l)
    exact ⟨_, hstep, retired l, rfl, rfl, hhead, hlen⟩
  case release =>
    intro s l hl ha hf hp hst hsc hg hcl
    exact (completion_step hl ha (.inr hf)).trans (congrArg Host.Outcome.next (completeStep_releases hp hst hsc hg hcl))
  case inactive =>
    intro s l hl h hp
    have heq := completion_inactive hl h
    rw [if_pos hp] at heq
    refine ⟨_, heq, ?_⟩
    cases l.dup with
    | true => exact ⟨rfl, fun _ => rfl, Bool.noConfusion⟩
    | false => exact ⟨rfl, Bool.noConfusion, fun _ => rfl⟩
  case record =>
    intro s l hl h
    have hrec := completion_record hl h
    exact ⟨fun pa attr u hx hw => hrec.trans (congrArg Host.Outcome.next (writeRecord_written hx hw)),
      fun c v hx => hrec.trans (congrArg Host.Outcome.next (writeRecord_abandoned hx))⟩
  case bytes =>
    rintro s l b rfl
    exact recordBytes_spec s l

end Sys2Proof.ParallelProofs
end

section
/-! SUPPORT and THEOREMS. O43: the steward's events, its timers and watchdogs, and `ctx.kill` (R118, R361, R368 to R370, R379). -/

namespace Sys2Proof.ParallelProofs
open Sys2Proof.Machine Sys2Proof.ScalarProofs

/-! ### The steward takes an event (R118, R368) -/

theorem cell_write (x : Ctx) (r q : Nat) (v : Word) : (x.write r v).cell q = if q = r ∧ r ≠ 0 then ⟨v, .full, false⟩ else x.cell q :=
  Ctx.cell_setCell x r q _

/-- The registers with an event's payload in s3 to s9; without one they stand. -/
def withPayload (x : Ctx) (e : StewEvent) : Ctx :=
  if e.words.isEmpty then x else ((upTo 6).foldl (fun (x : Ctx) j => x.write (3 + j) (e.words.getD (j + 1) 0)) x).write 9 (e.words.getD 0 0)

/-- Writing n words from s3 on: those registers hold them, the others stand. -/
theorem cell_writes (x : Ctx) (f : Nat → Word) (n r : Nat) : ((List.range n).foldl (fun (x : Ctx) j => x.write (3 + j) (f j)) x).cell r
    = if 3 ≤ r ∧ r < 3 + n then ⟨f (r - 3), .full, false⟩ else x.cell r := by
  induction n with
  | zero => rw [if_neg (by omega)]; rfl
  | succ n ih =>
    rw [List.range_succ, List.foldl_append, List.foldl_cons, List.foldl_nil, cell_write, ih]
    by_cases hr : r = 3 + n
    · subst hr
      rw [if_pos ⟨rfl, by omega⟩, if_pos ⟨by omega, by omega⟩, Nat.add_sub_cancel_left]
    · rw [if_neg (fun h => hr h.1)]
      exact if_congr (by omega) rfl rfl

theorem cell_withPayload_words {x : Ctx} {e : StewEvent} (h : e.words ≠ []) : (∀ j, j < 6 → (withPayload x e).cell (3 + j) = ⟨e.words.getD (j + 1) 0, .full, false⟩)
    ∧ (withPayload x e).cell 9 = ⟨e.words.getD 0 0, .full, false⟩ := by
  have hne : ¬ e.words.isEmpty = true := by rwa [List.isEmpty_iff]
  rw [withPayload, if_neg hne, upTo]
  refine ⟨fun j hj => ?_, by rw [cell_write, if_pos ⟨rfl, by decide⟩]⟩
  rw [cell_write, if_neg (by omega), cell_writes x (fun j => e.words.getD (j + 1) 0), if_pos ⟨by omega, by omega⟩, Nat.add_sub_cancel_left]

theorem cell_withPayload_other (x : Ctx) (e : StewEvent) {r : Nat} (h : r < 3 ∨ 9 < r ∨ e.words = []) : (withPayload x e).cell r = x.cell r := by
  unfold withPayload
  by_cases hw : e.words = []
  · rw [if_pos (List.isEmpty_iff.mpr hw)]
  · have hr : r < 3 ∨ 9 < r := by simpa [hw] using h
    rw [if_neg (fun hn => hw (List.isEmpty_iff.mp hn)), upTo, cell_write, if_neg (fun hc => by have := hc.1; omega), cell_writes x (fun j => e.words.getD (j + 1) 0), if_neg (fun hc => by omega)]

theorem cell_stewardEntry (x : Ctx) (name : Nat) (cleared : Bool) (e : StewEvent) (tvec : Word) (now r : Nat) :
    (x.stewardEntry name cleared e tvec now).cell r = (withPayload (if cleared then Ctx.free else x) e).cell r := rfl

theorem cell_free (r : Nat) : Ctx.free.cell r = ⟨0, .full, false⟩ := by
  unfold Ctx.cell
  split <;> rfl

/-- The word of the cause: late and orphaned events are marked in it (R118). -/
theorem stewardEntry_tcause (x : Ctx) (name : Nat) (cleared : Bool) (e : StewEvent) (tvec : Word) (now : Nat) :
    (x.stewardEntry name cleared e tvec now).tcause
      = BitVec.ofNat 64 (e.cause + (if 0x10 ≤ e.cause ∧ e.cause ≤ 0x13 then 2 ^ 8 else 0) + (if e.orphan = true then 2 ^ 9 else 0)) := by
  have hlate : (decide (0x10 ≤ e.cause ∧ e.cause ≤ 0x13)).toNat * 256 = if 0x10 ≤ e.cause ∧ e.cause ≤ 0x13 then 2 ^ 8 else 0 := by
    split <;> simp_all
  have horphan : e.orphan.toNat * 512 = if e.orphan = true then 2 ^ 9 else 0 := by cases e.orphan <;> rfl
  rw [← hlate, ← horphan]
  rfl

/-- The core once its steward has taken the head event. -/
def tookEvent (s : State) (core : Nat) (e : StewEvent) : CoreSt :=
  { (s.core core).dequeue with event := some e, prevTen := if e.fw || (s.tenant e.tenant).tvec == 0 then (s.core core).prevTen else some e.tenant }

section
variable {s : State} {core : Nat} {e : StewEvent} {l : List StewEvent}

theorem stewardTake_eq (hq : (s.core core).queue = e :: l) : s.stewardTake core =
    if e.fw then s.setCore core (tookEvent s core e)
    else if (s.tenant e.tenant).tvec = 0 then { endEvent (s.setCore core (tookEvent s core e)) core with fwTraps := s.fwTraps + 1 }
    else (s.setCore core (tookEvent s core e)).setCtx (ctxKey core 8) ((s.ctx (ctxKey core 8)).stewardEntry (stewardName s.cube core)
      (decide ((s.core core).prevTen ≠ some e.tenant)) e (s.tenant e.tenant).tvec s.cycle) := by
  unfold State.stewardTake
  simp only [hq]
  rfl

theorem tookEvent_queue (hq : (s.core core).queue = e :: l) : (tookEvent s core e).queue = l ++ (s.core core).waiting.take 1 := by
  show (s.core core).queue.tail ++ (s.core core).waiting.take 1 = _
  rw [hq]; rfl

/-- An event that no handler takes: the steward stays idle, and its core has no event. -/
theorem endEvent_spec (s : State) (core : Nat) : (∀ j, j ≠ ctxKey core 8 → (endEvent s core).ctx j = s.ctx j) ∧ (endEvent s core).mem = s.mem ∧ ((endEvent s core).core core).event = none :=
  ⟨fun _ hj => State.ctx_setCtx_ne _ _ _ _ hj, rfl, congrArg CoreSt.event (State.core_setCore_self _ _ _)⟩

/-- What the tenant's handler finds (R118, R361). -/
theorem stewardEntry_spec (x0 : Ctx) (name : Nat) (prev : Option Nat) (e : StewEvent) (tvec : Word) (now : Nat) :
    ∀ x, x = x0.stewardEntry name (decide (prev ≠ some e.tenant)) e tvec now →
      x.occ = true ∧ x.tenant = e.tenant ∧ x.priv = .supervisor ∧ x.pc = tvec + 0x80 ∧ x.tval = e.val ∧ x.tsub = BitVec.ofNat 64 e.sub ∧ x.park = none
        ∧ x.tcause = BitVec.ofNat 64 (e.cause + (if 0x10 ≤ e.cause ∧ e.cause ≤ 0x13 then 2 ^ 8 else 0) + (if e.orphan = true then 2 ^ 9 else 0))
        ∧ (e.words ≠ [] → (∀ j, j < 6 → x.cell (3 + j) = ⟨e.words.getD (j + 1) 0, .full, false⟩) ∧ x.cell 9 = ⟨e.words.getD 0 0, .full, false⟩)
        ∧ (prev = some e.tenant → ∀ r, (r < 3 ∨ 9 < r ∨ e.words = []) → x.cell r = x0.cell r)
        ∧ (prev ≠ some e.tenant → ∀ r, (r < 3 ∨ 9 < r ∨ e.words = []) → x.cell r = ⟨0, .full, false⟩) := by
  rintro x rfl
  refine ⟨rfl, rfl, rfl, rfl, rfl, rfl, rfl, stewardEntry_tcause _ _ _ _ _ _, fun hw => ?_, fun hp r hr => ?_, fun hp r hr => ?_⟩
  · exact cell_withPayload_words hw
  · rw [cell_stewardEntry, cell_withPayload_other _ _ hr, decide_eq_false (not_not.mpr hp)]; rfl
  · rw [cell_stewardEntry, cell_withPayload_other _ _ hr, decide_eq_true hp, if_pos rfl, cell_free]

end

/-- STEWARD_EVENT and MESSAGE both have the steward take the head of its queue. -/
theorem exec_stewardTake (s : State) : ∀ i ∈ [Instr.stewardEvent, .message], exec i s = .next (s.stewardTake s.arg.a) := by
  intro i hi
  rcases List.mem_pair.mp hi with rfl | rfl <;> rfl

/-! ### Timers and watchdogs (R369, R370) -/

theorem timer_eq {s : State} {e : StewEvent} (h : s.fwCmd s.arg.a 3 = some e) :
    exec .timer s = .next ((s.setCore s.arg.a { s.core s.arg.a with compare := smPut 0 (s.core s.arg.a).compare e.tenant (e.words.getD 1 0).toNat }).fwEnd s.arg.a) := by
  show execTimer s = _
  simp only [execTimer, h]
  rfl

theorem watchdog_eq {s : State} {e : StewEvent} (h : s.fwCmd s.arg.a 4 = some e) :
    exec .watchdog s = .next ((s.setCore s.arg.a { s.core s.arg.a with limit := smPut 0 (s.core s.arg.a).limit e.tenant (e.words.getD 1 0).toNat }).fwEnd s.arg.a) := by
  show execWatchdog s = _
  simp only [execWatchdog, h]
  rfl

theorem watchdogDue_iff (s : State) (k : Nat) : s.watchdogDue k = true ↔ (s.ctx k).occ = true ∧ k % 16 ≠ 8 ∧ (s.ctx k).barked = false
    ∧ smGet 0 (s.core (k / 16)).limit (s.ctx k).tenant ≠ 0 ∧ (s.ctx k).park ≠ some .away
    ∧ 6 * smGet 0 (s.core (k / 16)).limit (s.ctx k).tenant ≤ 5 * (s.cycle - (s.ctx k).issued) := by
  simp only [State.watchdogDue, State.elapsed, Bool.and_eq_true, bne_iff_ne, Bool.not_eq_true', decide_eq_true_eq, and_assoc]

/-! ### `ctx.kill` (R379) -/

section
variable {s : State} {d a : Reg} {t : Bool}

/-- A register that issues and is no port is readable before the instruction issues (R25). -/
theorem readable_source (hi : s.issues ⟨[(a, t)], [], [d], []⟩ = true) (ha : a.val < 60) : s.readable [a] = true := by
  have hport : isPort a.val = false := by simp [isPort]; omega
  obtain ⟨-, -, hfull⟩ := State.srcReady_parts ((State.issues_parts hi).1 (a, t) (by simp))
  obtain ⟨hst, -⟩ := hfull hport
  simp [State.readable, hport, hst]

/-- The operand of `ctx.kill` names no thread, or the running one. -/
theorem killBad_iff (s : State) (n : Nat) (hn : n < 2 ^ 64) : (bits n 63 32 != 0 || n % 2 ^ 32 == s.myName) = true ↔ 2 ^ 32 ≤ n ∨ n = s.myName := by
  have hb : bits n 63 32 = n / 2 ^ 32 := by unfold bits; omega
  rw [hb, Bool.or_eq_true, bne_iff_ne, beq_iff_eq]
  by_cases h : n < 2 ^ 32
  · rw [Nat.mod_eq_of_lt h, Nat.div_eq_of_lt h]
    simp only [ne_eq, not_true_eq_false, false_or, not_le.mpr h]
  · have : n / 2 ^ 32 ≠ 0 := by omega
    simp only [this, not_lt.mp h, ne_eq, not_false_eq_true, true_or]

theorem killGood {n : Nat} (hn : n < 2 ^ 32) (hm : n ≠ s.myName) : (bits n 63 32 != 0 || n == s.myName) = false := by
  have hiff := killBad_iff s n (by omega)
  rw [Nat.mod_eq_of_lt hn] at hiff
  rw [Bool.eq_false_iff, Ne, hiff]
  omega

theorem ctxKill_bad (hi : s.issues ⟨[(a, t)], [], [d], []⟩ = true) (hc : s.cur.1 < 320) (hb : 2 ^ 32 ≤ (s.val a).toNat ∨ (s.val a).toNat = s.myName)
    (hp : a.val < 60 ∨ s.self.priv ≠ .user) : exec (.ctxKill d a t) s = .next (s.trap 0x01 0x0D (BitVec.ofNat 64 ((encode (.ctxKill d a t)).headD 0))) := by
  show execCtxKill d a t s = _
  have hbad := (killBad_iff s (s.val a).toNat (s.val a).isLt).mpr hb
  simp only [execCtxKill, not_le.mpr hc, if_false, hbad, Bool.and_true, if_true]
  refine congrArg Host.Outcome.next ?_
  by_cases hr : s.readable [a] = true
  · rw [if_pos hr]; exact State.issueWith_early hi _ _
  · have hpriv := hp.resolve_left (fun ha => hr (readable_source hi ha))
    rw [if_neg hr, if_neg hpriv]
    exact State.issueWith_go hi _

theorem ctxKill_user (hi : s.issues ⟨[(a, t)], [], [d], []⟩ = true) (hc : s.cur.1 < 320) (hn : (s.val a).toNat < 2 ^ 32) (hm : (s.val a).toNat ≠ s.myName)
    (hp : s.self.priv = .user) : exec (.ctxKill d a t) s = .next (s.trap 0x02 0 (BitVec.ofNat 64 ((encode (.ctxKill d a t)).headD 0))) := by
  show execCtxKill d a t s = _
  simp only [execCtxKill, not_le.mpr hc, if_false, Nat.mod_eq_of_lt hn, killGood hn hm, Bool.and_false, Bool.false_eq_true, hp, if_true]
  exact congrArg Host.Outcome.next (State.issueWith_early hi _ _)

theorem findThread_popAll (s : State) (l : List (Reg × Bool)) (n : Nat) : (s.popAll l).findThread n = s.findThread n := by
  obtain ⟨_, _, h⟩ := popAll_frame s l; rw [h]; rfl

theorem peers_popAll (s : State) (l : List (Reg × Bool)) : (s.popAll l).peers = s.peers := by
  obtain ⟨_, _, h⟩ := popAll_frame s l; rw [h]

section
variable (hi : s.issues ⟨[(a, t)], [], [d], []⟩ = true) (hc : s.cur.1 < 320) (hn : (s.val a).toNat < 2 ^ 32) (hm : (s.val a).toNat ≠ s.myName) (hp : s.self.priv ≠ .user)
include hi hc hn hm hp

theorem ctxKill_steward (hs : isStewardEnd (s.val a).toNat = true) : exec (.ctxKill d a t) s = .next (((s.popAll [(a, t)]).later d 6).finish (.ctxKill d a t)) := by
  show execCtxKill d a t s = _
  simp only [execCtxKill, not_le.mpr hc, if_false, Nat.mod_eq_of_lt hn, killGood hn hm, Bool.and_false, Bool.false_eq_true, hp, hs, if_true]
  exact congrArg Host.Outcome.next (State.issueWith_go hi _)

theorem ctxKill_found (hs : isStewardEnd (s.val a).toNat = false) {f : Found} (hf : s.findThread (s.val a).toNat = some f) :
    exec (.ctxKill d a t) s = .next ((((s.popAll [(a, t)]).killFound s.self.tenant f).2.later d (BitVec.ofNat 64 ((s.popAll [(a, t)]).killFound s.self.tenant f).1)).finish (.ctxKill d a t)) := by
  show execCtxKill d a t s = _
  simp only [execCtxKill, not_le.mpr hc, if_false, Nat.mod_eq_of_lt hn, killGood hn hm, Bool.and_false, Bool.false_eq_true, hp, hs, findThread_popAll, hf]
  exact congrArg Host.Outcome.next (State.issueWith_go hi _)

theorem ctxKill_nobody (hs : isStewardEnd (s.val a).toNat = false) (hf : s.findThread (s.val a).toNat = none) (hpeers : s.peers = []) :
    exec (.ctxKill d a t) s = .next (((s.popAll [(a, t)]).later d 2).finish (.ctxKill d a t)) := by
  show execCtxKill d a t s = _
  simp only [execCtxKill, not_le.mpr hc, if_false, Nat.mod_eq_of_lt hn, killGood hn hm, Bool.and_false, Bool.false_eq_true, hp, hs, findThread_popAll, hf, peers_popAll, hpeers]
  refine congrArg Host.Outcome.next ((State.issueWith_go hi _).trans (if_pos ?_))
  rw [List.contains_nil, Bool.not_false, Bool.or_true]

end

theorem killFound_other {w : State} {tenant k : Nat} (h : (w.ctx k).tenant ≠ tenant) : w.killFound tenant (.ctx k) = (6, w) := if_pos h

theorem killFound_ending {w : State} {tenant k : Nat} (h : (w.ctx k).tenant = tenant) (he : (w.ctx k).ending = true) : w.killFound tenant (.ctx k) = (2, w) :=
  (if_neg (not_not.mpr h)).trans (if_pos he)

theorem killFound_marks {w : State} {tenant k : Nat} (h : (w.ctx k).tenant = tenant) (he : (w.ctx k).ending = false) :
    w.killFound tenant (.ctx k) = (0, w.setCtx k { w.ctx k with dying := true }) :=
  (if_neg (not_not.mpr h)).trans (if_neg (Bool.eq_false_iff.mp he))

theorem killFound_stored {w : State} {tenant : Nat} {q : Stored} (h : q.ctx.tenant = tenant) (hs : q.slot < 24) : w.killFound tenant (.stored q) = (0, w.killStored q) :=
  (if_neg (not_not.mpr h)).trans (if_neg (not_le.mpr hs))

end

/-- Settles O43: a steward's entry by the registers it writes and those it leaves; a kill by what the name finds. -/
theorem stewardEvents : Obligations.StewardEvents := by
  unfold Obligations.StewardEvents
  refine ⟨⟨?take, ?command, ?timer, ?watchdog⟩, ?kill⟩
  case take =>
    rintro s e l k hq rfl
    have htake := stewardTake_eq hq
    have hqueue := tookEvent_queue hq
    refine ⟨fun hfw i hi => ?_, fun hfw ht i hi => ?_, fun hfw ht i hi => ?_⟩
    all_goals
      have hexec := exec_stewardTake s i hi
      rw [htake] at hexec
    · rw [if_pos hfw] at hexec
      refine ⟨_, hexec, rfl, ?_, ?_, ?_, fun j hj => State.core_setCore_ne _ _ _ _ hj⟩
      · rw [State.core_setCore_self]; rfl
      · rw [State.core_setCore_self]; exact hqueue
      · rw [State.core_setCore_self]; rfl
    · rw [if_neg (Bool.eq_false_iff.mp hfw), if_neg ht] at hexec
      refine ⟨_, hexec, rfl, ?_, fun j hj => State.ctx_setCtx_ne _ _ _ _ hj, fun x hx => ?_⟩
      · exact (congrArg CoreSt.queue (State.core_setCore_self _ _ _)).trans hqueue
      · exact stewardEntry_spec _ _ _ _ _ _ x (hx.trans (State.ctx_setCtx_self _ _ _))
    · rw [if_neg (Bool.eq_false_iff.mp hfw), if_pos ht] at hexec
      obtain ⟨hctx, hmem, hevent⟩ := endEvent_spec (s.setCore s.arg.a (tookEvent s s.arg.a e)) s.arg.a
      exact ⟨_, hexec, hctx, hmem, rfl, hevent⟩
  case command =>
    intro s e he hfw
    exact ⟨fun hc => timer_eq (fwCmd_of_event he hfw hc), fun hc => watchdog_eq (fwCmd_of_event he hfw hc)⟩
  case timer =>
    rintro s v c rfl rfl
    exact ⟨fun h => congrArg Host.Outcome.next (if_pos h), fun h0 hle => congrArg Host.Outcome.next (if_neg (by omega))⟩
  case watchdog =>
    rintro s x n rfl rfl
    refine ⟨fun h1 h2 h3 h4 h5 h6 => congrArg Host.Outcome.next (if_pos ((watchdogDue_iff s _).mpr ⟨h1, h2, h3, h4, h5, h6⟩)),
      fun h => congrArg Host.Outcome.next (if_neg ?_)⟩
    rw [watchdogDue_iff]
    rintro ⟨-, -, hbarked, hlimit, -, hdue⟩
    rcases h with h | h | h
    · rw [h] at hbarked; cases hbarked
    · exact hlimit h
    · omega
  case kill =>
    rintro s d a t n w hi hc rfl rfl
    refine ⟨fun hb hp => ctxKill_bad hi hc hb hp, fun hn hm => ⟨ctxKill_user hi hc hn hm, fun hp => ⟨ctxKill_steward hi hc hn hm hp, fun hs => ?_⟩⟩⟩
    refine ⟨fun k hf => ?_, fun q hf hten hslot => ?_, fun hf hpeers => ctxKill_nobody hi hc hn hm hp hs hf hpeers⟩
    · have heq := ctxKill_found hi hc hn hm hp hs hf
      have hctx := popAll_ctx s [(a, t)] k
      refine ⟨fun hten => ?_, fun hten he => ?_, fun hten he => ?_⟩
      · rw [killFound_other (by rwa [hctx])] at heq; exact heq
      · rw [killFound_ending (by rwa [hctx]) (by rwa [hctx])] at heq; exact heq
      · rw [killFound_marks (by rwa [hctx]) (by rwa [hctx])] at heq; exact heq
    · have heq := ctxKill_found hi hc hn hm hp hs hf
      rw [killFound_stored hten hslot] at heq
      exact heq

end Sys2Proof.ParallelProofs
end
